-- ==== Sys2Proof/Word.lean ====
section
/-! DEFINITION. Bytes, status codes and little-endian fields: the words every other file is written in. -/

namespace Sys2Proof

/-- One byte of a structure, a buffer or a memory. -/
abbrev Byte := BitVec 8

/-- A byte string, lowest address first. -/
abbrev Bytes := List Byte

/-- A status code (R7): the high byte is the class of Table 0.4. -/
abbrev Status := BitVec 16

end Sys2Proof
end

