-- ==== Sys2Proof/Syntax.lean ====
section
/-! DEFINITION. The commands of the block: one constructor for each row of spec/opcode_table.json, in the
table's order, with the operands the rule of the row gives it (log entry 1 says how operands were chosen). -/

namespace Sys2Proof

/-- A sorting core by its logical numbers (R11). -/
structure CoreRef where
  die : Nat
  cluster : Nat
  core : Nat
  deriving DecidableEq, Repr, Inhabited

/-- The key of one item in flight: job handle, rank, epoch and position (R71, R535). -/
structure ItemRef where
  job : Nat
  rank : Nat
  epoch : Nat
  q : Nat
  deriving DecidableEq, Repr, Inhabited

/-- The requester of a core-scratch access, in the arbiter order of R375. -/
inductive Issuer where
  | seq | cde0 | cde1 | vte0 | vte1 | ide | txe | pke
  deriving DecidableEq, Repr, Inhabited

/-- Transport fields of one inbound RoCE packet (R327, R333). -/
structure RoceHdr where
  qpn : Nat
  psn : Nat
  ce : Bool := false
  ackReq : Bool := false
  icrcOk : Bool := true
  pkey : Nat := 0xFFFF
  deriving DecidableEq, Repr, Inhabited

/-- The NAK kinds a requester can receive (R334, R337, Table 11.7). -/
inductive NakKind where
  | sequence
  | rnr (timerNs : Nat)
  | invalidRequest
  | remoteAccess
  | remoteOp
  deriving DecidableEq, Repr, Inhabited

/-- A unit as a fault report names it (Table 18.1): kind and physical indices, 0xF where a field does not apply. -/
structure UnitRef where
  kind : Nat
  die : Nat
  cluster : Nat := 0xF
  core : Nat := 0xF
  slot : Nat := 0xF
  deriving DecidableEq, Repr, Inhabited

/-- What a media access returned, step of the recovery ladder by step (Table 15.4). -/
structure ReadOutcome where
  /-- Step of Table 15.4 that decoded the codeword, 1 to 4; 5 when none did. -/
  step : Nat
  /-- Retry sets used at step 2. -/
  depth : Nat := 0
  deriving DecidableEq, Repr, Inhabited

/-- What the admission of a sled met (R457, Table 15.9). -/
inductive AdmitOutcome where
  | ok
  | partUnsupported
  | badDescriptor
  | trainingFailed
  deriving DecidableEq, Repr, Inhabited

/-- The commands of the block. -/
inductive Instr where
  | devIdentify (p : Nat) (frame : Bytes)
  | devGetFigures (p : Nat) (frame : Bytes)
  | devSetTick (p : Nat) (frame : Bytes)
  | devSetMode (p : Nat) (frame : Bytes)
  | devStageConfig (p : Nat) (frame : Bytes)
  | devCommitConfig (p : Nat) (frame : Bytes)
  | devStartComplete (p : Nat) (frame : Bytes)
  | jobCreate (p : Nat) (frame : Bytes)
  | jobBindRanks (p : Nat) (frame : Bytes)
  | jobStart (p : Nat) (frame : Bytes)
  | jobSeal (p : Nat) (frame : Bytes)
  | jobResume (p : Nat) (frame : Bytes)
  | jobDestroy (p : Nat) (frame : Bytes)
  | jobQuery (p : Nat) (frame : Bytes)
  | dsetOpen (p : Nat) (frame : Bytes)
  | dsetAddManifest (p : Nat) (frame : Bytes)
  | dsetClose (p : Nat) (frame : Bytes)
  | dsetVerify (p : Nat) (frame : Bytes)
  | dsetDelete (p : Nat) (frame : Bytes)
  | routeLoad (p : Nat) (frame : Bytes)
  | routeValidate (p : Nat) (frame : Bytes)
  | routeUnload (p : Nat) (frame : Bytes)
  | vocabLoad (p : Nat) (frame : Bytes)
  | vocabUnload (p : Nat) (frame : Bytes)
  | grammarUnload (p : Nat) (frame : Bytes)
  | grammarLoad (p : Nat) (frame : Bytes)
  | streamOpen (p : Nat) (frame : Bytes)
  | streamClose (p : Nat) (frame : Bytes)
  | curRegisterRegion (p : Nat) (frame : Bytes)
  | curRevokeRegion (p : Nat) (frame : Bytes)
  | curConnect (p : Nat) (frame : Bytes)
  | curDisconnect (p : Nat) (frame : Bytes)
  | dspSetNode (p : Nat) (frame : Bytes)
  | dspSetMeter (p : Nat) (frame : Bytes)
  | dspSetGates (p : Nat) (frame : Bytes)
  | stoFormat (p : Nat) (frame : Bytes)
  | stoSledPrepareRemove (p : Nat) (frame : Bytes)
  | stoSledAdmit (p : Nat) (frame : Bytes)
  | stoStandin (p : Nat) (frame : Bytes)
  | stoSetEccStrength (p : Nat) (frame : Bytes)
  | fltReadLog (p : Nat) (frame : Bytes)
  | fltClearSticky (p : Nat) (frame : Bytes)
  | fltSetSeverity (p : Nat) (frame : Bytes)
  | fltGetDump (p : Nat) (frame : Bytes)
  | pwrSetCap (p : Nat) (frame : Bytes)
  | pwrDomainCtl (p : Nat) (frame : Bytes)
  | pwrReadMargins (p : Nat) (frame : Bytes)
  | fwStageImage (p : Nat) (frame : Bytes)
  | fwActivate (p : Nat) (frame : Bytes)
  | lbxCreate (p : Nat) (frame : Bytes)
  | lbxErrorLog (p : Nat) (frame : Bytes)
  | lbxRestart (p : Nat) (frame : Bytes)
  | lbxReset (p : Nat) (frame : Bytes)
  | doorbellWrite (port offset size : Nat) (value : BitVec 64)
  | get (queue tag : Nat)
  | put (queue tag : Nat)
  | discard (queue tag : Nat)
  | secureDiscard (queue tag : Nat)
  | stat (queue tag : Nat)
  | list (queue tag : Nat)
  | flush (queue tag : Nat)
  | intDelayExpiry (queue : Nat)
  | pkgReset (port die : Nat) (value : BitVec 32)
  | bkpClear (port die : Nat) (value : BitVec 32)
  | recoveryReq (port die : Nat) (value : BitVec 32)
  | fcAlertAck (port die : Nat) (value : BitVec 64)
  | kick (port die : Nat) (value : BitVec 32) (byRoist : Bool)
  | arm (port die : Nat) (value : BitVec 32)
  | disarm (port die : Nat) (value : BitVec 32)
  | frkStart (port die unit : Nat) (value : BitVec 32) (byRoist : Bool)
  | frkAbort (port die unit : Nat) (value : BitVec 32) (byRoist : Bool)
  | mbusClear (port die bus : Nat) (value : BitVec 32) (byRoist : Bool) (goodAttempt : Nat) (sda scl : Bool)
  | isolate (port die bus : Nat) (value : BitVec 32) (byRoist : Bool)
  | registerWrite (port offset size : Nat) (value : BitVec 64)
  | badAccess (port offset size : Nat) (write : Bool)
  | lowHalfRead (port offset : Nat)
  | coldReset
  | brownout (rail : Nat)
  | pinReset
  | softReset
  | startTimeout
  | fatalRestart
  | glitchRestart
  | dieReset (die : Nat)
  | portReset (port : Nat)
  | startUp
  | startReady
  | partitionReady (partition : Nat)
  | powerFail
  | serviceButtonPress
  | serviceButtonRelease
  | serviceButtonHold
  | attentionButton (slot : Nat)
  | surpriseRemoval (slot : Nat)
  | ptpLockLoss (port : Nat)
  | tickBoundary (die : Nat)
  | deliveryTick (die : Nat)
  | expressCutoff (die : Nat)
  | configCommit (job : Nat)
  | tickChange
  | gateScheduleChange (port : Nat)
  | gateEntry (port entry : Nat)
  | spareEntry (die : Nat)
  | formationPoint (die : Nat)
  | spillDeadline (die : Nat)
  | sealCutoff (job : Nat)
  | prepareReport (job unit : Nat) (ok : Bool)
  | prepareTimeout (job : Nat)
  | localReadIssue (die : Nat)
  | storeReadComplete (item : ItemRef) (ok : Bool) (status : Status)
  | fetchRequestSend (die peer segment : Nat)
  | fetchRequest (qpn : Nat) (payload : Bytes)
  | stagingComplete (request : Nat)
  | fetchReply (qpn : Nat) (payload : Bytes)
  | homeBusyRetry (item : ItemRef)
  | releaseOnlySend (die peer : Nat)
  | primaryRetry (item : ItemRef)
  | stagingLeaseEnd (handle : Nat)
  | fetchDeadline (item : ItemRef)
  | bufferGrant (stack : Nat)
  | itemStart (core : CoreRef)
  | inflateRaw (core : CoreRef) (item : ItemRef)
  | inflateZlib (core : CoreRef) (item : ItemRef)
  | inflateGzip (core : CoreRef) (item : ItemRef)
  | decodeZstd (core : CoreRef) (item : ItemRef)
  | decodeAuto (core : CoreRef) (item : ItemRef)
  | deflateRaw (core : CoreRef) (item : ItemRef)
  | deflateZlib (core : CoreRef) (item : ItemRef)
  | deflateGzip (core : CoreRef) (item : ItemRef)
  | encodeZstd (core : CoreRef) (item : ItemRef)
  | decodeJpeg (core : CoreRef) (item : ItemRef)
  | decodePng (core : CoreRef) (item : ItemRef)
  | decodeImage (core : CoreRef) (item : ItemRef)
  | decodeSequence (core : CoreRef) (item : ItemRef)
  | decodeTensor (core : CoreRef) (item : ItemRef)
  | decodeWav (core : CoreRef) (item : ItemRef)
  | decodeFlac (core : CoreRef) (item : ItemRef)
  | decodeAudio (core : CoreRef) (item : ItemRef)
  | crop (core : CoreRef) (item : ItemRef)
  | flipRotate (core : CoreRef) (item : ItemRef)
  | resize (core : CoreRef) (item : ItemRef)
  | colour (core : CoreRef) (item : ItemRef)
  | normalise (core : CoreRef) (item : ItemRef)
  | layout (core : CoreRef) (item : ItemRef)
  | cutout (core : CoreRef) (item : ItemRef)
  | mix (core : CoreRef) (item : ItemRef)
  | convert (core : CoreRef) (item : ItemRef)
  | spectrum (core : CoreRef) (item : ItemRef)
  | tokenise (core : CoreRef) (item : ItemRef)
  | detokenise (core : CoreRef) (item : ItemRef)
  | place (core : CoreRef) (item : ItemRef)
  | placeScalar (core : CoreRef) (item : ItemRef)
  | packTokens (core : CoreRef) (item : ItemRef)
  | copy (core : CoreRef) (item : ItemRef)
  | slice (core : CoreRef) (item : ItemRef)
  | checkFrank (core : CoreRef) (item : ItemRef)
  | fill (core : CoreRef) (item : ItemRef)
  | stageComplete (core : CoreRef) (item : ItemRef) (ranNs : Nat)
  | engineWatchdog (core : CoreRef) (slot : Nat)
  | settleRequest (qpn : Nat) (payload : Bytes) (alternateReply : Option Bytes)
  | settleReply (qpn : Nat) (payload : Bytes)
  | settleTimeout (item : ItemRef)
  | finalWriteAck (job rank : Nat) (step : Nat)
  | prHoldExpiry (job rank : Nat)
  | ingressFrame (port len pcp : Nat) (hdr : RoceHdr) (isResponse : Bool)
  | pauseFrame (port prio quanta : Nat)
  | inboundWrite (hdr : RoceHdr) (first last imm : Bool) (key addr len : Nat) (payload : Bytes)
  | inboundReadRequest (hdr : RoceHdr) (key addr len : Nat)
  | inboundAtomic (hdr : RoceHdr) (compareSwap : Bool) (key addr : Nat) (add : BitVec 64)
  | ackReceived (hdr : RoceHdr)
  | nakReceived (hdr : RoceHdr) (kind : NakKind)
  | readResponse (hdr : RoceHdr) (last : Bool) (payload : Bytes)
  | cnpReceived (qpn : Nat)
  | ackTimer (qpn : Nat)
  | retransmitTimeout (qpn : Nat)
  | rnrWaitExpiry (qpn : Nat)
  | workRequestLifetime (qpn : Nat)
  | workRequestStart (qpn : Nat)
  | revocationComplete (die entry : Nat)
  | revocationCut (die entry : Nat)
  | frameTransmit (port : Nat)
  | streamRequest (qpn : Nat) (payload : Bytes)
  | streamTokenise (stream : Nat)
  | streamDetokenise (stream : Nat)
  | streamCommit (stream : Nat)
  | barrierArrive (qpn : Nat) (payload : Bytes)
  | barrierRelease (qpn : Nat) (payload : Bytes)
  | barrierAbort (qpn : Nat) (payload : Bytes)
  | barrierComplete (job : Nat)
  | barrierTimeout (job : Nat)
  | load (core : CoreRef) (issuer : Issuer) (addr : Nat)
  | store (core : CoreRef) (issuer : Issuer) (addr : Nat) (value : BitVec 64)
  | loadTake (core : CoreRef) (issuer : Issuer) (addr : Nat)
  | loadPeek (core : CoreRef) (issuer : Issuer) (addr : Nat)
  | storeFill (core : CoreRef) (issuer : Issuer) (addr : Nat) (value : BitVec 64)
  | setEmpty (core : CoreRef) (addr : Nat)
  | watch (core : CoreRef) (issuer : Issuer) (addr : Nat) (awaitFull : Bool) (tag : BitVec 16)
  | watchRetry (core : CoreRef) (issuer : Issuer)
  | journalPageTimer (partition : Nat)
  | nandProgramComplete (program : Nat) (ok : Bool)
  | nandReadComplete (read : Nat) (outcome : ReadOutcome)
  | nandEraseComplete (block : Nat) (ok : Bool)
  | checkpoint (partition : Nat)
  | fold (die : Nat)
  | patrolRead (cell : Nat) (outcome : ReadOutcome)
  | cellRefresh (cell : Nat)
  | wearLevel (lun : Nat)
  | standinTakeover (group place : Nat)
  | rebuild (group : Nat)
  | partitionTakeover (partition : Nat)
  | notReadyTimeout (queue tag : Nat)
  | sledAdmissionComplete (slot : Nat) (outcome : AdmitOutcome)
  | parkComplete (slot : Nat)
  | faultReport (status : Status) (src : UnitRef) (detail : BitVec 64) (injected : Bool)
  | faultHandling (die : Nat)
  | leaseExpiry (die lease : Nat)
  | watchdogExpiry (die : Nat)
  | accountingCheck
  | marginMeasurement (die margin unit : Nat) (value : Int) (baseline : Int)
  | junctionSensorRead (die sensor : Nat) (celsius : Int)
  | dumpComplete
  | capUnmet
  | scrubRead (die : Nat) (dram : Bool) (memory : Nat) (addr errors : Nat)
  | rowRepair (die memory row : Nat)
  | sclLowTimeout (die bus : Nat) (goodAttempt : Nat) (sda scl : Bool)
  | isolateRetry (die bus : Nat) (goodAttempt : Nat) (sda scl : Bool)
  | ptpLockGain (port : Nat)
  | garbageCollection (die : Nat)
  | frankingListDone (die unit : Nat) (poisoned : Bool)
  | pauseExpiry (port prio : Nat)
  | perstNHigh (port : Nat)
  | ppsInEdge
  deriving DecidableEq, Repr

end Sys2Proof
end

