-- ==== Sys2Proof/Config.lean ====
section
/-! DEFINITION. What a part or its environment fixes and the manual does not: free values and fixed unknowns, each an
opaque constant that nothing can evaluate (log entries 20 to 24). -/

namespace Sys2Proof.Config

/-- A byte the manual leaves undefined: the contents of a host buffer after a refused write (R579, R481). -/
opaque freeByte : Nat → Byte

/-- A 32-bit value the manual leaves undefined: FRK_RESULT after ABORT (R614). -/
opaque freeWord : Nat → BitVec 32

/-- Tag of a watch the sync unit registers by itself, which the manual does not give (R377, R379). -/
opaque freeTag : Nat → BitVec 16

/-- A 64-bit value Roist draws: the nonce of a service-button seal (R62). -/
opaque freeNonce : Nat → BitVec 64

/-- Package DRAM address of the fault-log ring of a die (R526, R636). -/
opaque logBase : Nat → BitVec 64

/-- Package DRAM address of the credit word of a rank: job slot, rank number (R302, R636). -/
opaque creditAddr : Nat → Nat → BitVec 64

/-- Offset in a stack of the buffer that holds a staged sample: stack, staging handle (R97, R493, R636). -/
opaque stagingOffset : Nat → Nat → Nat

/-- Package DRAM address, and so BAR4 offset, of the doorbell block of the letterbox unit of a PCIe port (R470, R636). -/
opaque doorbellBase : Nat → Nat

/-- Low 112 bits of the identifier the store gives a system object: kind (0 seal record, 1 segment directory) and handle of its
job or dataset (R401). -/
opaque systemId : Nat → Nat → BitVec 112

/-- POOL_BYTES of a stack: what Roist's reservations leave (R490, R636). -/
opaque poolBytes : Nat → Nat

/-- Firmware semantics version a Roist image holds, a function of its bytes (R591, R315): the image's form is not given. -/
opaque imageSemantics : Bytes → BitVec 32

/-- Handle of the buffer that holds a package DRAM address: the pool's place in a stack is Roist's build's (R490, R493, R636). -/
opaque bufferAt : Nat → BitVec 64

/-- Contents of a Postmaster core's registers and stack in a dump: die, core, byte offset (R638). -/
opaque postmasterByte : Nat → Nat → Nat → Byte

/-- Choices RFC 8878 leaves a Zstandard encoder and R160 does not fix: kind of choice (0 last FSE state, 1 four literal
streams, 2 form of the Huffman weights) and what it is about. -/
opaque zstdChoice : Nat → Nat → Nat

end Sys2Proof.Config
end

