-- ==== Sys2Proof/Machine/State.lean ====
section
/-! DEFINITION. Everything the spec gives the machine, as plain data. A field's docstring says its meaning, its width,
the rule that names it, and its reset value (R: the spec gives it, DESIGN CHOICE with its log entry where it does not).
Default values of fields are their reset values. Numbers without a stated width are counts, times in ns or identifiers. -/

namespace Sys2Proof.Machine

open Sys2Proof

/-! ### Memory -/

/-- Byte memories with unlisted bytes reading 0. Each list is canonical: addresses strictly rising, no 0 entry. -/
structure Mem where
  /-- dram: 512 GiB package DRAM, one byte a cell, address by R17. Reset: nothing listed, every byte 0 (R545). -/
  dram : List Host.Cell := []
  /-- host: host memory of the four ports, key port × 2^64 + bus address (R579). Reset: nothing listed (DESIGN CHOICE, log entry 4). -/
  host : List Host.Cell := []
  /-- frame: sorting-frame SRAM, key (9 die + cluster) × 2^25 + offset (R15, R614). Reset: nothing listed (DESIGN CHOICE, log entry 4). -/
  frame : List Host.Cell := []
  deriving DecidableEq, Repr, Inhabited

/-- The byte memories a write can name. -/
inductive Space where
  | dram | host | frame
  deriving DecidableEq, Repr, Inhabited

/-- One write a command makes to a memory, applied when the command ends. -/
structure MemWrite where
  space : Space
  addr : Nat
  bytes : Bytes
  /-- bytes from addr that are made 0 first (R545) -/
  clear : Nat := 0
  deriving DecidableEq, Repr, Inhabited

/-! ### Status of the start, reset and power (19) -/

/-- Start state of DEV_IDENTIFY (R550). -/
inductive StartState where
  | starting | ready | normal | recovery
  deriving DecidableEq, Repr, Inhabited

/-- RST registers of the package (Tables 21.3 to 21.6). -/
structure RstRegs where
  /-- RST_CAUSE SOURCE, 4 bits (R600). Reset: 1, COLD. -/
  source : BitVec 4 := 1
  /-- RST_CAUSE SOFT_KIND, 4 bits (R600). Reset: 0. -/
  softKind : BitVec 4 := 0
  /-- RST_CAUSE STATUS, 8 bits (R600). Reset: 0. -/
  status : BitVec 8 := 0
  /-- RST_CAUSE RECOVERY, 1 bit (R600). Reset: 0. -/
  recovery : Bool := false
  /-- RST_CAUSE VALID, 1 bit (R600). Reset: 1. -/
  valid : Bool := true
  /-- RST_CTL DIE_RESTART, 1 bit (R547, R600). Reset: 1, copied from the configuration store. -/
  dieRestart : Bool := true
  /-- RST_CTL AUTO_RESTART, 1 bit (R554, R600). Reset: 1, copied from the configuration store. -/
  autoRestart : Bool := true
  deriving DecidableEq, Repr, Inhabited

/-- RST_BAD_ACCESS and RST_BAD_COUNT of one die (Table 21.6, R595 to R597). -/
structure BadRegs where
  /-- RST_BAD_ACCESS OFFSET, 25 bits (R596). Reset: 0. -/
  offset : BitVec 25 := 0
  /-- RST_BAD_ACCESS WRITE, 1 bit. Reset: 0. -/
  write : Bool := false
  /-- RST_BAD_ACCESS PORT, 2 bits. Reset: 0. -/
  port : BitVec 2 := 0
  /-- RST_BAD_ACCESS VALID, 1 bit. Reset: 0. -/
  valid : Bool := false
  /-- RST_BAD_COUNT, 32 bits, saturating (R595). Reset: 0. -/
  count : BitVec 32 := 0
  deriving DecidableEq, Repr, Inhabited

/-- BKP block: the backup domain (Table 21.7). -/
structure Bkp where
  /-- BKP_FAILED_STARTS COUNT, 4 bits (R552, R602). Reset: 0. -/
  failedStarts : BitVec 4 := 0
  /-- BKP_RECOVERY_AT LIMIT, 4 bits (R552). Reset: 3. -/
  recoveryAt : BitVec 4 := 3
  /-- BKP_RECOVERY_AT START_LIMIT, 12 bits, seconds (R553). Reset: 600. -/
  startLimit : BitVec 12 := 600
  /-- BKP_FLAGS RECOVERY_REQ, 1 bit (R552). Reset: 0. -/
  recoveryReq : Bool := false
  /-- BKP_FLAGS POWER_FAIL, 1 bit (R570). Reset: 0. -/
  powerFail : Bool := false
  /-- BKP_FLAGS CLOCK_VALID, 1 bit (R546, R602). Reset: 0. -/
  clockValid : Bool := false
  /-- BKP_FLAGS BACKUP_LOST, 1 bit (R546, R602). Reset: 1. -/
  backupLost : Bool := true
  /-- BKP_PF_TIME, 64 bits, BKP_CLOCK at the last power fail; BKP_CLOCK is the time base in 1/32,768 s (R602). Reset: 0. -/
  pfTime : BitVec 64 := 0
  deriving DecidableEq, Repr, Inhabited

/-- A recorded field repair or retirement: the unit put out of service (R32, R36). -/
structure Retired where
  /-- the unit, physical indices -/
  who : UnitRef
  /-- cleared by FLT_CLEAR_STICKY, effective at the next start (R527) -/
  cleared : Bool := false
  /-- PTP time in ns of the fault report that retired it (Table 1.5) -/
  at_ : Nat := 0
  deriving DecidableEq, Repr, Inhabited

/-- Body of a configuration bank: the settings R565 to R569 keep. -/
structure Cfg where
  /-- ACTIVE_IMAGE, 0 A or 1 B (R558). Reset: 0 (DESIGN CHOICE, log entry 5). -/
  activeImage : Nat := 0
  /-- BKP_RECOVERY_AT, 1 to 15 (R552). Reset: 3. -/
  recoveryAt : Nat := 3
  /-- START_LIMIT, 120 to 3,600 s (R553). Reset: 600. -/
  startLimit : Nat := 600
  /-- AUTO_RESTART (R554). Reset: 1. -/
  autoRestart : Bool := true
  /-- DIE_RESTART (R547). Reset: 1. -/
  dieRestart : Bool := true
  /-- Power cap, W (R563). Reset: 1,650 (Table 21.9). -/
  capW : Nat := 1650
  /-- Field repairs recorded (R32). Reset: none (DESIGN CHOICE, log entry 5). -/
  repairs : List UnitRef := []
  /-- Retirements recorded (R36). Reset: none (DESIGN CHOICE, log entry 5). -/
  retired : List Retired := []
  deriving DecidableEq, Repr, Inhabited

/-- One configuration bank in SPI NOR (R566). -/
structure Bank where
  /-- the bank's header and CRC hold (R566) -/
  valid : Bool := false
  /-- SEQUENCE, 32 bits (R566) -/
  sequence : BitVec 32 := 0
  /-- the body -/
  cfg : Cfg := {}
  deriving DecidableEq, Repr, Inhabited

/-- One Roist image slot of the SPI NOR map (Table 19.6, R558, R591). -/
structure Image where
  /-- image passes its check -/
  valid : Bool := false
  /-- 32 B digest of the image -/
  digest : Bytes := []
  /-- firmware semantics version, 32 bits (R315) -/
  semantics : Nat := 0
  /-- staged and not yet activated -/
  staged : Bool := false
  deriving DecidableEq, Repr, Inhabited

/-- SPI NOR of die 0 (R565, Table 19.6). -/
structure Nor where
  /-- Configuration banks 0 and 1 (R566). Reset: bank 0 valid with defaults, bank 1 erased (DESIGN CHOICE, log entry 5). -/
  bank0 : Bank := { valid := true, sequence := 1 }
  bank1 : Bank := {}
  /-- bank in use, 0 or 1 (R567). Reset: 0. -/
  inUse : Nat := 0
  /-- Roist images A and B (Table 19.6). Reset: A valid, B erased (DESIGN CHOICE, log entry 5). -/
  imageA : Image := { valid := true, digest := List.replicate 32 0, semantics := 1 }
  imageB : Image := {}
  /-- Dump slots 0 and 1: a complete dump's bytes, or none (R541). Reset: none (DESIGN CHOICE, log entry 5). -/
  dump0 : Option Bytes := none
  dump1 : Option Bytes := none
  /-- SEQUENCE of the next dump, 32 bits (Table 18.8). Reset: 1 (DESIGN CHOICE, log entry 5). -/
  dumpSeq : Nat := 1
  deriving DecidableEq, Repr, Inhabited

/-- State of the power-fail sequence, the dump and the start limit (R549, R553, R554, R570). -/
structure Seqs where
  /-- PTP time of PWR_FAIL_N's fall while Table 19.9 runs (R570). Reset: none. -/
  powerFailAt : Option Nat := none
  /-- PTP time at which START_LIMIT runs out, while it is counted (R553). Reset: none until START_UP. -/
  startEnds : Option Nat := none
  /-- reset that this start follows: SOURCE, SOFT_KIND and STATUS, for RST_CAUSE to latch at step 2 (R600). Reset: 1, COLD. -/
  cause : Nat × Nat × Nat := (1, 0, 0)
  /-- FATAL report not yet answered by a restart: its time (R554). Reset: none. -/
  fatalAt : Option Nat := none
  /-- STATUS of that report (Table 18.8). Reset: 0. -/
  fatalStatus : Status := 0
  /-- time the dump header was written (R541, R554). Reset: none. -/
  dumpAt : Option Nat := none
  /-- package in its safe state (R533). Reset: no. -/
  pkgSafe : Bool := false
  /-- DEV_START_COMPLETE waiting for ready: its pigeonholes (R551). Reset: none. -/
  startWaiters : List Nat := []
  /-- last start's steps passed, 0 to 10 (Table 19.2). Reset: 0. -/
  step : Nat := 0
  /-- reset request of RST_CTL, FW_ACTIVATE or the button: SOFT_KIND and due time (R601, R592, R557). Reset: none. -/
  softDue : Option (Nat × Nat) := none
  /-- press of the service button not yet released: its time (R557). Reset: none. -/
  svcPressedAt : Option Nat := none
  /-- Roist image loaded at step 4 of the last start: 0 A, 1 B (R558). Reset: 0, A. -/
  image : Nat := 0
  /-- conditions found before the collector records, reported at step 6 (R637). Reset: none. -/
  deferredFaults : List Status := []
  deriving DecidableEq, Repr, Inhabited

/-- Power cap and clocks (R24 to R26, R563, R564, PD registers of Table 21.9). -/
structure Pwr where
  /-- PD_CAP SET_CAP_W, W (R563). Reset: 1,650. -/
  setCap : Nat := 1650
  /-- cap accepted and waiting for the next tick boundary (R563). Reset: none. -/
  nextCap : Option Nat := none
  /-- regulator actions in force: (unit, time the margin rose above the action level, if it has) (R564). Reset: none. -/
  regActions : List (Nat × Option Nat) := []
  /-- PD_POWER AVG_W, W (R564): the environment's power reading. Reset: 0. -/
  avgW : Nat := 0
  /-- PD_CAP SORT_MHZ, the sort clock in force (R24). Reset: 1,600. -/
  sortMhz : Nat := 1600
  /-- clock profile: SORT_MHZ set by DEV_SET_MODE (R24). Reset: 1,600. -/
  profileMhz : Nat := 1600
  /-- a new sort clock waiting for the next tick boundary (R25). Reset: none. -/
  nextMhz : Option Nat := none
  /-- ADMIT_FILL, 128 to 256 (R125). Reset: 224. -/
  admitFill : Nat := 224
  /-- PD_THROTTLE STEPS (R26). Reset: 0. -/
  throttleSteps : Nat := 0
  /-- time since which power has been below 97 % of the effective cap (R564). Reset: none. -/
  belowSince : Option Nat := none
  /-- RSTP_CAP_UNMET reported (R564). Reset: no. -/
  unmetReported : Bool := false
  /-- junction sensors read, degrees C: (24 die + sensor, reading) (R625); Tj is the hottest (R26). Reset: none read. -/
  junctions : List (Nat × Int) := []
  /-- VDD_CORE setpoint, mV (R617). Reset: 700, the setpoint of 1.6 GHz. -/
  coreMv : Nat := 700
  deriving DecidableEq, Repr, Inhabited

/-- Output pins (Table 19.4, R620). true is asserted for _N pins and high for the others. -/
structure Pins where
  /-- SAFE_N asserted (R534). Reset: asserted. -/
  safeN : Bool := true
  /-- ALERT_N asserted (R534). Reset: released. -/
  alertN : Bool := false
  /-- THERMTRIP_N asserted (R625). Reset: released. -/
  thermtripN : Bool := false
  /-- TICK_OUT level (R28). Reset: low. -/
  tickOut : Bool := false
  /-- time of the last rising edge of TICK_OUT (R28). Reset: 0. -/
  tickOutAt : Nat := 0
  /-- TICK_OUT has been enabled by DEV_SET_TICK (Table 19.4). Reset: no. -/
  tickOutLive : Bool := false
  /-- 1PPS_OUT driven (Table 19.4). Reset: low. -/
  ppsOut : Bool := false
  /-- 1PPS_IN: PTP time of the last rising edge, to 8 ns (R620). Reset: 0. -/
  ppsInAt : Nat := 0
  /-- PERST_N asserted, port by port (R548). Reset: released (DESIGN CHOICE, log entry 6). -/
  perst : List Bool := [false, false, false, false]
  /-- PCIe port trained (R18, R549). Reset: no port. -/
  trained : List Bool := [false, false, false, false]
  /-- MSI-X messages sent: (port, vector), newest last (R473, R576). Reset: none. -/
  msix : List (Nat × Nat) := []
  deriving DecidableEq, Repr, Inhabited

/-! ### The post tick (R27 to R31, Table 21.12) -/

/-- Time base of the package. -/
structure Clk where
  /-- PTP time of the device, ns (R27). Reset: 0 (DESIGN CHOICE, log entry 2). -/
  now : Nat := 0
  /-- TICK_NOW, u64 tick number (R27). Reset: 0. -/
  tick : Nat := 0
  /-- PTP time at which the current tick began, ns (R27). Reset: 0. -/
  tickStart : Nat := 0
  /-- TICK_PERIOD, 10 ns steps (R27). Reset: 100,000, 1 ms. -/
  period : Nat := 100000
  /-- TICK_PHASE, PTP ns (R27). Reset: 0. -/
  phase : Nat := 0
  /-- pending DEV_SET_TICK: effective tick, period, phase, primary, secondary (R29, TICK_PENDING). Reset: none. -/
  pending : Option (Nat × Nat × Nat × Nat × Nat) := none
  /-- primary PTP client port (R30). Reset: 0. -/
  primary : Nat := 0
  /-- secondary PTP client port, 0xFF none (R30). Reset: 0xFF (DESIGN CHOICE, log entry 6). -/
  secondary : Nat := 0xFF
  /-- TICK_STATUS SECONDARY: the secondary port is in use (R30). Reset: 0. -/
  onSecondary : Bool := false
  /-- switch to the other port due at the next boundary (R30). Reset: no. -/
  switchDue : Bool := false
  /-- PTP lock, port by port, 16 (R30). Reset: none locked. -/
  locked : List Bool := List.replicate 16 false
  /-- TICK_STATUS HOLDOVER (R31). Reset: 0. -/
  holdover : Bool := false
  /-- TICK_STATUS MASTER: die that is time master (R30). Reset: die 0. -/
  master : Nat := 0
  /-- TICK_OUT_CTL TICK_EN and PPS_EN (R607). Reset: 1 and 1. -/
  tickEn : Bool := true
  ppsEn : Bool := true
  /-- a TICK_OUT_CTL write waiting for the next boundary (R607). Reset: none. -/
  nextCtl : Option (Bool × Bool) := none
  /-- current tick of each die (R27, R632). Reset: 0. -/
  dieTick : List Nat := List.replicate 8 0
  deriving DecidableEq, Repr, Inhabited

/-! ### Faults (18) -/

/-- A fault record (Table 18.1). -/
structure FaultRec where
  seq : Nat
  time : Nat
  status : Status
  severity : Nat
  first : Bool
  injected : Bool
  fixed : Bool
  kind : Nat
  logical : BitVec 16
  physical : BitVec 16
  detail : BitVec 64
  deriving DecidableEq, Repr, Inhabited

/-- Die fault counters of Table 18.11. -/
structure FaultCtrs where
  /-- FAULTS_IGNORE to FAULTS_FATAL, by severity (R543). Reset: 0. -/
  bySeverity : List Nat := List.replicate 8 0
  /-- LOG_OVERWRITTEN (R526). Reset: 0. -/
  logOverwritten : Nat := 0
  /-- FENCE_DROPS (R528). Reset: 0. -/
  fenceDrops : Nat := 0
  /-- LEASES_BROKEN (R530). Reset: 0. -/
  leasesBroken : Nat := 0
  /-- WATCHDOG_EXPIRIES (R530). Reset: 0. -/
  watchdogExpiries : Nat := 0
  deriving DecidableEq, Repr, Inhabited

/-- A repair waiting for its tick boundary (Table 1.5). -/
structure Repair where
  /-- unit taken out of service, physical: an engine, core, cluster, channel sequencer or Postmaster core -/
  who : UnitRef
  /-- logical number, or engine slot, that the spare takes over -/
  number : Nat
  /-- earliest PTP time, ns, of the tick boundary that maps the spare -/
  due : Nat
  /-- time of the fault report -/
  at_ : Nat
  deriving DecidableEq, Repr, Inhabited

/-- Fault collector of one die (R521 to R534, Tables 21.10 and 21.11). -/
structure Collector where
  /-- FC_SEQ_NEXT, u64 (R521). Reset: 1. -/
  seqNext : Nat := 1
  /-- FC_ALERT_ACKED, u64 (R606). Reset: 0. -/
  alertAcked : Nat := 0
  /-- FC_FIRST (R524). Reset: 0, none held. -/
  first : Option FaultRec := none
  /-- FC_NEXT, 32 bits, saturating (R524). Reset: 0. -/
  next : BitVec 32 := 0
  /-- FC_STATUS SEVERITY_SEEN, 8 bits (R524). Reset: 0. -/
  seen : BitVec 8 := 0
  /-- FC_STATUS LOG_OVERWRITE (R526). Reset: 0. -/
  logOverwrite : Bool := false
  /-- FC_STATUS SELF_FAULT (R532). Reset: 0. -/
  selfFault : Bool := false
  /-- FC_LOG_BASE, 64 bits, placed by Roist at step 6 of start-up (R605, R636). Reset: 0 (DESIGN CHOICE, log entry 5). -/
  logBase : BitVec 64 := 0
  /-- fault-log ring in DRAM, oldest first, at most 65,536 (R526). Reset: empty. -/
  ring : List FaultRec := []
  /-- last 64 records in always-on SRAM (R526). Reset: empty. -/
  aon : List FaultRec := []
  /-- severities set by FLT_SET_SEVERITY: (status, kind, severity) (R522). Reset: none, the defaults hold. -/
  severities : List (Status × Nat × Nat) := []
  /-- FC_WATCHDOG: PTP time of the last KICK (R530). Reset: 0. -/
  lastKick : Nat := 0
  /-- faults recorded and not yet handled by Roist, in SEQ order (R37). Reset: empty. -/
  todo : List FaultRec := []
  /-- units fenced, physical (R528). Reset: none. -/
  fenced : List UnitRef := []
  /-- repairs in progress (R37, Table 1.5). Reset: none. -/
  repairs : List Repair := []
  /-- counters (R543). Reset: 0. -/
  ctrs : FaultCtrs := {}
  deriving DecidableEq, Repr, Inhabited

/-- A margin of Table 18.7 as last measured. -/
structure Margin where
  /-- row of Table 18.7, 0 FLT_MARGIN_VR to 5 FLT_MARGIN_TJ -/
  row : Nat
  unit : Nat
  value : Int
  warn : Int
  action : Int
  /-- warning and action levels reported and not yet re-armed -/
  warned : Bool := false
  acted : Bool := false
  /-- PTP times since which the margin has been above the warning and the action level (24 h re-arm, R540) -/
  warnClear : Option Nat := none
  actClear : Option Nat := none
  /-- PTP time of the last measurement -/
  at_ : Nat := 0
  deriving DecidableEq, Repr, Inhabited

/-! ### Registers of one die (21) -/

/-- FLIP block (Table 21.16). -/
structure Flip where
  /-- FLIP_TARGET, 32 bits: KIND [0], UNIT [19:4] (R613). Reset: 0. -/
  target : BitVec 32 := 0
  /-- FLIP_ADDR, 64 bits. Reset: 0. -/
  addr : BitVec 64 := 0
  /-- FLIP_LEN, 32 bits. Reset: 0. -/
  len : BitVec 32 := 0
  /-- FLIP_DATA, 4 × 64 bits. Reset: 0. -/
  data : List (BitVec 64) := [0, 0, 0, 0]
  /-- FLIP_CHECK, 40 bits. Reset: 0. -/
  check : BitVec 40 := 0
  /-- FLIP_COUNT, 8 bits. Reset: 1. -/
  count : BitVec 8 := 1
  /-- FLIP_STATUS ARMED. Reset: 0. -/
  armed : Bool := false
  /-- FLIP_STATUS REMAINING, 8 bits. Reset: 0. -/
  remaining : BitVec 8 := 0
  /-- FLIP_STATUS STATUS, 16 bits. Reset: 0. -/
  status : Status := 0
  deriving DecidableEq, Repr, Inhabited

/-- A scrubber: its memory, next address, the start of its lap, the time of its last read, and the last whole lap, ns (R507, R509). -/
structure Lap where
  dram : Bool
  memory : Nat
  next : Nat := 0
  start : Nat
  readAt : Nat
  last : Nat := 0
  deriving DecidableEq, Repr, Inhabited

/-- SCB block (Table 21.15). -/
structure Scb where
  /-- SCB_CTL SRAM_EN and DRAM_EN (R508). Reset: 1 and 1. -/
  sramEn : Bool := true
  dramEn : Bool := true
  /-- SCB_SRAM_INTERVAL, 16 bits (R612). Reset: 256. -/
  sramInterval : BitVec 16 := 256
  /-- SCB_DRAM_INTERVAL, 16 bits (R612). Reset: 8. -/
  dramInterval : BitVec 16 := 8
  /-- SCB_LAST_ROUND SRAM_US and DRAM_MS, 32 bits each (R509). Reset: 0. -/
  lastSramUs : BitVec 32 := 0
  lastDramMs : BitVec 32 := 0
  /-- SCB_ROUND_WARN SRAM_US and DRAM_MS, 32 bits each (R509). Reset: 1,000,000 and 3,600,000. -/
  warnSramUs : BitVec 32 := 1000000
  warnDramMs : BitVec 32 := 3600000
  /-- scrubbers that have begun (R507). Reset: none. -/
  laps : List Lap := []
  /-- rows with a corrected error in an earlier round: (memory, row, round start) (R506). Reset: none. -/
  suspect : List (Nat × Nat × Nat) := []
  /-- redundancy rows used: (memory, row) (R506). Reset: none. -/
  repaired : List (Nat × Nat) := []
  /-- rows waiting for their macro's idle pass (R506). Reset: none. -/
  toRepair : List (Nat × Nat) := []
  /-- errors placed by the flip mask: (DRAM, memory, address, bits flipped) (R510, R512). Reset: none. -/
  planted : List (Bool × Nat × Nat × Nat) := []
  deriving DecidableEq, Repr, Inhabited

/-- One management bus (Table 21.13). -/
structure Mbus where
  /-- MBUS_CTL ENABLE (R608). Reset: 1. -/
  enable : Bool := true
  /-- MBUS_CTL SPEED, 2 bits. Reset: 1. -/
  speed : BitVec 2 := 1
  /-- MBUS_CTL ISOLATE. Reset: 0. -/
  isolate : Bool := false
  /-- MBUS_CTL RETRIES, 3 bits. Reset: 3. -/
  retries : BitVec 3 := 3
  /-- MBUS_CTL AUTO_ISOLATE. Reset: 1. -/
  autoIsolate : Bool := true
  /-- MBUS_STATUS BUSY with a clear. Reset: 0. -/
  busy : Bool := false
  /-- MBUS_STATUS STUCK. Reset: 0. -/
  stuck : Bool := false
  /-- switch opened by AUTO_ISOLATE (MBUS_STATUS ISOLATED with isolate). Reset: 0. -/
  autoIsolated : Bool := false
  /-- MBUS_STATUS ATTEMPTS, 3 bits. Reset: 0. -/
  attempts : BitVec 3 := 0
  /-- live SDA and SCL as the last event showed them (R608). Reset: high (DESIGN CHOICE, log entry 6). -/
  sda : Bool := true
  scl : Bool := true
  /-- MBUS_CLEARS, 32 bits (R608). Reset: 0. -/
  clears : BitVec 32 := 0
  /-- MBUS_NAKS, 32 bits (R608). Reset: 0. -/
  naks : BitVec 32 := 0
  /-- retries made by Roist while isolated, 0 to 10 (R628). Reset: 0. -/
  isolateTries : Nat := 0
  /-- PTP time at which the switch was opened, or last tried again (R628). Reset: 0. -/
  isolatedAt : Nat := 0
  /-- a clear is due before the next transfer (R609, R626). Reset: yes, after every start. -/
  clearDue : Bool := true
  deriving DecidableEq, Repr, Inhabited

/-- One franking unit (Table 21.17). -/
structure Frk where
  /-- FRK_LIST ADDR, 64 bits (R614). Reset: 0. -/
  list : BitVec 64 := 0
  /-- FRK_EXPECT VALUE, 32 bits. Reset: 0. -/
  expect : BitVec 32 := 0
  /-- FRK_CTL COMPARE. Reset: 0. -/
  compare : Bool := false
  /-- FRK_STATUS STATE: 0 idle, 1 running, 2 done, 3 error. Reset: 0. -/
  state : BitVec 2 := 0
  /-- FRK_STATUS MATCH. Reset: 0. -/
  matched : Bool := false
  /-- FRK_STATUS SAVED (R514). Reset: 0. -/
  saved : Bool := false
  /-- FRK_STATUS ERROR, 16 bits. Reset: 0. -/
  error : Status := 0
  /-- FRK_RESULT CRC, 32 bits. Reset: 0. -/
  result : BitVec 32 := 0
  /-- FRK_CONTEXT, 4 × 64 bits (R514). Reset: 0. -/
  context : List (BitVec 64) := [0, 0, 0, 0]
  /-- work in progress: its list address, and the value it compares with when COMPARE was set at START (R599). Reset: none. -/
  work : Option (BitVec 64 × Option (BitVec 32)) := none
  deriving DecidableEq, Repr, Inhabited

/-- The FUSE map of one die (Table 21.8). -/
structure Fuse where
  /-- STEPPING, 8 bits (R603). Reset: 1 (DESIGN CHOICE, log entry 7). -/
  stepping : BitVec 8 := 1
  /-- FUSE_PINS, 22 bits: FUSE_BOARD_DOWN, polarities, SPI mode, UART rate. Reset: 0 (DESIGN CHOICE, log entry 7). -/
  pins : BitVec 22 := 0
  /-- FUSE_NAND_REPAIR SEQ_A and SEQ_B, 5 bits each. Reset: 0x1F, no repair. -/
  seqA : BitVec 5 := 0x1F
  seqB : BitVec 5 := 0x1F
  /-- FUSE_CLUSTER_REPAIR CORE and CLUSTER_OUT of clusters 0 to 8. Reset: 0xF and 0, no repair. -/
  clusters : List (BitVec 4 × Bool) := List.replicate 9 (0xF, false)
  /-- FUSE_ENGINE_REPAIR CDE and VTE of core k of cluster c at 9 c + k. Reset: 0, no repair. -/
  engines : List (BitVec 2 × BitVec 2) := List.replicate 81 (0, 0)
  deriving DecidableEq, Repr, Inhabited

/-! ### Cores (R13, 04, 13) -/

/-- One word of core scratch that differs from 0 and empty (R373). -/
structure Word64 where
  addr : Nat
  value : BitVec 64
  full : Bool
  deriving DecidableEq, Repr, Inhabited

/-- A conditional access waiting for its word (R377). -/
inductive Access where
  | take | peek | fill (value : BitVec 64) | explicit
  deriving DecidableEq, Repr, Inhabited

/-- A watch slot (R379), or a waiter without one (R377). -/
structure Watch where
  addr : Nat
  awaitFull : Bool
  waiter : Issuer
  tag : BitVec 16
  access : Access
  /-- times woken and then overtaken on this word (R380) -/
  overtaken : Nat := 0
  /-- wake sent, retry not yet made (R380) -/
  woken : Bool := false
  deriving DecidableEq, Repr, Inhabited

/-- A stage held by an engine (R120). -/
structure Busy where
  /-- engine slot code of Table 18.1 (9 is the route sequencer) -/
  slot : Nat
  item : ItemRef
  stage : Nat
  since : Nat
  deriving DecidableEq, Repr, Inhabited

/-- A PLACE 0 buffer in core scratch: item, buffer number, first word and words (R113, R119, R373). -/
structure Place where
  item : ItemRef
  buf : Nat
  base : Nat
  words : Nat
  deriving DecidableEq, Repr, Inhabited

/-- One physical core's run-time state. -/
structure Core where
  /-- sack of the running tick, in sack order, items not yet started (R119). Reset: empty. -/
  sack : List ItemRef := []
  /-- sack formed for the next tick (R126, R130). Reset: empty. -/
  nextSack : List ItemRef := []
  /-- items in flight, in sack order, at most 64 (R119). Reset: none. -/
  flight : List ItemRef := []
  /-- engines holding stages (R120). Reset: none. -/
  busy : List Busy := []
  /-- budget left per kind CDE, IDE, VTE, TXE, PKE, SEQ in the forming tick, ns (R125). Reset: 0. -/
  budget : List Nat := [0, 0, 0, 0, 0, 0]
  /-- long item the core is kept for (R128). Reset: none. -/
  long : Option ItemRef := none
  /-- core scratch words, sorted by address, those not 0 and empty (R373). Reset: every word empty. -/
  scratch : List Word64 := []
  /-- watch slots in order of registration, at most 256 (R379). Reset: none. -/
  watches : List Watch := []
  /-- waiters that found no free slot (R377). Reset: none. -/
  slotless : List Watch := []
  /-- wake messages sent: waiter, tag, word address (R380). Reset: none. -/
  wakes : List (Issuer × BitVec 16 × Nat) := []
  /-- value each issuer's last load returned (R374). Reset: none. -/
  loaded : List (Issuer × BitVec 64) := []
  /-- PLACE 0 buffers reserved (R119). Reset: none. -/
  places : List Place := []
  /-- WATCH_SLOT_WAITS (R377). Reset: 0. -/
  slotWaits : Nat := 0
  /-- engine slots in service with a spare: (spare slot code, slot it replaces) (R35, Table 1.5). Reset: none. -/
  spareEngines : List (Nat × Nat) := []
  /-- engine slots out of service (R35). Reset: none. -/
  deadEngines : List Nat := []
  deriving DecidableEq, Repr, Inhabited

/-- A free buffer of the pool: its index within its class and the GEN its descriptor holds. -/
structure FreeBuf where
  index : Nat
  gen : Nat
  deriving DecidableEq, Repr, Inhabited

/-- One cluster (R11, R15, R495). -/
structure Cluster where
  /-- physical core mapped as each logical core 0 to 7 (R11); 0xF none. Reset: n is n. -/
  map : List Nat := [0, 1, 2, 3, 4, 5, 6, 7]
  /-- physical cores 0 to 8. Reset: as a reset core. -/
  cores : List Core := List.replicate 9 {}
  /-- core spare already in service (R35). Reset: no. -/
  spareUsed : Bool := false
  /-- franking units 0 and 1 (R513). Reset: as Table 21.17. -/
  frk : List Frk := [{}, {}]
  /-- free buffers of the die's own stack in the buffer-pool cache, by class (R495). Reset: none. -/
  cache : List (List FreeBuf) := [[], [], [], []]
  deriving DecidableEq, Repr, Inhabited

/-! ### Courier (11) -/

/-- What a work request carries to its user. -/
inductive Purpose where
  | parcelData (job rank step : Nat)
  | parcelFlag (job rank step : Nat)
  | streamBody (stream seq : Nat)
  | streamHeader (stream seq : Nat)
  | fetchRequest (die : Nat)
  | fetchReply (request : Nat)
  | readStored (item : ItemRef) (handle : Nat)
  | barrier (job peer : Nat)
  | settle (item : Option ItemRef)
  deriving DecidableEq, Repr, Inhabited

/-- The operation of a work request (Table 11.1). -/
inductive WrOp where
  | write | writeImm | read | send
  deriving DecidableEq, Repr, Inhabited

/-- A work request of a send queue (R332, R344). -/
structure Wr where
  op : WrOp
  addr : Nat := 0
  rkey : Nat := 0
  imm : Nat := 0
  bytes : Bytes := []
  len : Nat := 0
  purpose : Purpose
  /-- wait list: (context index, COMPLETED target) (R344) -/
  waits : List (Nat × Nat) := []
  started : Bool := false
  firstPsn : Nat := 0
  lastPsn : Nat := 0
  /-- PTP time of first transmission (R335) -/
  txAt : Option Nat := none
  /-- bytes of a READ received so far -/
  got : Bytes := []
  deriving DecidableEq, Repr, Inhabited

/-- An inbound message past R347 and not finished: a checked WRITE or READ (R341, R348). -/
structure InMsg where
  write : Bool
  entry : Nat
  /-- next address, and bytes still to place or to send -/
  addr : Nat
  left : Nat
  /-- first PSN of the message -/
  psn : Nat
  cut : Bool := false
  deriving DecidableEq, Repr, Inhabited

/-- State of a connection context (Table 11.3). -/
inductive ConnState where
  | free | connected | error | disconnecting
  deriving DecidableEq, Repr, Inhabited

/-- A connection context (Table 11.3) with its queues. -/
structure Conn where
  state : ConnState := .connected
  /-- 0 RANK, 1 PEER, 2 CLIENT -/
  kind : Nat
  port : Nat
  ipv6 : Bool := false
  relaxed : Bool := false
  flagImm : Bool := false
  localQpn : Nat
  remoteQpn : Nat
  pmtu : Nat
  dataPrio : Nat
  respPrio : Nat
  dscp : Nat
  remoteIp : Bytes := []
  localIp : Bytes := []
  mac : Bytes := []
  udpSrc : Nat := 0
  vlan : Nat := 0
  pkey : Nat := 0xFFFF
  ackTimeout : Nat := 5
  retryCount : Nat := 7
  retriesLeft : Nat := 7
  readsOut : Nat := 0
  ord : Nat := 16
  ird : Nat := 16
  nextPsn : Nat
  unaPsn : Nat
  expPsn : Nat
  /-- PSN after the last one ever sent: a packet below it is sent again (R352) -/
  sentPsn : Nat
  /-- group primary, by QPN -/
  groupPrimary : Option Nat := none
  cwnd : Nat
  windowMax : Nat
  acc : Nat := 0
  lastCut : Option Nat := none
  lastCnpTx : Option Nat := none
  deadline : Nat := 0
  firstTx : Nat := 0
  completed : Nat := 0
  /-- owner tag: 0 HOST, else a job handle + 1 (R330) -/
  owner : Nat := 0
  bytesTx : Nat := 0
  bytesRx : Nat := 0
  retransmits : Nat := 0
  cnpRx : Nat := 0
  cnpTx : Nat := 0
  keyRefused : Nat := 0
  failStatus : Status := 0
  /-- send queue in order (R332) -/
  queue : List Wr := []
  /-- bytes sent and not acknowledged, READ lengths included (R339) -/
  outstanding : Nat := 0
  /-- RNR NAKs without progress (R334) -/
  rnrCount : Nat := 0
  /-- end of an RNR wait (R334) -/
  rnrUntil : Option Nat := none
  /-- packets received and not acknowledged: count and time of the oldest (R333) -/
  unacked : Nat := 0
  unackedSince : Nat := 0
  /-- a gap has been NAKed since the last expected packet (R333) -/
  gapNaked : Bool := false
  /-- replay record of the last 16 atomics: (PSN, original value) (R350) -/
  atomics : List (Nat × BitVec 64) := []
  /-- messages past R347 and not finished (R348) -/
  inbound : List InMsg := []
  /-- CUR_DISCONNECT with DRAIN waits: its pigeonhole (R351) -/
  drain : Option Nat := none
  /-- time of installation order (R343) -/
  order : Nat := 0
  deriving DecidableEq, Repr, Inhabited

/-- Scope of a region (R345). -/
inductive Scope where
  | conn (qpn : Nat) | owner (tag : Nat) | anyConn
  deriving DecidableEq, Repr, Inhabited

/-- A region entry in use (R345). -/
structure Region where
  die : Nat
  entry : Nat
  gen : Nat
  base : Nat
  len : Nat
  read : Bool
  write : Bool
  atomic : Bool
  scope : Scope
  owner : Nat := 0
  /-- revocation under way: time it began, and the pigeonhole waiting (R348) -/
  revoking : Option (Nat × Option Nat) := none
  /-- staging handle whose lease the region serves (R98) -/
  staging : Option Nat := none
  deriving DecidableEq, Repr, Inhabited

/-- Courier counters of one die (Table 11.6). -/
structure CurCtrs where
  /-- counters of Table 11.6 kept per die (R352). Reset: 0. -/
  timeouts : Nat := 0
  windowCuts : Nat := 0
  keyRefusedGen : Nat := 0
  dupRequests : Nat := 0
  connFailed : Nat := 0
  ctxMisses : Nat := 0
  unknownQp : Nat := 0
  badIcrc : Nat := 0
  badPkey : Nat := 0
  /-- sums of connections since freed: RETRANSMITS, CNP_RX, CNP_TX, KEY_REFUSED (R352). Reset: 0. -/
  goneRetransmits : Nat := 0
  goneCnpRx : Nat := 0
  goneCnpTx : Nat := 0
  goneKeyRefused : Nat := 0
  deriving DecidableEq, Repr, Inhabited

/-- A message leaving the courier as responder, or a CNP, in the CONTROL class (R354). -/
inductive Ctl where
  | ack (qpn psn : Nat)
  | nakSequence (qpn psn : Nat)
  | nakRemoteAccess (qpn psn : Nat)
  | nakInvalid (qpn psn : Nat)
  | cnp (qpn : Nat)
  | readResp (qpn psn : Nat) (entry addr len : Nat) (last : Bool)
  | atomicResp (qpn psn : Nat) (value : BitVec 64)
  deriving DecidableEq, Repr, Inhabited

/-! ### Dispatch (12) -/

/-- A packet waiting in a dispatch queue (R354, R362). -/
structure Pkt where
  qpn : Nat
  psn : Nat
  /-- frame bytes from the destination MAC through the FCS (R356) -/
  len : Nat
  cls : Nat
  prio : Nat
  /-- bytes it makes outstanding: payload, or a READ's requested length (R339) -/
  window : Nat := 0
  /-- payload bytes -/
  payload : Nat := 0
  ctl : Option Ctl := none
  /-- has been deferred once by the gate schedule (R364) -/
  waited : Bool := false
  deriving DecidableEq, Repr, Inhabited

/-- The place of a node in the hierarchy (R357, Table 12.2). -/
inductive NodeKey where
  | port | job (job : Nat) | rank (job rank : Nat) | fetch | stream
  deriving DecidableEq, Repr, Inhabited

/-- A dispatch node (R357 to R360). -/
structure Node where
  key : NodeKey
  weight : Nat := 1
  /-- Mb/s, 0 unshaped -/
  rate : Nat := 0
  burst : Nat := 1048576
  deficit : Int := 0
  granted : Bool := false
  /-- token bucket in units of 2^-16 B, and the time it was last refilled (R360) -/
  bucket : Int := 1048576 * 65536
  refilled : Nat := 0
  /-- cursor of the node's own ring (R359) -/
  cursor : Nat := 0
  queue : List Pkt := []
  /-- WEIGHT, RATE, BURST accepted and waiting for the next tick boundary (R358) -/
  next : Option (Nat × Nat × Nat) := none
  txCounted : Nat := 0
  shaperHolds : Nat := 0
  deriving DecidableEq, Repr, Inhabited

/-- A gate schedule: (OFFSET in 10 ns steps, MASK) (R363). -/
abbrev Gates := List (Nat × Nat)

/-- A frame held in an ingress buffer (R369). -/
structure InFrame where
  qpn : Nat
  psn : Nat
  len : Nat
  prio : Nat
  ce : Bool
  deriving DecidableEq, Repr, Inhabited

/-- A frame a port has sent: connection, PSN, class, PCP, CONTROL content and payload bytes (R327, R359). -/
structure OutFrame where
  qpn : Nat
  psn : Nat
  cls : Nat
  prio : Nat
  ctl : Option Ctl
  payload : Bytes
  deriving DecidableEq, Repr, Inhabited

/-- Dispatch state of one Ethernet port (12). -/
structure EthPort where
  /-- OVERHEAD, −32 to 127 (R356). Reset: 20. -/
  overhead : Int := 20
  /-- HEADROOM (Table 12.2). Reset: 262,144. -/
  headroom : Nat := 262144
  /-- OVERHEAD and HEADROOM waiting for the next boundary (R358). Reset: none. -/
  nextPort : Option (Int × Nat) := none
  /-- nodes in creation order, the port node first (R357). Reset: port, FETCH and STREAM nodes. -/
  nodes : List Node := [{ key := .port }, { key := .fetch, weight := 16 }, { key := .stream }]
  /-- CONTROL queue (R354). Reset: empty. -/
  control : List Pkt := []
  /-- gate schedule in force (R363). Reset: one entry, MASK 0b11. -/
  gates : Gates := [(0, 3)]
  /-- schedule waiting: EFFECTIVE_TICK and entries (R363). Reset: none. -/
  nextGates : Option (Nat × Gates) := none
  /-- gate mask open now (R363). Reset: 0b11. -/
  open_ : Nat := 3
  /-- PTP time at which the frame being sent ends (R364). Reset: 0. -/
  txUntil : Nat := 0
  /-- priorities paused by the link partner: end of the pause time (R338). Reset: none. -/
  paused : List (Option Nat) := List.replicate 8 none
  /-- ingress frames on DATA_PRIO held (R369). Reset: none. -/
  ingress : List InFrame := []
  /-- priorities for which XOFF is in force (R369). Reset: none. -/
  xoff : List Bool := List.replicate 8 false
  /-- frames handed to the wire, newest last (R359). Reset: none. -/
  wire : List OutFrame := []
  /-- TX_COUNTED by class (R371). Reset: 0. -/
  txByClass : List Nat := [0, 0, 0, 0]
  /-- GATE_WAITS (R364). Reset: 0. -/
  gateWaits : Nat := 0
  /-- PAUSE_RX and XOFF_TX by priority (R371). Reset: 0. -/
  pauseRx : List Nat := List.replicate 8 0
  xoffTx : List Nat := List.replicate 8 0
  /-- spare SerDes slice in service (Table 1.5). Reset: no. -/
  sliceUsed : Bool := false
  deriving DecidableEq, Repr, Inhabited

/-- A meter in use (R366). -/
structure Meter where
  number : Nat
  /-- bound to a connection by QPN, or to (port, priority) -/
  byConn : Bool
  qpn : Nat := 0
  port : Nat := 0
  prio : Nat := 0
  cir : Nat
  pir : Nat
  cbs : Nat
  pbs : Nat
  yellowMarks : Bool
  redMarks : Bool
  /-- Tc and Tp in units of 2^-16 B, and the time of the last refill (R367) -/
  tc : Nat
  tp : Nat
  refilled : Nat
  green : Nat := 0
  yellow : Nat := 0
  red : Nat := 0
  dropped : Nat := 0
  deriving DecidableEq, Repr, Inhabited

/-! ### Buffer pools (17) -/

/-- What a pooled buffer is for: the holder that is granted it and gives it back. -/
inductive Use where
  /-- stored bytes of an item (R115, R499) -/
  | stored (i : ItemRef)
  /-- PLACE 1 buffer n of an item's path (R113, R119) -/
  | item (i : ItemRef) (n : Nat)
  /-- parcel buffer and staging area of a batch (R299) -/
  | parcel (job rank step : Nat)
  /-- a fetched sample staged at the home node, by staging handle (R97, R98) -/
  | staging (handle : Nat)
  deriving DecidableEq, Repr, Inhabited

/-- A buffer held (R492, R493, R499). -/
structure Buf where
  /-- handle, u64 (Table 17.2) -/
  handle : BitVec 64
  /-- requester charged: 0 STAGING, 1 LETTERBOX, 2 STREAM, 3 STORE (Table 17.4), 4 + job handle a job -/
  requester : Nat
  /-- unit named to free it (Table 17.3) -/
  lastOwner : UnitRef
  holds : Nat := 1
  /-- STATE 2: free pending -/
  pending : Bool := false
  use : Use
  deriving DecidableEq, Repr, Inhabited

/-- An allocation that waits (R497): every buffer it needs, with its use and size. -/
structure BufWait where
  requester : Nat
  parts : List (Use × Nat)
  /-- physical cluster whose cache serves it (R495); none for a die-level unit -/
  cluster : Option Nat
  owner : UnitRef
  deriving DecidableEq, Repr, Inhabited

/-- Pool state of one stack (R490 to R498). -/
structure Pool where
  /-- POOL_BYTES of the stack, what Roist's reservations leave (R490, R636). Reset: 0 until step 6 of start-up. -/
  bytes : Nat := 0
  /-- buffers held (R499). Reset: none. -/
  bufs : List Buf := []
  /-- allocations waiting, in arrival order (R497). Reset: none. -/
  waits : List BufWait := []
  /-- free ring of each class: indices never taken start here, at GEN 0 (R493, R494). Reset: 0. -/
  fresh : List Nat := [0, 0, 0, 0]
  /-- and returned buffers follow them, in the order they came back (R494). Reset: none. -/
  returned : List (List FreeBuf) := [[], [], [], []]
  deriving DecidableEq, Repr, Inhabited

/-- Pool and integrity counters of one die (Table 17.11). -/
structure IntCtrs where
  /-- BUF_WAITS, BUF_REFUSED, BUF_REPOSSESSED (R519). Reset: 0. -/
  bufWaits : Nat := 0
  bufRefused : Nat := 0
  bufRepossessed : Nat := 0
  /-- SRAM and DRAM corrected and uncorrected (R519). Reset: 0. -/
  sramCorrected : Nat := 0
  sramUncorrected : Nat := 0
  dramCorrected : Nat := 0
  dramUncorrected : Nat := 0
  /-- ROWS_REPAIRED, INT_INJECTED (R519). Reset: 0. -/
  rowsRepaired : Nat := 0
  injected : Nat := 0
  /-- FRK_HOST_IGNORED (R515, R519). Reset: 0. -/
  frkHostIgnored : Nat := 0
  /-- SETTLE_REPAIRED, SETTLE_BYTES, SETTLE_UNDECIDED (R518). Reset: 0. -/
  settleRepaired : Nat := 0
  settleBytes : Nat := 0
  settleUndecided : Nat := 0
  deriving DecidableEq, Repr, Inhabited

/-! ### Home node staging and fetch requests (03) -/

/-- An entry of a fetch request at the home node (Table 3.3). -/
structure FetchEntry where
  localOffset : Nat
  tag : Nat
  deriving DecidableEq, Repr, Inhabited

/-- A fetch request being staged at the home node (R97). -/
structure Staging where
  request : Nat
  qpn : Nat
  digest8 : Bytes
  segment : Nat
  entries : List FetchEntry
  deriving DecidableEq, Repr, Inhabited

/-- A staged sample with its lease (R98). -/
structure Lease where
  handle : Nat
  qpn : Nat
  die : Nat
  entry : Nat
  size : Nat
  ends : Nat
  deriving DecidableEq, Repr, Inhabited

/-- An entry reissued to a peer and waiting for a fetch request (R95, Table 3.5). -/
structure FetchWait where
  /-- connection of the peer -/
  qpn : Nat
  segment : Nat
  item : ItemRef
  since : Nat
  /-- sent to the ALTERNATE -/
  alt : Bool
  deriving DecidableEq, Repr, Inhabited

/-- An entry of a fetch request whose reply has not arrived (R95, R96). -/
structure FetchOut where
  qpn : Nat
  /-- number of the request: entries with one number travelled together -/
  request : Nat
  tag : Nat
  item : ItemRef
  deriving DecidableEq, Repr, Inhabited

/-- A staging handle read at a peer and not yet released (R100). -/
structure HandleBack where
  qpn : Nat
  handle : Nat
  since : Nat
  deriving DecidableEq, Repr, Inhabited

/-- Home-node and fetch state of one die (R95 to R100). -/
structure FetchDie where
  /-- reissued entries waiting for a fetch request (R95, Table 3.5). Reset: none. -/
  waiting : List FetchWait := []
  /-- entries of requests outstanding (R95). Reset: none. -/
  outstanding : List FetchOut := []
  /-- number of the next request, and TAG of the next entry. Reset: 0. -/
  nextRequest : Nat := 0
  nextTag : Nat := 0
  /-- staging handles read and not yet released (R100). Reset: none. -/
  releases : List HandleBack := []
  /-- rotation over (channel, NAND die, plane) buckets: last bucket served, as physical slot bits [31:19] (R94). Reset: none. -/
  lastBucket : Option Nat := none
  deriving DecidableEq, Repr, Inhabited

/-- Die counters kept by chapters 4, 8, 9, 13, 16 (R634). -/
structure DieCtrs where
  /-- START_WAITS, OVERRUN_TICKS, ENGINE_WATCHDOG (Table 4.12). Reset: 0. -/
  startWaits : Nat := 0
  overrunTicks : Nat := 0
  engineWatchdog : Nat := 0
  /-- Table 8.9 summed per die over closed streams; STREAM_FOREIGN (R278). Reset: 0. -/
  tokInvalidUnits : Nat := 0
  steps : Nat := 0
  lateMasks : Nat := 0
  deadEnds : Nat := 0
  rejectedCommits : Nat := 0
  streamOverflow : Nat := 0
  streamForeign : Nat := 0
  respRefused : Nat := 0
  streamMoves : Nat := 0
  /-- PARCEL_WAITS (R299). Reset: 0. -/
  parcelWaits : Nat := 0
  /-- BARRIER_BAD_MSG (R387). Reset: 0. -/
  barrierBadMsg : Nat := 0
  /-- media counters of Table 15.8 (R463). Reset: 0. -/
  retryReads : Nat := 0
  softReads : Nat := 0
  degradedReads : Nat := 0
  slcFullWaits : Nat := 0
  blocksRetired : Nat := 0
  standinTakeovers : Nat := 0
  /-- letterbox counters of Table 16.10 (R488). Reset: 0. -/
  lbxFetched : Nat := 0
  lbxReplays : Nat := 0
  lbxHeld : Nat := 0
  lbxFreezes : Nat := 0
  lbxCacheMisses : Nat := 0
  lbxDoorbellIgnored : Nat := 0
  lbxWritebackLost : Nat := 0
  deriving DecidableEq, Repr, Inhabited

/-- One sorting die (R16). -/
structure Die where
  /-- PD_STATUS ON, 15 bits by the DOMAIN numbering of PWR_DOMAIN_CTL (R604). Reset: 0x0001, AON. -/
  domains : BitVec 15 := 1
  /-- in its safe state (R531). Reset: no. -/
  safe : Bool := false
  /-- the safe state came from a FATAL report or a retirement (R547). Reset: no. -/
  noRestart : Bool := false
  /-- retired (R36). Reset: no. -/
  retired : Bool := false
  /-- came back by a DIE reset and serves no work yet (R547). Reset: no. -/
  idle : Bool := false
  /-- Postmaster core in service, 0 active or 1 spare; watchdog spare used (R530, Table 1.5). Reset: 0. -/
  postmaster : Nat := 0
  /-- UCIe link groups left, right, chord in service (R20, R21). Reset: all. -/
  links : List Bool := [true, true, true]
  /-- link groups to retire at the next boundary (R21). Reset: none. -/
  linksDying : List Nat := []
  /-- physical cluster mapped as each logical cluster 0 to 7 (R11); 0xF none. Reset: n is n. -/
  map : List Nat := [0, 1, 2, 3, 4, 5, 6, 7]
  /-- physical clusters 0 to 8. Reset: as a reset cluster. -/
  clusters : List Cluster := List.replicate 9 {}
  /-- cluster spare in service (R35). Reset: no. -/
  spareCluster : Bool := false
  /-- NAND channel sequencer spares in service (Table 1.5). Reset: 0. -/
  seqSpares : Nat := 0
  /-- improper host accesses (Table 21.6). Reset: 0. -/
  bad : BadRegs := {}
  /-- fault collector (R521). Reset: as Table 21.10. -/
  fc : Collector := {}
  /-- fuse map (R603). Reset: fuse. -/
  fuse : Fuse := {}
  /-- flip mask (R613). Reset: as Table 21.16. -/
  flip : Flip := {}
  /-- scrubbers (R612). Reset: as Table 21.15. -/
  scb : Scb := {}
  /-- management buses 0 to 3 (R608). Reset: as Table 21.13. -/
  mbus : List Mbus := [{}, {}, {}, {}]
  /-- connection contexts in use (R330). Reset: none. -/
  conns : List Conn := []
  /-- QPNs released less than 1 s ago, with the time (R329). Reset: none. -/
  freedQpns : List (Nat × Nat) := []
  /-- region entries in use (R345). Reset: none. -/
  regions : List Region := []
  /-- entries released, oldest first: (entry, next generation, time) (R349). Reset: none. -/
  freedEntries : List (Nat × Nat × Nat) := []
  /-- key values whose revocation completed within the last second: (ENTRY, GEN, time) (R349). Reset: none. -/
  goneKeys : List (Nat × Nat × Nat) := []
  /-- entries never used start here (R349). Reset: 0. -/
  nextEntry : Nat := 0
  /-- order number of the next CUR_CONNECT (R343). Reset: 0. -/
  connOrder : Nat := 0
  /-- contexts in the on-chip cache, most recent first, at most 4,096 (R331). Reset: none. -/
  ctxCache : List Nat := []
  /-- courier counters (R352). Reset: 0. -/
  cur : CurCtrs := {}
  /-- meters in use (R366). Reset: none. -/
  meters : List Meter := []
  /-- buffer pool of the die's stack (R490). Reset: empty. -/
  pool : Pool := {}
  /-- fetches and releases (R95). Reset: none. -/
  fetch : FetchDie := {}
  /-- items offered to neighbours, and the largest unused budget reported (R127). Reset: none. -/
  spill : List ItemRef := []
  unusedBudget : Nat := 0
  /-- ticks whose delivery, cutoff, formation and spill deadline have passed (R102, R103, R130). Reset: 0. -/
  lastDelivery : Nat := 0
  lastCutoff : Nat := 0
  lastFormation : Nat := 0
  lastSpill : Nat := 0
  /-- free reorder entries are 1,048,576 less the windows of the die's ranks; collection boxes in use (R86, R386). Reset: 0. -/
  boxesUsed : Nat := 0
  /-- counters of chapters 4, 8, 9, 13 to 16 (R634). Reset: 0. -/
  ctrs : DieCtrs := {}
  /-- counters of chapter 17 (R519). Reset: 0. -/
  integ : IntCtrs := {}
  /-- spare DQ lanes in service: (channel, lanes) (Table 1.5). Reset: none. -/
  dqSpares : List (Nat × Nat) := []
  /-- margins measured (R540). Reset: none. -/
  margins : List Margin := []
  deriving DecidableEq, Repr, Inhabited

/-! ### Datasets, routes, vocabularies, grammars, streams -/

/-- A manifest entry (Table 2.1). -/
structure Manifest where
  id : Nat
  storedLen : Nat
  origLen : Nat
  franking : Nat
  format : Nat
  label : Nat
  deriving DecidableEq, Repr, Inhabited

/-- A dataset slot in use (R38 to R43, R587). -/
structure Dataset where
  handle : Nat
  /-- segment the device holds, none for 0xFFFF_FFFF -/
  segment : Option Nat
  closed : Bool := false
  entries : List Manifest := []
  /-- franking values of the directory entries, which settlement may repair (R418, R517) -/
  dirFranking : List Nat := []
  /-- segment table: (COUNT, DIGEST) (Table 2.2) -/
  segs : List (Nat × Bytes) := []
  /-- manifest digest, 32 B -/
  digest : Bytes := []
  /-- segment digest at close -/
  segDigest : Bytes := []
  deriving DecidableEq, Repr, Inhabited

/-- A resident route (R118). -/
structure Route where
  digest : Bytes
  binary : Bytes
  deriving DecidableEq, Repr, Inhabited

/-- A resident vocabulary (R240, R242). -/
structure Vocab where
  slot : Nat
  digest : Bytes
  object : Nat
  image : Bytes
  deriving DecidableEq, Repr, Inhabited

/-- A resident grammar (R268). -/
structure Grammar where
  handle : Nat
  digest : Bytes
  object : Nat
  image : Bytes
  stepNs : Nat
  deriving DecidableEq, Repr, Inhabited

/-- A stream request header with its payload (Table 8.4). -/
structure StreamReq where
  op : Nat
  seq : Nat
  flags : Nat
  vocab : Nat
  rollback : Nat
  payload : Bytes
  at_ : Nat
  /-- arrived with no other request of its stream in the device (R276) -/
  alone : Bool := false
  deriving DecidableEq, Repr, Inhabited

/-- A grammar configuration: state and stack, top first (R269). -/
structure GConf where
  state : Nat
  stack : List Nat
  deriving DecidableEq, Repr, Inhabited

/-- An open stream (R258 to R276). -/
structure Stream where
  number : Nat
  kind : Nat
  grammar : Nat := 0
  qpn : Nat
  respAddr : Nat
  respKey : Nat
  slotSize : Nat
  bounded : Bool := false
  rate : Nat := 0
  bitmap : Bool := false
  stepNs : Nat := 0
  home : CoreRef
  /-- highest SEQ accepted, last SEQ completed and its response bytes (R260) -/
  lastAccepted : Nat := 0
  lastDone : Nat := 0
  lastResponse : Bytes := []
  /-- SEQ of a response under the bound of R276 and not yet sent, and the time it is late from -/
  due : Option (Nat × Nat) := none
  running : Option StreamReq := none
  waiting : Option StreamReq := none
  /-- tokenise context: bytes not yet settled, its slot and PARSE_SPECIAL (R254, R255) -/
  tokCtx : Bytes := []
  tokSlot : Nat := 0
  tokSpecial : Bool := false
  /-- detokenise context (R257) -/
  detCtx : Bytes := []
  /-- grammar configuration; history newest first: the configuration, dead end and end before a committed token, and the
  token's bytes (R270 to R274, R276) -/
  conf : GConf := { state := 0, stack := [] }
  history : List (GConf × Bool × Bool × Nat) := []
  dead : Bool := false
  finished : Bool := false
  committed : Nat := 0
  closing : Option Nat := none
  invalidUnits : Nat := 0
  steps : Nat := 0
  lateMasks : Nat := 0
  deadEnds : Nat := 0
  rejected : Nat := 0
  overflow : Nat := 0
  refused : Nat := 0
  moves : Nat := 0
  deriving DecidableEq, Repr, Inhabited

/-! ### Jobs (02, 03, 09, 10, 13) -/

/-- State of a window entry (R86). -/
inductive EntryState where
  | mapped | readIssued | stored | admitted | done | failed
  deriving DecidableEq, Repr, Inhabited

/-- Outcome an engine holds for its stage until STAGE_COMPLETE (R121). -/
inductive StageResult where
  | ok (out : Bytes)
  | err (status : Status) (detail : Nat) (crc : Option Nat)
  deriving DecidableEq, Repr, Inhabited

/-- A placed sub-array: tensor index, element bytes, scale bytes, shape padded (R283 to R285). -/
structure Placed where
  tensor : Nat
  elems : Bytes
  scales : Bytes
  padded : Bool
  deriving DecidableEq, Repr, Inhabited

/-- Remote-read progress of a position (R100, Table 3.5). -/
structure RemoteRead where
  /-- PTP time of the first request -/
  first : Nat := 0
  refusals : Nat := 0
  altTried : Bool := false
  handle : Nat := 0
  /-- region key and address of the staged bytes, and the READ posted -/
  rkey : Nat := 0
  addr : Nat := 0
  reading : Bool := false
  /-- a reply named the staged bytes -/
  staged : Bool := false
  /-- reissue due after SRT_HOME_BUSY (busy), or after a lost connection -/
  retryAt : Option Nat := none
  busy : Bool := false
  toAlternate : Bool := false
  deriving DecidableEq, Repr, Inhabited

/-- One entry of a rank's window: a position with its item (R86, R535). -/
structure Entry where
  q : Nat
  epoch : Nat
  index : Nat
  /-- step and slot the position fills now (R71, R103) -/
  step : Nat
  slot : Nat
  state : EntryState := .mapped
  /-- PTP time at which the window took the position (R95) -/
  mappedAt : Nat := 0
  status : Status := 0
  stamp : Nat := 0
  substituted : Bool := false
  /-- manifest fields (Table 2.1) -/
  storedLen : Nat := 0
  origLen : Nat := 0
  franking : Nat := 0
  format : Nat := 0
  label : Nat := 0
  /-- stored bytes and card in DRAM (R210) -/
  stored : Option Bytes := none
  card : Option Bytes := none
  remote : RemoteRead := {}
  /-- admitted once in this production: the item has begun (R535) -/
  begun : Bool := false
  /-- core that runs the item (R126) -/
  core : Option CoreRef := none
  started : Bool := false
  waitCounted : Bool := false
  stage : Nat := 0
  running : Bool := false
  result : Option StageResult := none
  /-- buffers written: (number, bytes) (R112) -/
  bufs : List (Nat × Bytes) := []
  placed : List Placed := []
  /-- staged token ids and COUNT of the record (R289) -/
  tokens : Option (Bytes × Nat × Nat) := none
  tokFlags : Nat := 0
  ran : List Nat := [0, 0, 0, 0, 0, 0]
  restarts : Nat := 0
  faultCaused : Bool := false
  runDependent : Bool := false
  injected : Bool := false
  /-- class 0x30 attempts: count, CRC of the first failure (R152, R153) -/
  rereads : Nat := 0
  firstCrc : Option Nat := none
  /-- the stage passed on the re-read bytes (R152) -/
  recovered : Bool := false
  /-- settlement: time of the second failure (R153), and already settled -/
  settling : Option Nat := none
  settled : Bool := false
  overrun : Bool := false
  deriving DecidableEq, Repr, Inhabited

/-- A parcel of a rank after release (R304 to R307). -/
structure Parcel where
  step : Nat
  bytes : Bytes
  crc : Nat
  /-- held in poste restante since (R304); none while with dispatch -/
  heldSince : Option Nat
  /-- its flagged final write has been acknowledged (R303) -/
  acked : Bool := false
  stamp : Nat
  slotsFailed : Nat
  runDep : Nat
  deriving DecidableEq, Repr, Inhabited

/-- Sorting office counters of Table 3.6. -/
structure SortCtrs where
  /-- SUBSTITUTIONS, SUB_STARVED, SLIPS, LONG_WALKS, REMOTE_RETRIES, ALTERNATE_FETCHES (R106). Reset: 0. -/
  substitutions : Nat := 0
  subStarved : Nat := 0
  slips : Nat := 0
  longWalks : Nat := 0
  remoteRetries : Nat := 0
  alternateFetches : Nat := 0
  deriving DecidableEq, Repr, Inhabited

/-- Parcel counters of Table 9.9 kept per rank. -/
structure ParcelCtrs where
  /-- PARCELS_RELEASED to CREDIT_IGNORED (R310). Reset: 0. -/
  released : Nat := 0
  delivered : Nat := 0
  slotsFailed : Nat := 0
  shapePadded : Nat := 0
  tokensDropped : Nat := 0
  seqTruncated : Nat := 0
  seqDropped : Nat := 0
  prHeld : Nat := 0
  prReturned : Nat := 0
  prExpired : Nat := 0
  creditIgnored : Nat := 0
  deriving DecidableEq, Repr, Inhabited

/-- A rank bound on the device (R49, R300, R589). -/
structure Rank where
  rank : Nat
  qpn : Nat
  remoteAddr : Nat
  rkey : Nat
  slotBytes : Nat
  depth : Nat
  prParcels : Nat
  port : Nat
  altPort : Nat
  regionLen : Nat
  /-- address and key of the credit word in DRAM (R302, R636) -/
  creditAddr : Nat
  creditKey : Nat
  /-- step number of the cursor (R56, R75) -/
  cursor : Nat := 0
  /-- step of the next parcel to release (R88) -/
  nextStep : Nat := 0
  /-- step of the next position to map, and its slot (R88) -/
  mapStep : Nat := 0
  mapSlot : Nat := 0
  windowSize : Nat := 0
  window : List Entry := []
  /-- parcels released and not acknowledged or held, in step order (R303, R304) -/
  parcels : List Parcel := []
  /-- credit value last taken (R302) -/
  credit : Nat := 0
  /-- region refused the previous write (R304) -/
  refused : Bool := false
  dormant : Bool := false
  /-- the last cutoff found no substitute: not released at the coming delivery tick (R105) -/
  starved : Bool := false
  /-- steps below this are in RELEASE_SUM (R322) -/
  releasedTo : Nat := 0
  /-- delivery has stopped for a seal (R58) -/
  stopped : Bool := false
  /-- arrived at the barrier in progress (R383) -/
  arrived : Bool := false
  /-- parcel buffer granted for steps below this (R299) -/
  bufferedTo : Nat := 0
  sort : SortCtrs := {}
  parcel : ParcelCtrs := {}
  /-- RUN_DEP_SLOTS, PARCEL_COUNT, PARCEL_SUM, RELEASE_SUM, PARCEL_STEP_LOW, PARCEL_STEP_HIGH (R322, R324) -/
  runDepSlots : Nat := 0
  parcelCount : Nat := 0
  parcelSum : BitVec 64 := 0
  releaseSum : BitVec 64 := 0
  stepLow : Option Nat := none
  stepHigh : Nat := 0
  deriving DecidableEq, Repr, Inhabited

/-- Job states (Table 2.4). -/
inductive JobState where
  | created | bound | running | sealing | sealed_ | lost
  deriving DecidableEq, Repr, Inhabited

/-- Configuration of a job that stamps version (R46, R134). -/
structure JobConf where
  routeDigest : Bytes := []
  /-- binary of the resident route with that digest (R118) -/
  route : Bytes := []
  cardObject : Nat := 0
  cardDigest : Bytes := []
  lookahead : Nat := 4
  deriving DecidableEq, Repr, Inhabited

/-- A configuration that an older stamp carries (R138, R140). -/
structure OldConf where
  stamp : Nat
  conf : JobConf
  /-- step below which it holds, and its rank by rank boundaries after a timed commit (R138) -/
  upTo : Nat
  rankUpTo : List (Nat × Nat) := []
  /-- its references are released: its last item is DONE or FAILED (R140) -/
  released : Bool := false
  deriving DecidableEq, Repr, Inhabited

/-- A staged configuration change (R134 to R139). -/
structure Staged where
  id : Nat
  mask : Nat
  conf : JobConf
  /-- units yet to report prepared (R136) -/
  waiting : List Nat
  /-- window sizes reserved for it by die (R107, R136) -/
  sizes : List (Nat × Nat) := []
  /-- pigeonhole of DEV_STAGE_CONFIG while it waits, and its time -/
  ph : Option Nat
  at_ : Nat
  /-- accepted commit: tick, cursor, pigeonhole (R137) -/
  commit : Option (Nat × Nat × Nat) := none
  deriving DecidableEq, Repr, Inhabited

/-- A seal in progress or done (R56 to R63). -/
structure Seal where
  nonce : Nat
  /-- STOP_CURSOR as given -/
  stop : Nat
  at_ : Nat
  /-- JOB_SEAL commands that wait: pigeonhole, and address and length of the RECORD host buffer -/
  waiters : List (Nat × Nat × Nat) := []
  bytes : Bytes := []
  deriving DecidableEq, Repr, Inhabited

/-- Inputs a device box has accepted from a child (R388). -/
structure Arrival where
  from_ : Nat
  /-- the message as accepted, TX_TIME zeroed (R395) -/
  body : Bytes
  count : Nat
  sumR : Nat
  sumR2 : Nat
  sealed_ : Nat
  txTime : Nat
  rxTime : Nat
  deriving DecidableEq, Repr, Inhabited

/-- The collection boxes of a job on the device (R383 to R397). -/
structure Barrier where
  /-- boxes held on their die (R386) -/
  boxes : Nat := 0
  die : Nat := 0
  /-- barrier the box holds: 0 start, e + 1 end of epoch e -/
  number : Nat := 0
  opened : Bool := false
  arrivals : List Arrival := []
  /-- messages that arrived before their barrier opened -/
  early : List Arrival := []
  /-- messages accepted for this barrier and for the one before, TX_TIME zeroed (R395) -/
  accepted : List Bytes := []
  before : List Bytes := []
  /-- own ranks counted as sealed arrivals (R396) -/
  sealedOwn : Nat := 0
  /-- ARRIVE sent to the parent, or the root's inputs complete, at -/
  sentAt : Option Nat := none
  lastUp : Bytes := []
  lastDown : List (Nat × Bytes) := []
  /-- RELEASE accepted: PTP time from which the barrier takes effect here -/
  release : Option Nat := none
  /-- an ABORT has been sent upward, or acted on -/
  aborted : Bool := false
  held : Bool := false
  /-- last offset measured on the parent's edge, ns (R393) -/
  offset : Int := 0
  recordCrc : Nat := 0
  /-- pigeonhole of JOB_START or JOB_RESUME, and its time -/
  ph : Option Nat := none
  begun : Nat := 0
  deriving DecidableEq, Repr, Inhabited

/-- A dead-letter entry (Table 18.6). -/
structure DeadLetter where
  seq : Nat
  q : Nat
  index : Nat
  epoch : Nat
  rank : Nat
  slot : Nat
  stamp : Nat
  status : Status
  flags : Nat
  stage : Nat
  restarts : Nat
  logical : BitVec 16
  physical : BitVec 16
  detail : Nat
  time : Nat
  deriving DecidableEq, Repr, Inhabited

/-- Job counters not kept per rank. -/
structure JobCtrs where
  /-- ADMITTED, SPILLED, OVERRUN_ITEMS, LONG_ITEMS, RESTARTS (R141). Reset: 0. -/
  admitted : Nat := 0
  spilled : Nat := 0
  overrunItems : Nat := 0
  longItems : Nat := 0
  restarts : Nat := 0
  /-- REREADS, REREAD_RECOVERED, FRANK_SETTLED (R164). Reset: 0. -/
  rereads : Nat := 0
  rereadRecovered : Nat := 0
  frankSettled : Nat := 0
  /-- CONV_SATURATED, CONV_NAN, CONV_OVERFLOW_INF, CARD_READS (R238). Reset: 0. -/
  convSaturated : Nat := 0
  convNan : Nat := 0
  convOverflowInf : Nat := 0
  cardReads : Nat := 0
  /-- TOK_BYTES, TOK_INVALID_UNITS, TOK_INVALID_ITEMS, TOK_TRUNCATED (R278). Reset: 0. -/
  tokBytes : Nat := 0
  tokInvalidUnits : Nat := 0
  tokInvalidItems : Nat := 0
  tokTruncated : Nat := 0
  /-- TIMED_COMMITS (R319). Reset: 0. -/
  timedCommits : Nat := 0
  /-- BARRIER_WAITS, LATE_RELEASES, TIME_OFFSET_EVENTS, DUP_BARRIER (R398). Reset: 0. -/
  barrierWaits : Nat := 0
  lateReleases : Nat := 0
  timeOffsetEvents : Nat := 0
  dupBarrier : Nat := 0
  /-- BUF_WAITS of the job (R519). Reset: 0. -/
  bufWaits : Nat := 0
  /-- ITEMS_STARTED, ITEMS_DONE, ITEMS_FAILED, ITEMS_ABANDONED, ITEMS_IN_FLIGHT (R537). Reset: 0. -/
  itemsStarted : Nat := 0
  itemsDone : Nat := 0
  itemsFailed : Nat := 0
  itemsAbandoned : Nat := 0
  itemsInFlight : Nat := 0
  /-- DLL_OVERWRITTEN (R538). Reset: 0. -/
  dllOverwritten : Nat := 0
  /-- sum of SUBSTITUTIONS carried by the seal record (R106). Reset: 0. -/
  substitutionsBase : Nat := 0
  deriving DecidableEq, Repr, Inhabited

/-- A job slot in use (02). -/
structure Job where
  handle : Nat
  state : JobState := .created
  tag : Nat
  dataset : Nat
  express : Bool
  epochs : Nat
  seed : Nat
  w : Nat
  b : Nat
  tickMult : Nat
  prHold : Nat
  barrierTimeout : Nat
  bufReserve : Nat
  bufLimit : Nat
  /-- samples in the dataset, and its manifest digest (Table 2.3) -/
  n : Nat
  manifestDigest : Bytes
  /-- node map: (PRIMARY, ALTERNATE) (Table 3.1) and peer list of QPNs (R84) -/
  nodeMap : List (Nat × Nat)
  peers : List Nat
  stamp : Nat := 1
  conf : JobConf
  /-- older configurations, oldest first, until every rank's cursor has passed them (R138, R140) -/
  old : List OldConf := []
  staged : Option Staged := none
  lastStageStatus : Status := 0
  lastStageId : Nat := 0
  deviceIndex : Nat := 0
  deviceCount : Nat := 1
  parentPeer : Nat := 0xFFFFFFFF
  childPeers : List Nat := []
  ranks : List Rank := []
  barrier : Barrier := {}
  /-- t0: first tick after JOB_START or JOB_RESUME completed (R390) -/
  t0 : Nat := 0
  /-- epoch whose parcels may be released (R383) -/
  openEpoch : Nat := 0
  /-- first tick at which that epoch's parcels may be released (R390) -/
  openFrom : Nat := 0
  sealRec : Option Seal := none
  ctrs : JobCtrs := {}
  deadLetters : List DeadLetter := []
  deadSeq : Nat := 0
  /-- FLT_DEAD_LETTER_OVERWRITTEN reported for this epoch (R538) -/
  dlReported : Option Nat := none
  abortStatus : Status := 0
  abortOrigin : Nat := 0
  deriving DecidableEq, Repr, Inhabited

/-! ### Sample store and media (14, 15) -/

/-- An object version in effect (R400, Table 14.4). -/
structure Obj where
  id : Nat
  stored : Bytes
  origLen : Nat
  franking : Nat
  putSeq : Nat
  system : Bool := false
  /-- a seal record, the one system object host software reads (R401) -/
  isSeal : Bool := false
  direct : Bool := false
  pins : Nat := 0
  /-- in SLC cells: not yet folded -/
  inSlc : Bool := true
  /-- cell of page 0 and page within it -/
  firstCell : Nat := 0
  firstPage : Nat := 0
  deriving DecidableEq, Repr, Inhabited

/-- Journal records (Table 14.6). -/
inductive JRec where
  | commit (obj : Obj)
  | discard (id putSeq : Nat)
  | preDiscard (id putSeq : Nat)
  | pin (id pins : Nat) (unpin : Bool)
  | dset (dataset op segment directory count : Nat) (digest : Bytes)
  | streamCells (stream : Nat) (cells : List Nat)
  | secureBegin (id : Nat)
  | secureEnd (id : Nat)
  | foldRec (id putSeq firstCell firstPage : Nat)
  | cellMove (cell slot : Nat)
  | cellFree (cell slot : Nat)
  | ledger (putSeq slot : Nat) (dropped : Bool)
  | dirUpdate (directory page cell : Nat)
  | mediaState (block kind value : Nat)
  | checkpoint (root : Nat)
  | cleanLoss
  deriving DecidableEq, Repr, Inhabited

/-- A journal record with its SEQ (Table 14.5). -/
structure JEntry where
  seq : Nat
  what : JRec
  deriving DecidableEq, Repr, Inhabited

/-- State of a partition (R407, R408, R430, R431). -/
structure Partition where
  /-- die serving it (R407). Reset: p. -/
  die : Nat
  /-- ready to serve (R431). Reset: no, until PARTITION_READY. -/
  ready : Bool := false
  /-- served by no die (R408). Reset: no. -/
  unserved : Bool := false
  /-- journal sequence of the next record (Table 14.5). Reset: 1. -/
  seq : Nat := 1
  /-- sync buffer: records not yet programmed, oldest first (R422). Reset: empty. -/
  sync : List JEntry := []
  /-- PTP time of the sync page's first record (R422). Reset: none. -/
  syncSince : Option Nat := none
  /-- lazy buffer (R423). Reset: empty. -/
  lazy_ : List JEntry := []
  /-- records on media since the last checkpoint, in SEQ order (R424). Reset: empty. -/
  journal : List JEntry := []
  /-- bytes of journal since the last checkpoint, and its time (R424). Reset: 0. -/
  bytesSince : Nat := 0
  checkpointAt : Nat := 0
  /-- journal ends with CLEAN_LOSS (R430). Reset: yes (DESIGN CHOICE, log entry 8). -/
  clean : Bool := true
  /-- both copies unreadable: full rebuild at start (R431). Reset: no. -/
  broken : Bool := false
  /-- journal written in one copy (R407). Reset: no. -/
  single : Bool := false
  deriving DecidableEq, Repr, Inhabited

/-- State of a cell (R417). -/
inductive CellState where
  | free | open_ | full | parity | journal | retired
  deriving DecidableEq, Repr, Inhabited

/-- Pages of an object version that a cell holds: object pages first to first + count − 1, from page at of the cell (R413). -/
structure Hold where
  id : Nat
  putSeq : Nat
  first : Nat
  at_ : Nat
  count : Nat
  deriving DecidableEq, Repr, Inhabited

/-- An allocated cell with its map entry (R410, R417, R444). -/
structure Cell where
  number : Nat
  /-- physical slot (Table 15.1) -/
  slot : Nat
  next : Nat := 0xFFFFFFFF
  mirror : Nat := 0xFFFFFFFF
  validPages : Nat := 0
  state : CellState := .open_
  pinnedPages : Nat := 0
  /-- program time in s and temperature (R444) -/
  programmedAt : Nat := 0
  temp : Int := 25
  /-- object pages held, live or stale (R411) -/
  holds : List Hold := []
  /-- refresh due by (R445) -/
  refreshBy : Option Nat := none
  /-- last patrol read (R446) -/
  patrolledAt : Nat := 0
  deriving DecidableEq, Repr, Inhabited

/-- A block touched by wear, strength or failure (R443, R447 to R449): key is the physical slot with CELL 0. -/
structure Block where
  key : Nat
  erases : Nat := 0
  /-- cells written since the last erase: cells 0 to used − 1 (R441) -/
  used : Nat := 0
  strength : Nat := 0
  /-- a read reached step 3 since the last erase (R443) -/
  raise : Bool := false
  retired : Bool := false
  native : Bool := false
  deriving DecidableEq, Repr, Inhabited

/-- A member of a stripe group: LUN key, and its state (R452, R455). -/
structure Member where
  lun : Nat
  lost : Bool := false
  absentSince : Option Nat := none
  deriving DecidableEq, Repr, Inhabited

/-- A stripe group (R452). -/
structure Group where
  number : Nat
  members : List Member
  standin : Option Nat
  /-- cells of lost members not yet rebuilt: (place, cell) (R455) -/
  toRebuild : List (Nat × Nat) := []
  deriving DecidableEq, Repr, Inhabited

/-- A stripe: cells in member order (R453). -/
structure Stripe where
  group : Nat
  cells : List Nat
  /-- parity pages of parity members 0 to M − 1, page by page (R453) -/
  parity : List (List Bytes) := []
  deriving DecidableEq, Repr, Inhabited

/-- Prepare and admission state of a sled slot (R457 to R461). -/
inductive SledState where
  | empty | unpowered | admitting | inService | preparing | parked | failed
  deriving DecidableEq, Repr, Inhabited

/-- A sled slot. -/
structure Sled where
  /-- PRSNT_N low: a sled is in the slot (R461). Reset: present (DESIGN CHOICE, log entry 8). -/
  present : Bool := true
  state : SledState := .unpowered
  /-- label: (store identity, slot), none for a blank sled (R457). Reset: none (DESIGN CHOICE, log entry 8). -/
  label : Option (Nat × Nat) := none
  /-- LUN keys of the descriptor: LUNs per channel (R438). Reset: 1 (DESIGN CHOICE, log entry 8). -/
  lunsPerChannel : Nat := 1
  /-- blocks per plane and planes, cells per block (R440). Reset: 64, 1, 1 (DESIGN CHOICE, log entry 8). -/
  blocks : Nat := 64
  planes : Nat := 1
  cellsPerBlock : Nat := 1
  /-- rated endurance, erases (R448). Reset: 1,000 (DESIGN CHOICE, log entry 8). -/
  endurance : Nat := 1000
  /-- physical page main and spare bytes (R440). Reset: 16,384 and 2,048 (DESIGN CHOICE, log entry 8). -/
  pageMain : Nat := 16384
  pageSpare : Nat := 2048
  /-- sled temperature (R444). Reset: 25 (DESIGN CHOICE, log entry 8). -/
  temp : Int := 25
  /-- floor strengths for SLC and native blocks, retry depth (R443, R445). Reset: 0, 2 and 8. -/
  slcFloor : Nat := 0
  nativeFloor : Nat := 2
  retryDepth : Nat := 8
  /-- LEDs: power, fault, locate (R459). Reset: off (Table 19.4). -/
  ledPower : Nat := 0
  ledFault : Bool := false
  ledLocate : Bool := false
  /-- prepare: evacuate, since, pigeonhole waiting (R460). Reset: none. -/
  prepare : Option (Bool × Nat × Option Nat) := none
  /-- admission: MODE, ERASE, pigeonhole waiting (R457). Reset: none. -/
  admission : Option (Nat × Bool × Option Nat) := none
  /-- absent since (R455). Reset: none. -/
  absentSince : Option Nat := none
  /-- cells, as physical slots, to erase at rejoin: replaced members, secure discards (R458, R462). Reset: none. -/
  eraseOnRejoin : List Nat := []
  deriving DecidableEq, Repr, Inhabited

/-- What a NAND program writes: journal pages of a partition, both copies (R422); or the next page of a PUT, by queue and tag
(R412). -/
inductive ProgWork where
  | journal (partition : Nat) (recs : List JEntry)
  | page (queue tag : Nat)
  deriving DecidableEq, Repr, Inhabited

/-- A NAND program in flight (R422, R449). -/
structure Program where
  number : Nat
  work : ProgWork
  /-- block written, as a physical slot with CELL 0; none for journal cells -/
  block : Option Nat := none
  deriving DecidableEq, Repr, Inhabited

/-- A PUT writing its pages (R412, R426, R427). -/
structure PutRun where
  queue : Nat
  tag : Nat
  obj : Obj
  /-- pages programmed, and pages in all -/
  next : Nat := 0
  total : Nat
  /-- first page that waits for PRE_DISCARD, when the PUT needs one (R426) -/
  gate : Option Nat := none
  /-- PRE_DISCARD: not buffered, buffered, on media -/
  pre : Nat := 0
  /-- version that page by page direct mode overwrites (R427) -/
  old : Option Obj := none
  /-- write stream held: its die and number (R412) -/
  stream : Nat × Nat
  deriving DecidableEq, Repr, Inhabited

/-- A write stream of a die (R412, R447). -/
structure WStream where
  die : Nat
  number : Nat
  /-- cell being filled and its next page; none before the first -/
  cell : Option Nat := none
  page : Nat := 0
  /-- cells reserved by the last STREAM_CELLS record and not yet used (Table 14.6) -/
  reserved : List Nat := []
  /-- a PUT holds the stream until its last page is written -/
  busy : Bool := false
  deriving DecidableEq, Repr, Inhabited

/-- A pigeonhole command whose answer waits for journal records: (partition, SEQ) of each (R422). -/
structure JWait where
  hole : Nat
  status : Status
  detail : Nat
  body : Bytes
  left : List (Nat × Nat)
  deriving DecidableEq, Repr, Inhabited

/-- A settle reply whose repair awaits a journal record: the connection it leaves on, none for this device's own post office,
the message, and the record's (partition, SEQ) (R518). -/
structure SettleWait where
  qpn : Option Nat
  msg : Bytes
  left : Nat × Nat
  deriving DecidableEq, Repr, Inhabited

/-- A NAND read in flight (R444, R445). -/
structure NandRead where
  number : Nat
  cell : Nat
  /-- item whose stored bytes are read; full recovery from step 1 (R152) -/
  item : Option ItemRef
  id : Nat
  full : Bool := false
  deriving DecidableEq, Repr, Inhabited

/-- A secure discard under way (R434). -/
structure Secure where
  id : Nat
  cells : List Nat
  blocks : List Nat
  queue : Option (Nat × Nat)
  absent : Bool := false
  retiredCell : Bool := false
  erased : Nat := 0
  deriving DecidableEq, Repr, Inhabited

/-- The sample store (14) and its media (15). -/
structure Store where
  /-- store has started since the reset (R430, R635). Reset: no. -/
  started : Bool := false
  /-- direct mode (R427). Reset: yes. -/
  direct : Bool := true
  /-- store identity in sled labels (R457). Reset: 1 (DESIGN CHOICE, log entry 8). -/
  identity : Nat := 1
  /-- objects in effect (R400). Reset: none (DESIGN CHOICE, log entry 8). -/
  objs : List Obj := []
  /-- write sequence of the next PUT, per partition (R402). Reset: 1. -/
  putSeq : List Nat := List.replicate 8 1
  /-- partitions 0 to 7 (R407). Reset: as a reset partition. -/
  parts : List Partition := (List.range 8).map fun p => { die := p }
  /-- cells allocated (R410). Reset: none. -/
  cells : List Cell := []
  /-- next cell number per die (R410). Reset: 0. -/
  nextCell : List Nat := List.replicate 8 0
  /-- blocks with state (R447). Reset: none. -/
  blocks : List Block := []
  /-- stripe groups (R452). Reset: none until STO_FORMAT. -/
  groups : List Group := []
  /-- stripes (R453). Reset: none. -/
  stripes : List Stripe := []
  /-- K, M, S (R452). Reset: 0 until STO_FORMAT. -/
  k : Nat := 0
  m : Nat := 0
  s : Nat := 0
  /-- DIR_CACHE, GiB (R415). Reset: 4. -/
  dirCache : Nat := 4
  /-- stale-copy ledger: (object id, PUT_SEQ, physical slot) (R433). Reset: empty. -/
  ledger : List (Nat × Nat × Nat) := []
  /-- sled slots 0 to 15 (R457). Reset: as a reset slot. -/
  sleds : List Sled := List.replicate 16 {}
  /-- LUNs retired (R449). Reset: none. -/
  retiredLuns : List Nat := []
  /-- free LUNs: mode 2 admissions (R457). Reset: none. -/
  freeLuns : List Nat := []
  /-- STANDIN_DELAY, s, and REBUILD_SHARE, % (R455). Reset: 600 and 25. -/
  standinDelay : Nat := 600
  rebuildShare : Nat := 25
  /-- write streams begun, and the die's next channel in their rotation (R412, R447). Reset: none, and 0. -/
  streams : List WStream := []
  turns : List Nat := List.replicate 8 0
  /-- PUTs writing their pages (R412). Reset: none. -/
  puts : List PutRun := []
  /-- pigeonhole answers waiting for the journal (R422). Reset: none. -/
  waits : List JWait := []
  /-- settle replies waiting for the journal (R518). Reset: none. -/
  settles : List SettleWait := []
  /-- programs and reads in flight (R444, R449). Reset: none. -/
  programs : List Program := []
  reads : List NandRead := []
  nextOp : Nat := 0
  /-- secure discards under way (R434); system functions that wait carry none. Reset: none. -/
  secures : List Secure := []
  /-- pages in the directory caches, most recent first: (dataset, page) (R419). Reset: none. -/
  dirPages : List (Nat × Nat) := []
  deriving DecidableEq, Repr, Inhabited

/-! ### Letterbox (16) -/

/-- Queue state (Table 16.1). -/
inductive QState where
  | idle | running | frozen | resetting | deleted
  deriving DecidableEq, Repr, Inhabited

/-- A submission (Table 16.3). -/
structure Sub where
  raw : Bytes
  opcode : Nat
  tag : Nat
  flags : Nat
  seq : Nat
  id : Nat
  addr : Nat
  len : Nat
  offset : Nat
  origLen : Nat
  franking : Nat
  control : Nat
  deriving DecidableEq, Repr, Inhabited

/-- Progress of an executed command. -/
inductive CmdPhase where
  | fetched
  /-- a PUT whose pages are being written (R412) -/
  | writing
  /-- COMMIT or DISCARD record buffered, or FLUSH: completion waits for its pages (R422, R425) -/
  | committing
  /-- SECURE_DISCARD past SECURE_BEGIN (R434) -/
  | securing
  deriving DecidableEq, Repr, Inhabited

/-- A command in flight on a tag (R479). -/
structure Cmd where
  sub : Sub
  crc : Nat
  index : Nat
  phase : CmdPhase := .fetched
  /-- held duplicates: SQ index of each (Table 16.6) -/
  held : Nat := 0
  status : Status := 0
  result : Nat := 0
  at_ : Nat := 0
  /-- detached by LBX_RESET (R485) -/
  detached : Bool := false
  /-- partition not ready since (R408) -/
  waitSince : Option Nat := none
  /-- a wait for SLC cells has been counted (R451) -/
  slcWaited : Bool := false
  /-- journal records awaited: (partition, SEQ) (R422, R425) -/
  left : List (Nat × Nat) := []
  deriving DecidableEq, Repr, Inhabited

/-- A replay record of a tag (R479): SEQ, CRC and the completion's STATUS and RESULT. -/
structure Replay where
  seq : Nat
  crc : Nat
  status : Status
  result : Nat
  deriving DecidableEq, Repr, Inhabited

/-- The error log page of a freeze (Table 16.8). -/
structure ErrPage where
  status : Status
  freezeCount : Nat
  sqIndex : Nat
  tag : Nat
  pcieError : Nat
  time : Nat
  dmaAddr : Nat
  doorbell : BitVec 64
  inFlight : Nat
  later : Nat
  seq : Nat
  submission : Bytes
  deriving DecidableEq, Repr, Inhabited

/-- A letterbox queue that is not deleted (Table 16.1). -/
structure Queue where
  number : Nat
  port : Nat
  state : QState := .running
  sqBase : Nat
  cqBase : Nat
  sqSize : Nat
  cqSize : Nat
  vector : Nat
  intCount : Nat
  intEnabled : Bool
  intDelay : Nat
  sqHead : Nat := 0
  cqTail : Nat := 0
  cqPhase : Bool := true
  freezeStatus : Status := 0
  freezeCount : Nat := 0
  fetched : Nat := 0
  completed : Nat := 0
  /-- last doorbell value received, and last CQ_HEAD taken (R470) -/
  doorbell : BitVec 64 := 0
  cqHead : Nat := 0
  /-- completions written beyond the last CQ_HEAD (R471) -/
  unreleased : Nat := 0
  /-- commands in flight by tag, and replay records -/
  cmds : List Cmd := []
  replays : List (Nat × Replay) := []
  errPage : Option ErrPage := none
  /-- completions since the last message, and time of the first unsignalled (R473) -/
  unsignalled : Nat := 0
  unsignalledAt : Nat := 0
  /-- write-back refused and owed (R467) -/
  stale : Bool := false
  /-- reset under way, waiting for records already buffered: MODE and its pigeonhole (R485) -/
  resetting : Option (Nat × Option Nat) := none
  /-- pigeonholes whose command on this queue acts after the reset (R485, R583) -/
  later : List Nat := []
  deriving DecidableEq, Repr, Inhabited

/-- Letterbox state of the package. -/
structure Lbx where
  /-- queues not deleted (R465). Reset: none. -/
  queues : List Queue := []
  /-- replay records of queues that were reset with MODE 0 stay in the queue; TABLE_BASE per port (R466). Reset: none. -/
  tableBase : List (Option Nat) := [none, none, none, none]
  /-- queue table entries cached, most recent first, at most 512 (R468). Reset: none. -/
  cache : List Nat := []
  deriving DecidableEq, Repr, Inhabited

/-! ### Pigeonholes (20) -/

/-- One pigeonhole (R575, R581, Table 21.14). -/
structure Pgh where
  /-- request area as last written (R576). Reset: empty (SRAM of a domain switched on holds no state, R560). -/
  request : Bytes := []
  /-- PGH_BUSY bit (R610). Reset: 0. -/
  busy : Bool := false
  /-- PGH_DONE bit (R610). Reset: 0. -/
  done : Bool := false
  /-- PGH_IRQ_EN bit (R610). Reset: 0. -/
  irqEn : Bool := false
  /-- LAST_SEQ (R581). Reset: 0. -/
  lastSeq : Nat := 0
  /-- CRC of the request that set LAST_SEQ (R581). Reset: 0. -/
  crc : Nat := 0
  /-- stored response (R581). Reset: empty. -/
  stored : Bytes := []
  /-- response area (R576). Reset: empty. -/
  response : Bytes := []
  /-- a PORT reset came while the command ran: its response will be stored and not written (R548, R582). Reset: no. -/
  lost : Bool := false
  deriving DecidableEq, Repr, Inhabited

/-- PGH registers of a PCIe port (Table 21.14). -/
structure PghPort where
  /-- PGH_VECTOR, 11 bits (R610). Reset: 0. -/
  vector : BitVec 11 := 0
  /-- PGH_DOORBELL_IGNORED, 32 bits (R576). Reset: 0. -/
  ignored : BitVec 32 := 0
  /-- latch of the port: register offset and high half (R597). Reset: empty. -/
  latch : Option (Nat × BitVec 32) := none
  deriving DecidableEq, Repr, Inhabited

/-- Host accesses the environment refuses: (port, first, last, reads, writes, PCIE_ERROR) (R481, R579). -/
structure HostRefuse where
  port : Nat
  lo : Nat
  hi : Nat
  reads : Bool
  writes : Bool
  error : Nat
  deriving DecidableEq, Repr, Inhabited

/-- Conditions outside the device that its rules depend on; the model's own fields (log entry 9). -/
structure Env where
  /-- host memory ranges refused. Reset: none. -/
  refuse : List HostRefuse := []
  /-- SPI NOR read-backs that will fail next (R568). Reset: 0. -/
  spiFails : Nat := 0
  /-- backup and main supply were both lost before this start (R546). Reset: yes, as the reset values of the BKP block say (R602). -/
  backupLost : Bool := true
  deriving DecidableEq, Repr, Inhabited

/-- The device. -/
structure Dev where
  start : StartState := .starting
  rst : RstRegs := {}
  bkp : Bkp := {}
  nor : Nor := {}
  seqs : Seqs := {}
  pwr : Pwr := {}
  pins : Pins := {}
  clk : Clk := {}
  dies : List Die := List.replicate 8 {}
  ports : List EthPort := List.replicate 16 {}
  /-- pigeonholes 0 to 127 (R575). -/
  pgh : List Pgh := List.replicate 128 {}
  pghPorts : List PghPort := List.replicate 4 {}
  jobs : List Job := []
  /-- generation of each job, dataset and grammar slot: slots above the list have 0 (R587). Reset: 0 (DESIGN CHOICE, log entry 10). -/
  jobGens : List Nat := List.replicate 256 0
  datasets : List Dataset := []
  dsetGens : List Nat := List.replicate 1024 0
  routes : List Route := []
  vocabs : List Vocab := []
  grammars : List Grammar := []
  gramGens : List Nat := List.replicate 256 0
  streams : List Stream := []
  /-- home-node staging: requests being staged, leases, next numbers (R97, R98). -/
  stagings : List Staging := []
  leases : List Lease := []
  nextStaging : Nat := 0
  store : Store := {}
  lbx : Lbx := {}
  env : Env := {}
  /-- device serial, 16 B (R588). Reset: zero (DESIGN CHOICE, log entry 7). -/
  serial : Bytes := List.replicate 16 0
  /-- index of the next free value: the MODEL's own field (log entry 11). Reset: 0 (DESIGN CHOICE, log entry 11). -/
  free : Nat := 0
  /-- writes of the running command, empty between commands: the MODEL's own field (log entry 12). -/
  dma : List MemWrite := []
  deriving DecidableEq, Repr, Inhabited

/-- The machine: waiting commands, the device and the memories. -/
structure State where
  /-- pending: commands that wait, first in first out. Reset: empty. -/
  pending : List Instr := []
  dev : Dev := {}
  mem : Mem := {}
  deriving DecidableEq, Repr

/-- Why a step can stop. -/
inductive Fault where
  /-- Raised by FRANKING_LIST_DONE for a franking list that names a package DRAM address outside the 512 GiB space of R17.
  Safe: the spec names no such address. -/
  | outsideAddressSpace (addr : Nat)
  deriving DecidableEq, Repr

/-- Why a step can be refused. -/
inductive Refusal where
  /-- Raised by the dispatch arm of a command with no meaning yet. Safe. -/
  | notModelled (mnemonic : String)
  deriving DecidableEq, Repr

/-- The machine right after a COLD reset with the backup domain cleared: every field at its default. -/
def State.reset : State := {}

end Sys2Proof.Machine
end

