-- ==== Sys2Proof/Machine/Status.lean ====
section
/-! DEFINITION. The status codes of every chapter (R7, R8, R593), under the manual's own mnemonics. -/

namespace Sys2Proof.St

/-- The operation completed as requested (R8). -/
def SUCCESS : Status := 0x0000
/-- SRT_SHARD_EMPTY: the code 0x1001. -/
def SRT_SHARD_EMPTY : Status := 0x1001
/-- SRT_NODE_MAP: the code 0x1002. -/
def SRT_NODE_MAP : Status := 0x1002
/-- SRT_WINDOW_SHORT: the code 0x1003. -/
def SRT_WINDOW_SHORT : Status := 0x1003
/-- SRT_SHARD_FIXED: the code 0x1004. -/
def SRT_SHARD_FIXED : Status := 0x1004
/-- SRT_EPOCHS_RANGE: the code 0x1005. -/
def SRT_EPOCHS_RANGE : Status := 0x1005
/-- SRT_HOME_UNREACHABLE: the code 0x1006. -/
def SRT_HOME_UNREACHABLE : Status := 0x1006
/-- SRT_FETCH_REFUSED: the code 0x1007. -/
def SRT_FETCH_REFUSED : Status := 0x1007
/-- SRT_LEASE_LOST: the code 0x1008. -/
def SRT_LEASE_LOST : Status := 0x1008
/-- SRT_HOME_BUSY: the code 0x1009. -/
def SRT_HOME_BUSY : Status := 0x1009
/-- SRT_LOCAL_READ: the code 0x100A. -/
def SRT_LOCAL_READ : Status := 0x100A
/-- RTE_ROUTE_BAD: the code 0x2001. -/
def RTE_ROUTE_BAD : Status := 0x2001
/-- RTE_STAGE_BAD: the code 0x2002. -/
def RTE_STAGE_BAD : Status := 0x2002
/-- RTE_OPERAND_BAD: the code 0x2003. -/
def RTE_OPERAND_BAD : Status := 0x2003
/-- RTE_PATH_BAD: the code 0x2004. -/
def RTE_PATH_BAD : Status := 0x2004
/-- RTE_LIMIT: the code 0x2005. -/
def RTE_LIMIT : Status := 0x2005
/-- RTE_SEMANTICS: the code 0x2006. -/
def RTE_SEMANTICS : Status := 0x2006
/-- RTE_ROUTE_TABLE_FULL: the code 0x2007. -/
def RTE_ROUTE_TABLE_FULL : Status := 0x2007
/-- RTE_ROUTE_IN_USE: the code 0x2008. -/
def RTE_ROUTE_IN_USE : Status := 0x2008
/-- RTE_VOCAB_MISSING: the code 0x2009. -/
def RTE_VOCAB_MISSING : Status := 0x2009
/-- RTE_FORMAT: the code 0x2010. -/
def RTE_FORMAT : Status := 0x2010
/-- RTE_BUFFER_OVERFLOW: the code 0x2011. -/
def RTE_BUFFER_OVERFLOW : Status := 0x2011
/-- RTE_SLICE_RANGE: the code 0x2012. -/
def RTE_SLICE_RANGE : Status := 0x2012
/-- RTE_RESTART_LIMIT: the code 0x2013. -/
def RTE_RESTART_LIMIT : Status := 0x2013
/-- RTE_INPUT_LOST: the code 0x2014. -/
def RTE_INPUT_LOST : Status := 0x2014
/-- RTE_STAGE_BUSY: the code 0x2020. -/
def RTE_STAGE_BUSY : Status := 0x2020
/-- RTE_STAGE_FIELD: the code 0x2021. -/
def RTE_STAGE_FIELD : Status := 0x2021
/-- RTE_PREPARE_FAILED: the code 0x2022. -/
def RTE_PREPARE_FAILED : Status := 0x2022
/-- RTE_COMMIT_RANGE: the code 0x2023. -/
def RTE_COMMIT_RANGE : Status := 0x2023
/-- RTE_COMMIT_LATE: the code 0x2024. -/
def RTE_COMMIT_LATE : Status := 0x2024
/-- RTE_COMMIT_ABORTED: the code 0x2025. -/
def RTE_COMMIT_ABORTED : Status := 0x2025
/-- RTE_NO_STAGED: the code 0x2026. -/
def RTE_NO_STAGED : Status := 0x2026
/-- INFL_HEADER: the code 0x3001. -/
def INFL_HEADER : Status := 0x3001
/-- INFL_HEADER_CRC: the code 0x3002. -/
def INFL_HEADER_CRC : Status := 0x3002
/-- INFL_BLOCK_TYPE: the code 0x3003. -/
def INFL_BLOCK_TYPE : Status := 0x3003
/-- INFL_STORED_LEN: the code 0x3004. -/
def INFL_STORED_LEN : Status := 0x3004
/-- INFL_CODE_LENGTHS: the code 0x3005. -/
def INFL_CODE_LENGTHS : Status := 0x3005
/-- INFL_CODE_INVALID: the code 0x3006. -/
def INFL_CODE_INVALID : Status := 0x3006
/-- INFL_ILLEGAL_CODE: the code 0x3007. -/
def INFL_ILLEGAL_CODE : Status := 0x3007
/-- INFL_DISTANCE: the code 0x3008. -/
def INFL_DISTANCE : Status := 0x3008
/-- INFL_TRUNCATED: the code 0x3009. -/
def INFL_TRUNCATED : Status := 0x3009
/-- INFL_TRAILING: the code 0x300A. -/
def INFL_TRAILING : Status := 0x300A
/-- INFL_DICT_MISSING: the code 0x300B. -/
def INFL_DICT_MISSING : Status := 0x300B
/-- INFL_ADLER: the code 0x300C. -/
def INFL_ADLER : Status := 0x300C
/-- INFL_GZIP_CRC: the code 0x300D. -/
def INFL_GZIP_CRC : Status := 0x300D
/-- INFL_GZIP_SIZE: the code 0x300E. -/
def INFL_GZIP_SIZE : Status := 0x300E
/-- INFL_WINDOW_LIMIT: the code 0x300F. -/
def INFL_WINDOW_LIMIT : Status := 0x300F
/-- INFL_ZSTD_TABLE: the code 0x3010. -/
def INFL_ZSTD_TABLE : Status := 0x3010
/-- INFL_ZSTD_SEQUENCE: the code 0x3011. -/
def INFL_ZSTD_SEQUENCE : Status := 0x3011
/-- INFL_ZSTD_BLOCK: the code 0x3012. -/
def INFL_ZSTD_BLOCK : Status := 0x3012
/-- INFL_ZSTD_CHECKSUM: the code 0x3013. -/
def INFL_ZSTD_CHECKSUM : Status := 0x3013
/-- INFL_CONTENT_SIZE: the code 0x3014. -/
def INFL_CONTENT_SIZE : Status := 0x3014
/-- INFL_LENGTH_OVER: the code 0x3015. -/
def INFL_LENGTH_OVER : Status := 0x3015
/-- INFL_LENGTH_SHORT: the code 0x3016. -/
def INFL_LENGTH_SHORT : Status := 0x3016
/-- INFL_FRANKING: the code 0x3017. -/
def INFL_FRANKING : Status := 0x3017
/-- DEFL_LEVEL: the code 0x3081. -/
def DEFL_LEVEL : Status := 0x3081
/-- DEFL_DICTIONARY: the code 0x3082. -/
def DEFL_DICTIONARY : Status := 0x3082
/-- JPEG_SOI: the code 0x3801. -/
def JPEG_SOI : Status := 0x3801
/-- JPEG_MARKER: the code 0x3802. -/
def JPEG_MARKER : Status := 0x3802
/-- JPEG_UNSUPPORTED: the code 0x3803. -/
def JPEG_UNSUPPORTED : Status := 0x3803
/-- JPEG_DIM_LIMIT: the code 0x3804. -/
def JPEG_DIM_LIMIT : Status := 0x3804
/-- JPEG_TABLE_MISSING: the code 0x3805. -/
def JPEG_TABLE_MISSING : Status := 0x3805
/-- JPEG_HUFFMAN: the code 0x3806. -/
def JPEG_HUFFMAN : Status := 0x3806
/-- JPEG_COEFF: the code 0x3807. -/
def JPEG_COEFF : Status := 0x3807
/-- JPEG_RESTART: the code 0x3808. -/
def JPEG_RESTART : Status := 0x3808
/-- JPEG_SCAN: the code 0x3809. -/
def JPEG_SCAN : Status := 0x3809
/-- JPEG_TRUNCATED: the code 0x380A. -/
def JPEG_TRUNCATED : Status := 0x380A
/-- JPEG_REGION: the code 0x380B. -/
def JPEG_REGION : Status := 0x380B
/-- JPEG_PROG_LIMIT: the code 0x380C. -/
def JPEG_PROG_LIMIT : Status := 0x380C
/-- JPEG_NOT_IMAGE: the code 0x380D. -/
def JPEG_NOT_IMAGE : Status := 0x380D
/-- JPEG_SEQ_HEADER: the code 0x3810. -/
def JPEG_SEQ_HEADER : Status := 0x3810
/-- JPEG_SEQ_RANGE: the code 0x3811. -/
def JPEG_SEQ_RANGE : Status := 0x3811
/-- JPEG_SEQ_SIZE: the code 0x3812. -/
def JPEG_SEQ_SIZE : Status := 0x3812
/-- PNG_SIGNATURE: the code 0x3881. -/
def PNG_SIGNATURE : Status := 0x3881
/-- PNG_CHUNK: the code 0x3882. -/
def PNG_CHUNK : Status := 0x3882
/-- PNG_CRC: the code 0x3883. -/
def PNG_CRC : Status := 0x3883
/-- PNG_HEADER: the code 0x3884. -/
def PNG_HEADER : Status := 0x3884
/-- PNG_DIM_LIMIT: the code 0x3885. -/
def PNG_DIM_LIMIT : Status := 0x3885
/-- PNG_PALETTE: the code 0x3886. -/
def PNG_PALETTE : Status := 0x3886
/-- PNG_FILTER: the code 0x3887. -/
def PNG_FILTER : Status := 0x3887
/-- PNG_ZLIB: the code 0x3888. -/
def PNG_ZLIB : Status := 0x3888
/-- PNG_DATA_LENGTH: the code 0x3889. -/
def PNG_DATA_LENGTH : Status := 0x3889
/-- PNG_TRUNCATED: the code 0x388A. -/
def PNG_TRUNCATED : Status := 0x388A
/-- PNG_REGION: the code 0x388B. -/
def PNG_REGION : Status := 0x388B
/-- PNG_TENSOR_HEADER: the code 0x3890. -/
def PNG_TENSOR_HEADER : Status := 0x3890
/-- PNG_TENSOR_TYPE: the code 0x3891. -/
def PNG_TENSOR_TYPE : Status := 0x3891
/-- PNG_TENSOR_LENGTH: the code 0x3892. -/
def PNG_TENSOR_LENGTH : Status := 0x3892
/-- PNG_TENSOR_REGION: the code 0x3893. -/
def PNG_TENSOR_REGION : Status := 0x3893
/-- AUD_RIFF: the code 0x3C01. -/
def AUD_RIFF : Status := 0x3C01
/-- AUD_WAV_FORMAT: the code 0x3C02. -/
def AUD_WAV_FORMAT : Status := 0x3C02
/-- AUD_WAV_DATA: the code 0x3C03. -/
def AUD_WAV_DATA : Status := 0x3C03
/-- AUD_FLAC_MAGIC: the code 0x3C04. -/
def AUD_FLAC_MAGIC : Status := 0x3C04
/-- AUD_FLAC_UNSUPPORTED: the code 0x3C05. -/
def AUD_FLAC_UNSUPPORTED : Status := 0x3C05
/-- AUD_FLAC_SYNC: the code 0x3C06. -/
def AUD_FLAC_SYNC : Status := 0x3C06
/-- AUD_FLAC_HEADER_CRC: the code 0x3C07. -/
def AUD_FLAC_HEADER_CRC : Status := 0x3C07
/-- AUD_FLAC_FRAME_CRC: the code 0x3C08. -/
def AUD_FLAC_FRAME_CRC : Status := 0x3C08
/-- AUD_FLAC_SUBFRAME: the code 0x3C09. -/
def AUD_FLAC_SUBFRAME : Status := 0x3C09
/-- AUD_FLAC_MD5: the code 0x3C0A. -/
def AUD_FLAC_MD5 : Status := 0x3C0A
/-- AUD_RATE: the code 0x3C0B. -/
def AUD_RATE : Status := 0x3C0B
/-- AUD_WINDOW: the code 0x3C0C. -/
def AUD_WINDOW : Status := 0x3C0C
/-- AUD_TRUNCATED: the code 0x3C0D. -/
def AUD_TRUNCATED : Status := 0x3C0D
/-- AUD_NOT_AUDIO: the code 0x3C0E. -/
def AUD_NOT_AUDIO : Status := 0x3C0E
/-- VTE_RECORD: the code 0x4001. -/
def VTE_RECORD : Status := 0x4001
/-- VTE_SHAPE: the code 0x4002. -/
def VTE_SHAPE : Status := 0x4002
/-- VTE_PARAM: the code 0x4003. -/
def VTE_PARAM : Status := 0x4003
/-- VTE_SIZE_LIMIT: the code 0x4004. -/
def VTE_SIZE_LIMIT : Status := 0x4004
/-- VTE_REGION: the code 0x4005. -/
def VTE_REGION : Status := 0x4005
/-- VTE_CARD_KEY: the code 0x4006. -/
def VTE_CARD_KEY : Status := 0x4006
/-- VTE_CARD_RANGE: the code 0x4007. -/
def VTE_CARD_RANGE : Status := 0x4007
/-- VTE_CARD_DIGEST: the code 0x4008. -/
def VTE_CARD_DIGEST : Status := 0x4008
/-- VTE_CARD_LAYOUT: the code 0x4009. -/
def VTE_CARD_LAYOUT : Status := 0x4009
/-- TOK_VOCAB_BAD: the code 0x4801. -/
def TOK_VOCAB_BAD : Status := 0x4801
/-- TOK_VOCAB_MERGE: the code 0x4802. -/
def TOK_VOCAB_MERGE : Status := 0x4802
/-- TOK_VOCAB_DIGEST: the code 0x4803. -/
def TOK_VOCAB_DIGEST : Status := 0x4803
/-- TOK_VOCAB_TABLE_FULL: the code 0x4804. -/
def TOK_VOCAB_TABLE_FULL : Status := 0x4804
/-- TOK_VOCAB_IN_USE: the code 0x4805. -/
def TOK_VOCAB_IN_USE : Status := 0x4805
/-- TOK_VOCAB_SLOT: the code 0x4806. -/
def TOK_VOCAB_SLOT : Status := 0x4806
/-- TOK_TOKEN_RANGE: the code 0x4807. -/
def TOK_TOKEN_RANGE : Status := 0x4807
/-- TOK_RECORD: the code 0x4808. -/
def TOK_RECORD : Status := 0x4808
/-- TOK_STREAM_SEQ: the code 0x4809. -/
def TOK_STREAM_SEQ : Status := 0x4809
/-- TOK_STREAM_KIND: the code 0x480A. -/
def TOK_STREAM_KIND : Status := 0x480A
/-- TOK_RESPONSE_SPACE: the code 0x480B. -/
def TOK_RESPONSE_SPACE : Status := 0x480B
/-- TOK_REQUEST_BAD: the code 0x480C. -/
def TOK_REQUEST_BAD : Status := 0x480C
/-- TOK_STREAM_LIMIT: the code 0x480D. -/
def TOK_STREAM_LIMIT : Status := 0x480D
/-- GRM_IMAGE_BAD: the code 0x4C01. -/
def GRM_IMAGE_BAD : Status := 0x4C01
/-- GRM_VOCAB_MISSING: the code 0x4C02. -/
def GRM_VOCAB_MISSING : Status := 0x4C02
/-- GRM_TOO_COMPLEX: the code 0x4C03. -/
def GRM_TOO_COMPLEX : Status := 0x4C03
/-- GRM_TABLE_FULL: the code 0x4C04. -/
def GRM_TABLE_FULL : Status := 0x4C04
/-- GRM_IN_USE: the code 0x4C05. -/
def GRM_IN_USE : Status := 0x4C05
/-- GRM_NO_CAPACITY: the code 0x4C06. -/
def GRM_NO_CAPACITY : Status := 0x4C06
/-- GRM_TOKEN_REJECTED: the code 0x4C07. -/
def GRM_TOKEN_REJECTED : Status := 0x4C07
/-- GRM_DEAD_END: the code 0x4C08. -/
def GRM_DEAD_END : Status := 0x4C08
/-- GRM_FINISHED: the code 0x4C09. -/
def GRM_FINISHED : Status := 0x4C09
/-- GRM_ROLLBACK_RANGE: the code 0x4C0A. -/
def GRM_ROLLBACK_RANGE : Status := 0x4C0A
/-- PCK_SHAPE: the code 0x5001. -/
def PCK_SHAPE : Status := 0x5001
/-- PCK_DTYPE: the code 0x5002. -/
def PCK_DTYPE : Status := 0x5002
/-- PCK_RECORD: the code 0x5003. -/
def PCK_RECORD : Status := 0x5003
/-- PCK_TOKEN_DTYPE: the code 0x5004. -/
def PCK_TOKEN_DTYPE : Status := 0x5004
/-- PCK_PARCEL_SIZE: the code 0x5005. -/
def PCK_PARCEL_SIZE : Status := 0x5005
/-- PCK_RING: the code 0x5006. -/
def PCK_RING : Status := 0x5006
/-- PCK_HOLD_RANGE: the code 0x5007. -/
def PCK_HOLD_RANGE : Status := 0x5007
/-- CUR_NO_CONTEXT: the code 0x6001. -/
def CUR_NO_CONTEXT : Status := 0x6001
/-- CUR_CONNECT_BAD: the code 0x6002. -/
def CUR_CONNECT_BAD : Status := 0x6002
/-- CUR_QPN_IN_USE: the code 0x6003. -/
def CUR_QPN_IN_USE : Status := 0x6003
/-- CUR_NOT_CONNECTED: the code 0x6004. -/
def CUR_NOT_CONNECTED : Status := 0x6004
/-- CUR_IN_USE: the code 0x6005. -/
def CUR_IN_USE : Status := 0x6005
/-- CUR_REGION_BAD: the code 0x6006. -/
def CUR_REGION_BAD : Status := 0x6006
/-- CUR_REGION_TABLE_FULL: the code 0x6007. -/
def CUR_REGION_TABLE_FULL : Status := 0x6007
/-- CUR_KEY_UNKNOWN: the code 0x6008. -/
def CUR_KEY_UNKNOWN : Status := 0x6008
/-- CUR_REVOKE_CUT: the code 0x6009. -/
def CUR_REVOKE_CUT : Status := 0x6009
/-- CUR_RETRY_EXCEEDED: the code 0x6010. -/
def CUR_RETRY_EXCEEDED : Status := 0x6010
/-- CUR_RNR_EXCEEDED: the code 0x6011. -/
def CUR_RNR_EXCEEDED : Status := 0x6011
/-- CUR_TIMEOUT: the code 0x6012. -/
def CUR_TIMEOUT : Status := 0x6012
/-- CUR_REMOTE_ACCESS: the code 0x6013. -/
def CUR_REMOTE_ACCESS : Status := 0x6013
/-- CUR_REMOTE_INVALID: the code 0x6014. -/
def CUR_REMOTE_INVALID : Status := 0x6014
/-- CUR_REMOTE_OP: the code 0x6015. -/
def CUR_REMOTE_OP : Status := 0x6015
/-- CUR_WAIT_BROKEN: the code 0x6016. -/
def CUR_WAIT_BROKEN : Status := 0x6016
/-- CUR_FLUSHED: the code 0x6017. -/
def CUR_FLUSHED : Status := 0x6017
/-- DSP_NODE_BAD: the code 0x6801. -/
def DSP_NODE_BAD : Status := 0x6801
/-- DSP_NODE_UNKNOWN: the code 0x6802. -/
def DSP_NODE_UNKNOWN : Status := 0x6802
/-- DSP_METER_BAD: the code 0x6803. -/
def DSP_METER_BAD : Status := 0x6803
/-- DSP_METER_TABLE_FULL: the code 0x6804. -/
def DSP_METER_TABLE_FULL : Status := 0x6804
/-- DSP_GATES_BAD: the code 0x6805. -/
def DSP_GATES_BAD : Status := 0x6805
/-- DSP_GATES_WINDOW: the code 0x6806. -/
def DSP_GATES_WINDOW : Status := 0x6806
/-- DSP_GATES_TICK: the code 0x6807. -/
def DSP_GATES_TICK : Status := 0x6807
/-- DSP_GATES_REVERTED: the code 0x6808. -/
def DSP_GATES_REVERTED : Status := 0x6808
/-- SYN_POSTMARK_MISMATCH: the code 0x7001. -/
def SYN_POSTMARK_MISMATCH : Status := 0x7001
/-- SYN_SEMANTICS_MISMATCH: the code 0x7002. -/
def SYN_SEMANTICS_MISMATCH : Status := 0x7002
/-- SYN_CURSOR_MISMATCH: the code 0x7003. -/
def SYN_CURSOR_MISMATCH : Status := 0x7003
/-- SYN_RANK_BINDING: the code 0x7004. -/
def SYN_RANK_BINDING : Status := 0x7004
/-- SYN_TIME_OFFSET: the code 0x7005. -/
def SYN_TIME_OFFSET : Status := 0x7005
/-- SYN_BARRIER_TIMEOUT: the code 0x7006. -/
def SYN_BARRIER_TIMEOUT : Status := 0x7006
/-- SYN_NO_BOX: the code 0x7007. -/
def SYN_NO_BOX : Status := 0x7007
/-- SYN_TREE_PEER: the code 0x7008. -/
def SYN_TREE_PEER : Status := 0x7008
/-- STO_NO_OBJECT: the code 0x8001. -/
def STO_NO_OBJECT : Status := 0x8001
/-- STO_ID_RESERVED: the code 0x8002. -/
def STO_ID_RESERVED : Status := 0x8002
/-- STO_PINNED: the code 0x8003. -/
def STO_PINNED : Status := 0x8003
/-- STO_NO_SPACE: the code 0x8004. -/
def STO_NO_SPACE : Status := 0x8004
/-- STO_OBJECT_LIMIT: the code 0x8005. -/
def STO_OBJECT_LIMIT : Status := 0x8005
/-- STO_LENGTH: the code 0x8006. -/
def STO_LENGTH : Status := 0x8006
/-- STO_OBJECT_DIFFERS: the code 0x8007. -/
def STO_OBJECT_DIFFERS : Status := 0x8007
/-- STO_PIN_LIMIT: the code 0x8008. -/
def STO_PIN_LIMIT : Status := 0x8008
/-- STO_READ_FAILED: the code 0x8009. -/
def STO_READ_FAILED : Status := 0x8009
/-- STO_HEADER_BAD: the code 0x800A. -/
def STO_HEADER_BAD : Status := 0x800A
/-- STO_NOT_READY: the code 0x800B. -/
def STO_NOT_READY : Status := 0x800B
/-- STO_SECURE_PENDING: the code 0x800C. -/
def STO_SECURE_PENDING : Status := 0x800C
/-- STO_SECURE_RETIRED: the code 0x800D. -/
def STO_SECURE_RETIRED : Status := 0x800D
/-- STO_JOURNAL_SINGLE: the code 0x800E. -/
def STO_JOURNAL_SINGLE : Status := 0x800E
/-- STO_UNCLEAN_LOSS: the code 0x800F. -/
def STO_UNCLEAN_LOSS : Status := 0x800F
/-- STO_REBUILD: the code 0x8010. -/
def STO_REBUILD : Status := 0x8010
/-- STO_PARTITION_UNSERVED: the code 0x8011. -/
def STO_PARTITION_UNSERVED : Status := 0x8011
/-- MED_PART_UNSUPPORTED: the code 0x8801. -/
def MED_PART_UNSUPPORTED : Status := 0x8801
/-- MED_SLED_DESCRIPTOR: the code 0x8802. -/
def MED_SLED_DESCRIPTOR : Status := 0x8802
/-- MED_SLED_TRAINING: the code 0x8803. -/
def MED_SLED_TRAINING : Status := 0x8803
/-- MED_SLED_FOREIGN: the code 0x8804. -/
def MED_SLED_FOREIGN : Status := 0x8804
/-- MED_SLED_SLOT: the code 0x8805. -/
def MED_SLED_SLOT : Status := 0x8805
/-- MED_SLED_BUSY: the code 0x8806. -/
def MED_SLED_BUSY : Status := 0x8806
/-- MED_STRENGTH_BAD: the code 0x8807. -/
def MED_STRENGTH_BAD : Status := 0x8807
/-- MED_GROUP_LAYOUT: the code 0x8808. -/
def MED_GROUP_LAYOUT : Status := 0x8808
/-- MED_EVACUATE_SPACE: the code 0x8809. -/
def MED_EVACUATE_SPACE : Status := 0x8809
/-- MED_NO_STANDIN: the code 0x880A. -/
def MED_NO_STANDIN : Status := 0x880A
/-- MED_GROUP_LOST: the code 0x880B. -/
def MED_GROUP_LOST : Status := 0x880B
/-- MED_PAGE_REBUILT: the code 0x880C. -/
def MED_PAGE_REBUILT : Status := 0x880C
/-- MED_BLOCK_RETIRED: the code 0x880D. -/
def MED_BLOCK_RETIRED : Status := 0x880D
/-- MED_LUN_RETIRED: the code 0x880E. -/
def MED_LUN_RETIRED : Status := 0x880E
/-- MED_SURPRISE_REMOVAL: the code 0x880F. -/
def MED_SURPRISE_REMOVAL : Status := 0x880F
/-- MED_SECURE_ABSENT_SLED: the code 0x8810. -/
def MED_SECURE_ABSENT_SLED : Status := 0x8810
/-- LBX_OPCODE: the code 0x9001. -/
def LBX_OPCODE : Status := 0x9001
/-- LBX_RESERVED: the code 0x9002. -/
def LBX_RESERVED : Status := 0x9002
/-- LBX_TAG_BUSY: the code 0x9003. -/
def LBX_TAG_BUSY : Status := 0x9003
/-- LBX_REPLAY_MISMATCH: the code 0x9004. -/
def LBX_REPLAY_MISMATCH : Status := 0x9004
/-- LBX_DMA_FETCH: the code 0x9005. -/
def LBX_DMA_FETCH : Status := 0x9005
/-- LBX_DMA_DATA: the code 0x9006. -/
def LBX_DMA_DATA : Status := 0x9006
/-- LBX_DOORBELL: the code 0x9007. -/
def LBX_DOORBELL : Status := 0x9007
/-- LBX_RANGE: the code 0x9008. -/
def LBX_RANGE : Status := 0x9008
/-- LBX_FRANKING: the code 0x9009. -/
def LBX_FRANKING : Status := 0x9009
/-- LBX_VERIFY: the code 0x900A. -/
def LBX_VERIFY : Status := 0x900A
/-- LBX_QUEUE_BAD: the code 0x9010. -/
def LBX_QUEUE_BAD : Status := 0x9010
/-- LBX_QUEUE_STATE: the code 0x9011. -/
def LBX_QUEUE_STATE : Status := 0x9011
/-- LBX_TABLE_BASE: the code 0x9012. -/
def LBX_TABLE_BASE : Status := 0x9012
/-- LBX_RESTART_STALE: the code 0x9013. -/
def LBX_RESTART_STALE : Status := 0x9013
/-- BUF_QUOTA_RANGE: the code 0xA001. -/
def BUF_QUOTA_RANGE : Status := 0xA001
/-- BUF_RESERVE_FULL: the code 0xA002. -/
def BUF_RESERVE_FULL : Status := 0xA002
/-- BUF_ITEM_TOO_LARGE: the code 0xA003. -/
def BUF_ITEM_TOO_LARGE : Status := 0xA003
/-- BUF_DOUBLE_FREE: the code 0xA004. -/
def BUF_DOUBLE_FREE : Status := 0xA004
/-- BUF_NOT_LAST_OWNER: the code 0xA005. -/
def BUF_NOT_LAST_OWNER : Status := 0xA005
/-- BUF_HANDLE_BAD: the code 0xA006. -/
def BUF_HANDLE_BAD : Status := 0xA006
/-- INT_SRAM_CORRECTED: the code 0xA801. -/
def INT_SRAM_CORRECTED : Status := 0xA801
/-- INT_SRAM_UNCORRECTED: the code 0xA802. -/
def INT_SRAM_UNCORRECTED : Status := 0xA802
/-- INT_DRAM_CORRECTED: the code 0xA803. -/
def INT_DRAM_CORRECTED : Status := 0xA803
/-- INT_DRAM_UNCORRECTED: the code 0xA804. -/
def INT_DRAM_UNCORRECTED : Status := 0xA804
/-- INT_ROW_REPAIRED: the code 0xA805. -/
def INT_ROW_REPAIRED : Status := 0xA805
/-- INT_REDUNDANCY_EXHAUSTED: the code 0xA806. -/
def INT_REDUNDANCY_EXHAUSTED : Status := 0xA806
/-- INT_SCRUB_SLOW: the code 0xA807. -/
def INT_SCRUB_SLOW : Status := 0xA807
/-- INT_FLIP_REFUSED: the code 0xA808. -/
def INT_FLIP_REFUSED : Status := 0xA808
/-- INT_CHECK_REPAIRED: the code 0xA809. -/
def INT_CHECK_REPAIRED : Status := 0xA809
/-- INT_SETTLE_BYTES: the code 0xA80A. -/
def INT_SETTLE_BYTES : Status := 0xA80A
/-- INT_SETTLE_UNDECIDED: the code 0xA80B. -/
def INT_SETTLE_UNDECIDED : Status := 0xA80B
/-- FLT_SOURCE_UNKNOWN: the code 0xB001. -/
def FLT_SOURCE_UNKNOWN : Status := 0xB001
/-- FLT_SEVERITY_FIXED: the code 0xB002. -/
def FLT_SEVERITY_FIXED : Status := 0xB002
/-- FLT_LOG_RANGE: the code 0xB003. -/
def FLT_LOG_RANGE : Status := 0xB003
/-- FLT_NO_DUMP: the code 0xB004. -/
def FLT_NO_DUMP : Status := 0xB004
/-- FLT_CLEAR_DENIED: the code 0xB005. -/
def FLT_CLEAR_DENIED : Status := 0xB005
/-- FLT_COLLECTOR_SELF: the code 0xB010. -/
def FLT_COLLECTOR_SELF : Status := 0xB010
/-- FLT_LOCKSTEP: the code 0xB011. -/
def FLT_LOCKSTEP : Status := 0xB011
/-- FLT_WATCHDOG: the code 0xB012. -/
def FLT_WATCHDOG : Status := 0xB012
/-- FLT_LEASE_BROKEN: the code 0xB013. -/
def FLT_LEASE_BROKEN : Status := 0xB013
/-- FLT_ACCOUNTING: the code 0xB014. -/
def FLT_ACCOUNTING : Status := 0xB014
/-- FLT_DEAD_LETTER_OVERWRITTEN: the code 0xB015. -/
def FLT_DEAD_LETTER_OVERWRITTEN : Status := 0xB015
/-- FLT_MARGIN_VR: the code 0xB020. -/
def FLT_MARGIN_VR : Status := 0xB020
/-- FLT_MARGIN_EYE: the code 0xB021. -/
def FLT_MARGIN_EYE : Status := 0xB021
/-- FLT_MARGIN_OPTICAL: the code 0xB022. -/
def FLT_MARGIN_OPTICAL : Status := 0xB022
/-- FLT_MARGIN_RETRY: the code 0xB023. -/
def FLT_MARGIN_RETRY : Status := 0xB023
/-- FLT_MARGIN_HBM: the code 0xB024. -/
def FLT_MARGIN_HBM : Status := 0xB024
/-- FLT_MARGIN_TJ: the code 0xB025. -/
def FLT_MARGIN_TJ : Status := 0xB025
/-- FLT_MBUS_STUCK: the code 0xB030. -/
def FLT_MBUS_STUCK : Status := 0xB030
/-- FLT_MBUS_RECOVERED: the code 0xB031. -/
def FLT_MBUS_RECOVERED : Status := 0xB031
/-- FLT_THERMTRIP: the code 0xB032. -/
def FLT_THERMTRIP : Status := 0xB032
/-- RSTP_CAP_RANGE: the code 0xC001. -/
def RSTP_CAP_RANGE : Status := 0xC001
/-- RSTP_DOMAIN_BAD: the code 0xC002. -/
def RSTP_DOMAIN_BAD : Status := 0xC002
/-- RSTP_DOMAIN_IN_USE: the code 0xC003. -/
def RSTP_DOMAIN_IN_USE : Status := 0xC003
/-- RSTP_CAP_UNMET: the code 0xC004. -/
def RSTP_CAP_UNMET : Status := 0xC004
/-- RSTP_CFG_WRITE_FAILED: the code 0xC005. -/
def RSTP_CFG_WRITE_FAILED : Status := 0xC005
/-- RSTP_CFG_NONE: the code 0xC006. -/
def RSTP_CFG_NONE : Status := 0xC006
/-- RSTP_IMAGE_FALLBACK: the code 0xC007. -/
def RSTP_IMAGE_FALLBACK : Status := 0xC007
/-- RSTP_START_TIMEOUT: the code 0xC008. -/
def RSTP_START_TIMEOUT : Status := 0xC008
/-- RSTP_BACKUP_LOST: the code 0xC009. -/
def RSTP_BACKUP_LOST : Status := 0xC009
/-- RSTP_POWER_GLITCH: the code 0xC00A. -/
def RSTP_POWER_GLITCH : Status := 0xC00A
/-- RSTP_RECOVERY_MODE: the code 0xC00B. -/
def RSTP_RECOVERY_MODE : Status := 0xC00B
/-- PGH_FRAME: the code 0xD001. -/
def PGH_FRAME : Status := 0xD001
/-- PGH_SEQ: the code 0xD002. -/
def PGH_SEQ : Status := 0xD002
/-- PGH_SEQ_MISMATCH: the code 0xD003. -/
def PGH_SEQ_MISMATCH : Status := 0xD003
/-- PGH_OPCODE: the code 0xD004. -/
def PGH_OPCODE : Status := 0xD004
/-- PGH_RESERVED: the code 0xD005. -/
def PGH_RESERVED : Status := 0xD005
/-- PGH_FIELD: the code 0xD006. -/
def PGH_FIELD : Status := 0xD006
/-- PGH_NOT_READY: the code 0xD007. -/
def PGH_NOT_READY : Status := 0xD007
/-- PGH_DMA: the code 0xD008. -/
def PGH_DMA : Status := 0xD008
/-- PGH_HANDLE: the code 0xD009. -/
def PGH_HANDLE : Status := 0xD009
/-- PGH_BUFFER_SHORT: the code 0xD00A. -/
def PGH_BUFFER_SHORT : Status := 0xD00A
/-- PGH_JOB_STATE: the code 0xD010. -/
def PGH_JOB_STATE : Status := 0xD010
/-- PGH_JOB_INPUT: the code 0xD011. -/
def PGH_JOB_INPUT : Status := 0xD011
/-- PGH_JOB_TABLE_FULL: the code 0xD012. -/
def PGH_JOB_TABLE_FULL : Status := 0xD012
/-- PGH_RANK_LIMIT: the code 0xD013. -/
def PGH_RANK_LIMIT : Status := 0xD013
/-- PGH_STAMP_EXHAUSTED: the code 0xD014. -/
def PGH_STAMP_EXHAUSTED : Status := 0xD014
/-- PGH_STAGE_ABANDONED: the code 0xD015. -/
def PGH_STAGE_ABANDONED : Status := 0xD015
/-- PGH_RECORD_BAD: the code 0xD016. -/
def PGH_RECORD_BAD : Status := 0xD016
/-- PGH_POSTMARK_MISMATCH: the code 0xD017. -/
def PGH_POSTMARK_MISMATCH : Status := 0xD017
/-- PGH_SEMANTICS_MISMATCH: the code 0xD018. -/
def PGH_SEMANTICS_MISMATCH : Status := 0xD018
/-- PGH_CURSOR_RANGE: the code 0xD019. -/
def PGH_CURSOR_RANGE : Status := 0xD019
/-- PGH_MANIFEST_MISMATCH: the code 0xD020. -/
def PGH_MANIFEST_MISMATCH : Status := 0xD020
/-- PGH_DATASET_IN_USE: the code 0xD021. -/
def PGH_DATASET_IN_USE : Status := 0xD021
/-- PGH_DATASET_STATE: the code 0xD022. -/
def PGH_DATASET_STATE : Status := 0xD022
/-- PGH_DATASET_TABLE_FULL: the code 0xD023. -/
def PGH_DATASET_TABLE_FULL : Status := 0xD023
/-- PGH_FW_IMAGE: the code 0xD030. -/
def PGH_FW_IMAGE : Status := 0xD030
/-- PGH_FW_JOBS_ACTIVE: the code 0xD031. -/
def PGH_FW_JOBS_ACTIVE : Status := 0xD031
/-- PGH_FW_STAGE: the code 0xD032. -/
def PGH_FW_STAGE : Status := 0xD032

/-- Defined codes, part 0 of the list. -/
def table0 : List Status :=
  [SRT_SHARD_EMPTY, SRT_NODE_MAP, SRT_WINDOW_SHORT, SRT_SHARD_FIXED, SRT_EPOCHS_RANGE, SRT_HOME_UNREACHABLE,
    SRT_FETCH_REFUSED, SRT_LEASE_LOST, SRT_HOME_BUSY, SRT_LOCAL_READ, RTE_ROUTE_BAD, RTE_STAGE_BAD, RTE_OPERAND_BAD,
    RTE_PATH_BAD, RTE_LIMIT, RTE_SEMANTICS, RTE_ROUTE_TABLE_FULL, RTE_ROUTE_IN_USE, RTE_VOCAB_MISSING, RTE_FORMAT,
    RTE_BUFFER_OVERFLOW, RTE_SLICE_RANGE, RTE_RESTART_LIMIT, RTE_INPUT_LOST]
/-- Defined codes, part 1 of the list. -/
def table1 : List Status :=
  [RTE_STAGE_BUSY, RTE_STAGE_FIELD, RTE_PREPARE_FAILED, RTE_COMMIT_RANGE, RTE_COMMIT_LATE, RTE_COMMIT_ABORTED,
    RTE_NO_STAGED, INFL_HEADER, INFL_HEADER_CRC, INFL_BLOCK_TYPE, INFL_STORED_LEN, INFL_CODE_LENGTHS,
    INFL_CODE_INVALID, INFL_ILLEGAL_CODE, INFL_DISTANCE, INFL_TRUNCATED, INFL_TRAILING, INFL_DICT_MISSING,
    INFL_ADLER, INFL_GZIP_CRC, INFL_GZIP_SIZE, INFL_WINDOW_LIMIT, INFL_ZSTD_TABLE, INFL_ZSTD_SEQUENCE]
/-- Defined codes, part 2 of the list. -/
def table2 : List Status :=
  [INFL_ZSTD_BLOCK, INFL_ZSTD_CHECKSUM, INFL_CONTENT_SIZE, INFL_LENGTH_OVER, INFL_LENGTH_SHORT, INFL_FRANKING,
    DEFL_LEVEL, DEFL_DICTIONARY, JPEG_SOI, JPEG_MARKER, JPEG_UNSUPPORTED, JPEG_DIM_LIMIT, JPEG_TABLE_MISSING,
    JPEG_HUFFMAN, JPEG_COEFF, JPEG_RESTART, JPEG_SCAN, JPEG_TRUNCATED, JPEG_REGION, JPEG_PROG_LIMIT, JPEG_NOT_IMAGE,
    JPEG_SEQ_HEADER, JPEG_SEQ_RANGE, JPEG_SEQ_SIZE]
/-- Defined codes, part 3 of the list. -/
def table3 : List Status :=
  [PNG_SIGNATURE, PNG_CHUNK, PNG_CRC, PNG_HEADER, PNG_DIM_LIMIT, PNG_PALETTE, PNG_FILTER, PNG_ZLIB, PNG_DATA_LENGTH,
    PNG_TRUNCATED, PNG_REGION, PNG_TENSOR_HEADER, PNG_TENSOR_TYPE, PNG_TENSOR_LENGTH, PNG_TENSOR_REGION, AUD_RIFF,
    AUD_WAV_FORMAT, AUD_WAV_DATA, AUD_FLAC_MAGIC, AUD_FLAC_UNSUPPORTED, AUD_FLAC_SYNC, AUD_FLAC_HEADER_CRC,
    AUD_FLAC_FRAME_CRC, AUD_FLAC_SUBFRAME]
/-- Defined codes, part 4 of the list. -/
def table4 : List Status :=
  [AUD_FLAC_MD5, AUD_RATE, AUD_WINDOW, AUD_TRUNCATED, AUD_NOT_AUDIO, VTE_RECORD, VTE_SHAPE, VTE_PARAM,
    VTE_SIZE_LIMIT, VTE_REGION, VTE_CARD_KEY, VTE_CARD_RANGE, VTE_CARD_DIGEST, VTE_CARD_LAYOUT, TOK_VOCAB_BAD,
    TOK_VOCAB_MERGE, TOK_VOCAB_DIGEST, TOK_VOCAB_TABLE_FULL, TOK_VOCAB_IN_USE, TOK_VOCAB_SLOT, TOK_TOKEN_RANGE,
    TOK_RECORD, TOK_STREAM_SEQ, TOK_STREAM_KIND]
/-- Defined codes, part 5 of the list. -/
def table5 : List Status :=
  [TOK_RESPONSE_SPACE, TOK_REQUEST_BAD, TOK_STREAM_LIMIT, GRM_IMAGE_BAD, GRM_VOCAB_MISSING, GRM_TOO_COMPLEX,
    GRM_TABLE_FULL, GRM_IN_USE, GRM_NO_CAPACITY, GRM_TOKEN_REJECTED, GRM_DEAD_END, GRM_FINISHED, GRM_ROLLBACK_RANGE,
    PCK_SHAPE, PCK_DTYPE, PCK_RECORD, PCK_TOKEN_DTYPE, PCK_PARCEL_SIZE, PCK_RING, PCK_HOLD_RANGE, CUR_NO_CONTEXT,
    CUR_CONNECT_BAD, CUR_QPN_IN_USE, CUR_NOT_CONNECTED]
/-- Defined codes, part 6 of the list. -/
def table6 : List Status :=
  [CUR_IN_USE, CUR_REGION_BAD, CUR_REGION_TABLE_FULL, CUR_KEY_UNKNOWN, CUR_REVOKE_CUT, CUR_RETRY_EXCEEDED,
    CUR_RNR_EXCEEDED, CUR_TIMEOUT, CUR_REMOTE_ACCESS, CUR_REMOTE_INVALID, CUR_REMOTE_OP, CUR_WAIT_BROKEN,
    CUR_FLUSHED, DSP_NODE_BAD, DSP_NODE_UNKNOWN, DSP_METER_BAD, DSP_METER_TABLE_FULL, DSP_GATES_BAD,
    DSP_GATES_WINDOW, DSP_GATES_TICK, DSP_GATES_REVERTED, SYN_POSTMARK_MISMATCH, SYN_SEMANTICS_MISMATCH,
    SYN_CURSOR_MISMATCH]
/-- Defined codes, part 7 of the list. -/
def table7 : List Status :=
  [SYN_RANK_BINDING, SYN_TIME_OFFSET, SYN_BARRIER_TIMEOUT, SYN_NO_BOX, SYN_TREE_PEER, STO_NO_OBJECT,
    STO_ID_RESERVED, STO_PINNED, STO_NO_SPACE, STO_OBJECT_LIMIT, STO_LENGTH, STO_OBJECT_DIFFERS, STO_PIN_LIMIT,
    STO_READ_FAILED, STO_HEADER_BAD, STO_NOT_READY, STO_SECURE_PENDING, STO_SECURE_RETIRED, STO_JOURNAL_SINGLE,
    STO_UNCLEAN_LOSS, STO_REBUILD, STO_PARTITION_UNSERVED, MED_PART_UNSUPPORTED, MED_SLED_DESCRIPTOR]
/-- Defined codes, part 8 of the list. -/
def table8 : List Status :=
  [MED_SLED_TRAINING, MED_SLED_FOREIGN, MED_SLED_SLOT, MED_SLED_BUSY, MED_STRENGTH_BAD, MED_GROUP_LAYOUT,
    MED_EVACUATE_SPACE, MED_NO_STANDIN, MED_GROUP_LOST, MED_PAGE_REBUILT, MED_BLOCK_RETIRED, MED_LUN_RETIRED,
    MED_SURPRISE_REMOVAL, MED_SECURE_ABSENT_SLED, LBX_OPCODE, LBX_RESERVED, LBX_TAG_BUSY, LBX_REPLAY_MISMATCH,
    LBX_DMA_FETCH, LBX_DMA_DATA, LBX_DOORBELL, LBX_RANGE, LBX_FRANKING, LBX_VERIFY]
/-- Defined codes, part 9 of the list. -/
def table9 : List Status :=
  [LBX_QUEUE_BAD, LBX_QUEUE_STATE, LBX_TABLE_BASE, LBX_RESTART_STALE, BUF_QUOTA_RANGE, BUF_RESERVE_FULL,
    BUF_ITEM_TOO_LARGE, BUF_DOUBLE_FREE, BUF_NOT_LAST_OWNER, BUF_HANDLE_BAD, INT_SRAM_CORRECTED,
    INT_SRAM_UNCORRECTED, INT_DRAM_CORRECTED, INT_DRAM_UNCORRECTED, INT_ROW_REPAIRED, INT_REDUNDANCY_EXHAUSTED,
    INT_SCRUB_SLOW, INT_FLIP_REFUSED, INT_CHECK_REPAIRED, INT_SETTLE_BYTES, INT_SETTLE_UNDECIDED,
    FLT_SOURCE_UNKNOWN, FLT_SEVERITY_FIXED, FLT_LOG_RANGE]
/-- Defined codes, part 10 of the list. -/
def table10 : List Status :=
  [FLT_NO_DUMP, FLT_CLEAR_DENIED, FLT_COLLECTOR_SELF, FLT_LOCKSTEP, FLT_WATCHDOG, FLT_LEASE_BROKEN, FLT_ACCOUNTING,
    FLT_DEAD_LETTER_OVERWRITTEN, FLT_MARGIN_VR, FLT_MARGIN_EYE, FLT_MARGIN_OPTICAL, FLT_MARGIN_RETRY,
    FLT_MARGIN_HBM, FLT_MARGIN_TJ, FLT_MBUS_STUCK, FLT_MBUS_RECOVERED, FLT_THERMTRIP, RSTP_CAP_RANGE,
    RSTP_DOMAIN_BAD, RSTP_DOMAIN_IN_USE, RSTP_CAP_UNMET, RSTP_CFG_WRITE_FAILED, RSTP_CFG_NONE, RSTP_IMAGE_FALLBACK]
/-- Defined codes, part 11 of the list. -/
def table11 : List Status :=
  [RSTP_START_TIMEOUT, RSTP_BACKUP_LOST, RSTP_POWER_GLITCH, RSTP_RECOVERY_MODE, PGH_FRAME, PGH_SEQ,
    PGH_SEQ_MISMATCH, PGH_OPCODE, PGH_RESERVED, PGH_FIELD, PGH_NOT_READY, PGH_DMA, PGH_HANDLE, PGH_BUFFER_SHORT,
    PGH_JOB_STATE, PGH_JOB_INPUT, PGH_JOB_TABLE_FULL, PGH_RANK_LIMIT, PGH_STAMP_EXHAUSTED, PGH_STAGE_ABANDONED,
    PGH_RECORD_BAD, PGH_POSTMARK_MISMATCH, PGH_SEMANTICS_MISMATCH, PGH_CURSOR_RANGE]
/-- Defined codes, part 12 of the list. -/
def table12 : List Status :=
  [PGH_MANIFEST_MISMATCH, PGH_DATASET_IN_USE, PGH_DATASET_STATE, PGH_DATASET_TABLE_FULL, PGH_FW_IMAGE,
    PGH_FW_JOBS_ACTIVE, PGH_FW_STAGE]

/-- Every status code the manual defines but SUCCESS (R9). -/
def all : List Status :=
  table0 ++ table1 ++ table2 ++ table3 ++ table4 ++ table5 ++ table6 ++ table7 ++ table8 ++ table9 ++ table10 ++
    table11 ++ table12

end Sys2Proof.St
end

