-- ==== Sys2Proof/Machine/Ops.lean ====
section
/-! DEFINITION. Named operations over bytes, the three memories and the device: every meaning is written with these. -/

namespace Sys2Proof.Machine

open Sys2Proof

/-! ### Bytes: little-endian fields (R4) -/

/-- The low n bytes of v, little-endian (R4). -/
def le : Nat → Nat → Bytes
  | 0, _ => []
  | n + 1, v => BitVec.ofNat 8 v :: le n (v / 256)

/-- The number a little-endian byte string spells (R4). -/
def leNat : Bytes → Nat
  | [] => 0
  | b :: bs => b.toNat + 256 * leNat bs

/-- The number a big-endian byte string spells: structures of external standards (R4). -/
def beNat (b : Bytes) : Nat := b.foldl (fun a x => a * 256 + x.toNat) 0

/-- len bytes from offset off. -/
def cut (b : Bytes) (off len : Nat) : Bytes := (b.drop off).take len

/-- The little-endian field of size bytes at offset off. -/
def fld (b : Bytes) (off size : Nat) : Nat := leNat (cut b off size)

/-- n zero bytes. -/
def zeros (n : Nat) : Bytes := List.replicate n 0

/-- b padded with zero bytes, or shortened, to n bytes. -/
def fit (n : Nat) (b : Bytes) : Bytes := b.take n ++ zeros (n - b.length)

/-- b with the bytes x written at offset off. -/
def putAt (b : Bytes) (off : Nat) (x : Bytes) : Bytes := b.take off ++ x ++ b.drop (off + x.length)

/-- A structure of size bytes with the fields given as (offset, bytes), every other byte reserved and 0 (R5). -/
def layout (size : Nat) (fields : List (Nat × Bytes)) : Bytes :=
  fields.foldl (fun b f => putAt b f.1 f.2) (zeros size)

/-- The bytes of ASCII text. -/
def ascii (s : String) : Bytes := s.toList.map fun c => BitVec.ofNat 8 c.toNat

/-- Two's-complement reading of an n-bit field. -/
def signed (n v : Nat) : Int := if v < 2 ^ (n - 1) then v else (v : Int) - 2 ^ n

/-- The low n bits of an integer. -/
def toBits (n : Nat) (i : Int) : Nat := (i % (2 ^ n : Int)).toNat

/-- Bits [hi:lo] of v. -/
def bits (v hi lo : Nat) : Nat := v / 2 ^ lo % 2 ^ (hi + 1 - lo)

/-- Bit i of v. -/
def bit (v i : Nat) : Bool := v.testBit i

/-- 1 for true. -/
def b2n (b : Bool) : Nat := if b then 1 else 0

/-- All 2^n − 1. -/
def ones (n : Nat) : Nat := 2 ^ n - 1

/-- v rounded up to a multiple of k. -/
def roundUp (v k : Nat) : Nat := (v + k - 1) / k * k

/-- Number of set bits among the low n. -/
def popCount (n v : Nat) : Nat := ((List.range n).filter fun i => bit v i).length

/-- Every element satisfying p replaced. -/
def updWhere {α : Type} (l : List α) (p : α → Bool) (f : α → α) : List α := l.map fun x => if p x then f x else x

/-! ### Memories -/

/-- Key of a byte of host memory behind PCIe port k (R579). -/
def hostKey (port addr : Nat) : Nat := port * 2 ^ 64 + addr % 2 ^ 64

/-- Key of a byte of a sorting frame (R15, R614). -/
def frameKey (die cluster off : Nat) : Nat := (9 * die + cluster) * 2 ^ 25 + off % 2 ^ 25

/-- The byte at an address: the listed one, or 0 (R545; log entry 4). -/
def cellsGet : List Host.Cell → Nat → Byte
  | [], _ => 0
  | (a, b) :: r, x => if a = x then b else cellsGet r x

/-- The cells after one byte is written; the form stays canonical (cellsSet_wf). -/
def cellsSet : List Host.Cell → Nat → Byte → List Host.Cell
  | [], x, v => if v = 0 then [] else [(x, v)]
  | (a, b) :: r, x, v =>
    if x < a then (if v = 0 then (a, b) :: r else (x, v) :: (a, b) :: r)
    else if x = a then (if v = 0 then r else (x, v) :: r)
    else (a, b) :: cellsSet r x v

/-- The cells after bytes are written from an address upward. -/
def cellsPut : List Host.Cell → Nat → Bytes → List Host.Cell
  | c, _, [] => c
  | c, a, v :: vs => cellsPut (cellsSet c a v) (a + 1) vs

/-- The cells after n bytes from an address are made 0. -/
def cellsClear (c : List Host.Cell) (a n : Nat) : List Host.Cell := c.filter fun x => !decide (a ≤ x.1 ∧ x.1 < a + n)

/-- len bytes from an address. -/
def cellsRead (c : List Host.Cell) (a len : Nat) : Bytes := (List.range len).map fun i => cellsGet c (a + i)

/-- Canonical form: addresses strictly rising above the bound, no byte equal to what an unlisted address reads as. -/
def cellsWfFrom : Nat → List Host.Cell → Bool
  | _, [] => true
  | lo, (a, b) :: r => decide (lo ≤ a) && decide (b ≠ 0) && cellsWfFrom (a + 1) r

/-- Canonical form of a cell list. -/
def cellsWf (c : List Host.Cell) : Bool := cellsWfFrom 0 c

/-- The three memories are in canonical form. -/
def memWf (m : Mem) : Bool := cellsWf m.dram && cellsWf m.host && cellsWf m.frame

/-- The memories after one write of a command. -/
def memApply (m : Mem) (w : MemWrite) : Mem :=
  match w.space with
  | .dram => { m with dram := cellsPut (cellsClear m.dram w.addr w.clear) w.addr w.bytes }
  | .host => { m with host := cellsPut (cellsClear m.host w.addr w.clear) w.addr w.bytes }
  | .frame => { m with frame := cellsPut (cellsClear m.frame w.addr w.clear) w.addr w.bytes }

/-- The state after a command whose effect on the device is d: the writes it made reach the memories, in order, and the
queue is untouched. Every meaning ends here. -/
def State.put (s : State) (d : Dev) : State :=
  { s with mem := d.dma.foldl memApply s.mem, dev := { d with dma := [] } }

/-! ### Access to parts of the device -/

/-- Die i. -/
def Dev.die (d : Dev) (i : Nat) : Die := d.dies.getD i {}

/-- d with die i changed. -/
def Dev.onDie (d : Dev) (i : Nat) (f : Die → Die) : Dev := { d with dies := d.dies.modify i f }

/-- Fault collector of die i. -/
def Dev.fc (d : Dev) (i : Nat) : Collector := (d.die i).fc

/-- d with the collector of die i changed. -/
def Dev.onFc (d : Dev) (i : Nat) (f : Collector → Collector) : Dev := d.onDie i fun x => { x with fc := f x.fc }

/-- d with the chapter counters of die i changed. -/
def Dev.onCtrs (d : Dev) (i : Nat) (f : DieCtrs → DieCtrs) : Dev := d.onDie i fun x => { x with ctrs := f x.ctrs }

/-- d with the pool and integrity counters of die i changed. -/
def Dev.onInteg (d : Dev) (i : Nat) (f : IntCtrs → IntCtrs) : Dev := d.onDie i fun x => { x with integ := f x.integ }

/-- Physical cluster c of die i. -/
def Dev.cluster (d : Dev) (i c : Nat) : Cluster := (d.die i).clusters.getD c {}

/-- d with physical cluster c of die i changed. -/
def Dev.onCluster (d : Dev) (i c : Nat) (f : Cluster → Cluster) : Dev :=
  d.onDie i fun x => { x with clusters := x.clusters.modify c f }

/-- Physical indices (cluster, core) of a logical core, when both are mapped (R11). -/
def Dev.physical (d : Dev) (c : CoreRef) : Option (Nat × Nat) :=
  let pc := (d.die c.die).map.getD c.cluster 0xF
  let pk := (d.cluster c.die pc).map.getD c.core 0xF
  if pc < 9 ∧ pk < 9 then some (pc, pk) else none

/-- The core behind a logical number. -/
def Dev.core (d : Dev) (c : CoreRef) : Core :=
  match d.physical c with
  | some (pc, pk) => (d.cluster c.die pc).cores.getD pk {}
  | none => {}

/-- d with the core behind a logical number changed. -/
def Dev.onCore (d : Dev) (c : CoreRef) (f : Core → Core) : Dev :=
  match d.physical c with
  | some (pc, pk) => d.onCluster c.die pc fun x => { x with cores := x.cores.modify pk f }
  | none => d

/-- Ethernet port p. -/
def Dev.port (d : Dev) (p : Nat) : EthPort := d.ports.getD p {}

/-- d with Ethernet port p changed. -/
def Dev.onPort (d : Dev) (p : Nat) (f : EthPort → EthPort) : Dev := { d with ports := d.ports.modify p f }

/-- The job of a handle. -/
def Dev.job (d : Dev) (h : Nat) : Option Job := d.jobs.find? fun j => j.handle == h

/-- d with the job of a handle changed. -/
def Dev.onJob (d : Dev) (h : Nat) (f : Job → Job) : Dev := { d with jobs := updWhere d.jobs (fun j => j.handle == h) f }

/-- The rank r of a job. -/
def Job.rank (j : Job) (r : Nat) : Option Rank := j.ranks.find? fun x => x.rank == r

/-- j with rank r changed. -/
def Job.onRank (j : Job) (r : Nat) (f : Rank → Rank) : Job :=
  { j with ranks := updWhere j.ranks (fun x => x.rank == r) f }

/-- d with a rank changed. -/
def Dev.onRank (d : Dev) (h r : Nat) (f : Rank → Rank) : Dev := d.onJob h fun j => j.onRank r f

/-- The rank an item belongs to. -/
def Dev.rank (d : Dev) (h r : Nat) : Option Rank := (d.job h).bind fun j => j.rank r

/-- The window entry an item reference names. -/
def Dev.entry (d : Dev) (i : ItemRef) : Option Entry :=
  (d.rank i.job i.rank).bind fun r => r.window.find? fun e => e.q == i.q && e.epoch == i.epoch

/-- d with one window entry changed. -/
def Dev.onEntry (d : Dev) (i : ItemRef) (f : Entry → Entry) : Dev :=
  d.onRank i.job i.rank fun r => { r with window := updWhere r.window (fun e => e.q == i.q && e.epoch == i.epoch) f }

/-- d with the counters of a job changed. -/
def Dev.onJobCtrs (d : Dev) (h : Nat) (f : JobCtrs → JobCtrs) : Dev := d.onJob h fun j => { j with ctrs := f j.ctrs }

/-- d with the sample store changed. -/
def Dev.onStore (d : Dev) (f : Store → Store) : Dev := { d with store := f d.store }

/-- d with one partition changed. -/
def Dev.onPart (d : Dev) (p : Nat) (f : Partition → Partition) : Dev :=
  d.onStore fun s => { s with parts := s.parts.modify p f }

/-- Partition p. -/
def Dev.part (d : Dev) (p : Nat) : Partition := d.store.parts.getD p {die := p}

/-- Dies neither in their safe state nor retired. -/
def Dev.dieUp (d : Dev) (i : Nat) : Bool := i < 8 && !(d.die i).safe && !(d.die i).retired

/-- DIES mask of DEV_IDENTIFY: dies in service (R588). -/
def Dev.diesMask (d : Dev) : Nat := (List.range 8).foldl (fun a i => a + b2n (d.dieUp i) * 2 ^ i) 0

/-- Ethernet port p runs: its die is in service and its ETH domain is on (Table 19.5). -/
def Dev.ethUp (d : Dev) (p : Nat) : Bool := d.dieUp (p / 2) && (d.die (p / 2)).domains.getLsbD 13

/-- Management bus b of die i has its segment isolated (R608). -/
def Dev.busIsolated (d : Dev) (i b : Nat) : Bool := ((d.die i).mbus[b]?).any fun x => x.isolate || x.autoIsolated

/-- The time moved to an instant, never backwards (log entry 2). -/
def Dev.until (d : Dev) (t : Nat) : Dev := { d with clk := { d.clk with now := max d.clk.now t } }

/-- PTP time now, ns. -/
def Dev.now (d : Dev) : Nat := d.clk.now

/-! ### Device accesses to memory -/

/-- The mask is armed and covers n bytes at byte offset off of a memory (R510). -/
def Flip.covers (f : Flip) (dram : Bool) (memory off n : Nat) : Bool :=
  f.armed && (bit f.target.toNat 0 == dram) && bits f.target.toNat 19 4 == memory &&
    decide (f.addr.toNat < off + n ∧ off < f.addr.toNat + f.len.toNat)

/-- One more write affected (R510). -/
def Flip.used (f : Flip) : Flip :=
  let r := f.remaining - 1
  { f with remaining := r, armed := r != 0 }

/-- Bytes a flip mask turns in a 32 B DRAM word: data and check bytes (R504, R510). -/
def Flip.bytesOf (f : Flip) : Nat :=
  let touched := fun (v n : Nat) => ((List.range n).filter fun i => v / 256 ^ i % 256 != 0).length
  (f.data.map fun w => touched w.toNat 8).sum + touched (f.check.toNat % 2 ^ 32) 4

/-- Bytes of a pseudo-channel pair: a stack's 64 GiB over 32 pairs, pair after pair (R507; DESIGN CHOICE, log entry 51). -/
def pairBytes : Nat := 2 ^ 31

/-- Check bits of the DRAM words a write touches, from word n on: errors planted before are gone, and an armed mask plants its own
(R504, R510). -/
def plantWords (pair : Nat) : Nat → Nat → Flip × Scb → Flip × Scb
  | 0, _, x => x
  | n + 1, off, (f, b) =>
    let b := { b with planted := b.planted.filter fun p => !(p.1 && p.2.1 == pair && p.2.2.1 == off) }
    if f.covers true pair off 32 && f.bytesOf != 0 then plantWords pair n (off + 32) (f.used, { b with planted := b.planted ++ [(true, pair, off, f.bytesOf)] })
    else if f.covers true pair off 32 then plantWords pair n (off + 32) (f.used, b)
    else plantWords pair n (off + 32) (f, b)

/-- A write of len bytes at an offset of a stack meets the flip mask; with nothing armed or planted it changes nothing. -/
def Die.dramPlant (x : Die) (off len : Nat) : Die :=
  if x.flip.armed = false ∧ x.scb.planted = [] then x
  else
    let first := off / 32 * 32
    let r := plantWords (off / pairBytes) ((off + len + 31 - first) / 32) (first % pairBytes) (x.flip, x.scb)
    { x with flip := r.1, scb := r.2 }

/-- A write to package DRAM; a stack whose die is in its safe state drops it (R531 step 1). -/
def Dev.dramWrite (d : Dev) (a : Nat) (b : Bytes) : Dev :=
  if (d.die (a / 2 ^ 36)).safe then d
  else
    let d := d.onDie (a / 2 ^ 36) fun x => x.dramPlant (a % 2 ^ 36) b.length
    { d with dma := d.dma ++ [{ space := .dram, addr := a, bytes := b }] }

/-- The environment refuses a host access overlapping [a, a + len) of a port (R579, R481): the error it gives. -/
def Dev.hostRefused (d : Dev) (port a len : Nat) (write : Bool) : Option Nat :=
  (d.env.refuse.find? fun r => r.port == port && decide (a < r.hi) && decide (r.lo < a + len) &&
    (if write then r.writes else r.reads)).map fun r => r.error

/-- len bytes of host memory through a port, none where the port refuses the read (R579). -/
def hostRead (m : Mem) (d : Dev) (port a len : Nat) : Option Bytes :=
  match d.hostRefused port a len false with
  | some _ => none
  | none => some ((List.range len).map fun i => cellsGet m.host (hostKey port (a + i)))

/-- n bytes the manual leaves undefined, and the counter moved past them. -/
def Dev.freeBytes (d : Dev) (n : Nat) : Bytes × Dev :=
  ((List.range n).map fun i => Config.freeByte (d.free + i), { d with free := d.free + n })

/-- Bytes to host memory, as one write. -/
def Dev.hostPut (d : Dev) (port a : Nat) (b : Bytes) : Dev :=
  { d with dma := d.dma ++ [{ space := .host, addr := hostKey port a, bytes := b }] }

/-- A result written into a host buffer of bufLen bytes at a. A refused write leaves the whole buffer undefined and
answers false (R579). -/
def Dev.hostWrite (d : Dev) (port a bufLen : Nat) (b : Bytes) : Dev × Bool :=
  match d.hostRefused port a b.length true with
  | none => (d.hostPut port a b, true)
  | some _ => let (x, d) := d.freeBytes bufLen; (d.hostPut port a x, false)

/-- An MSI-X message through a trained port (R473, R576). -/
def Dev.msix (d : Dev) (port vector : Nat) : Dev :=
  { d with pins := { d.pins with msix := d.pins.msix ++ [(port, vector)] } }

/-! ### Pins that follow fault state -/

/-- A die holds an unacknowledged record of severity DEGRADED or above (R534, R606). -/
def Die.alerting (x : Die) : Bool :=
  (x.fc.ring ++ x.fc.aon).any fun r => decide (3 ≤ r.severity) && decide (x.fc.alertAcked < r.seq)

/-- SAFE_N and ALERT_N follow the collectors once Roist drives them at step 6 of start-up (R534, Table 19.4). -/
def Dev.drivePins (d : Dev) : Dev :=
  if d.seqs.step < 6 then d
  else { d with pins := { d.pins with safeN := d.dies.any (·.safe), alertN := d.dies.any Die.alerting } }

/-- Lanes of PCIe port k follow its dies: the port is not trained while die 2k is safe or retired (R18). -/
def Dev.trainPorts (d : Dev) : Dev :=
  { d with pins := { d.pins with trained := (List.range 4).map fun k => d.pins.trained.getD k false && d.dieUp (2 * k) } }

/-! ### Severities (R522, Table 18.2) -/

/-- Unit kinds defined by Table 18.2. -/
def kindDefined (k : Nat) : Bool := decide (1 ≤ k ∧ k ≤ 0x12)

/-- Default severity of an uncorrectable fault or hang of a unit kind on a die (Table 18.2). -/
def kindDefault (k die : Nat) : Nat :=
  if k = 0x06 ∨ k = 0x08 ∨ k = 0x09 ∨ k = 0x0A ∨ k = 0x10 ∨ k = 0x12 then 3
  else if k = 0x0B then 6
  else if k = 0x0E then 7
  else if k = 0x0F then (if die = 0 then 7 else 6)
  else if k = 0x11 then 1
  else 5

/-- Floor of a unit kind (Table 18.2). -/
def kindFloor (k : Nat) : Nat :=
  if k = 0x01 ∨ k = 0x05 then 4
  else if k = 0x06 ∨ k = 0x08 ∨ k = 0x09 ∨ k = 0x10 ∨ k = 0x12 then 1
  else if k = 0x0A then 3
  else if k = 0x0B then 6
  else if k = 0x11 then 0
  else 5

/-- Kinds whose severity never changes (Table 18.2). -/
def kindFixed (k : Nat) : Bool := k == 0x0E || k == 0x0F

/-- Conditions corrected where they are found: CORRECTED by default, floor IGNORE (R522). -/
def correctedStatuses : List Status :=
  [St.INT_SRAM_CORRECTED, St.INT_DRAM_CORRECTED, St.INT_ROW_REPAIRED, St.INT_CHECK_REPAIRED, St.MED_PAGE_REBUILT]

/-- Conditions a chapter reports at NOTE (R336, R429, R449, R500, R509, R530, R538, R540, R628, R637). -/
def noteStatuses : List Status :=
  [St.STO_UNCLEAN_LOSS, St.MED_BLOCK_RETIRED, St.INT_SCRUB_SLOW, St.FLT_LEASE_BROKEN, St.FLT_DEAD_LETTER_OVERWRITTEN,
   St.FLT_MBUS_RECOVERED, St.RSTP_BACKUP_LOST, St.RSTP_START_TIMEOUT, St.RSTP_POWER_GLITCH,
   St.BUF_DOUBLE_FREE, St.BUF_NOT_LAST_OWNER, St.BUF_HANDLE_BAD,
   St.CUR_RETRY_EXCEEDED, St.CUR_RNR_EXCEEDED, St.CUR_TIMEOUT, St.CUR_REMOTE_ACCESS, St.CUR_REMOTE_INVALID,
   St.CUR_REMOTE_OP, St.CUR_WAIT_BROKEN, St.CUR_FLUSHED]

/-- Conditions a chapter reports at DEGRADED. -/
def degradedStatuses : List Status :=
  [St.DSP_GATES_REVERTED, St.SYN_TIME_OFFSET, St.STO_JOURNAL_SINGLE, St.STO_REBUILD, St.STO_PARTITION_UNSERVED,
   St.MED_NO_STANDIN, St.MED_GROUP_LOST, St.MED_LUN_RETIRED, St.MED_SURPRISE_REMOVAL, St.INT_SETTLE_BYTES,
   St.INT_SETTLE_UNDECIDED, St.FLT_ACCOUNTING, St.FLT_MBUS_STUCK, St.RSTP_CFG_NONE, St.RSTP_IMAGE_FALLBACK,
   St.RSTP_CFG_WRITE_FAILED, St.RSTP_CAP_UNMET]

/-- Default severity of a status code reported by a unit kind on a die (Table 18.2 and the owning chapters). -/
def defaultSeverity (st : Status) (k die : Nat) : Nat :=
  if kindFixed k then kindDefault k die
  else if st = St.FLT_THERMTRIP then 7
  else if correctedStatuses.contains st then 2
  else if noteStatuses.contains st then 1
  else if degradedStatuses.contains st then 3
  else if st = St.FLT_WATCHDOG then 5
  else kindDefault k die

/-- Lowest severity FLT_SET_SEVERITY may give (R522). -/
def severityFloor (st : Status) (k : Nat) : Nat := if correctedStatuses.contains st then 0 else kindFloor k

/-- A pair whose severity cannot change: the fixed kinds, and FLT_THERMTRIP (R625). -/
def severityFixed (st : Status) (k : Nat) : Bool := kindFixed k || st == St.FLT_THERMTRIP

/-- Severity in force for a status code and unit kind on a die (R521, R522). -/
def Dev.severityOf (d : Dev) (st : Status) (k die : Nat) : Nat :=
  match (d.fc die).severities.find? fun x => x.1 == st && x.2.1 == k with
  | some x => x.2.2
  | none => defaultSeverity st k die

/-! ### Fault records and reports (R521 to R534) -/

/-- Logical core number of a physical core, or all ones (R12, R521). -/
def logicalOf (l : List Nat) (p : Nat) : Nat := if p = 0xF then 0xF else (l.findIdx? (· == p)).getD 0xF

/-- LOGICAL or PHYSICAL of Table 18.1. -/
def packUnit (die cl co slot : Nat) : BitVec 16 :=
  BitVec.ofNat 16 (die % 8 + cl % 16 * 8 + co % 16 * 128 + slot % 16 * 2048)

/-- PHYSICAL of a unit (Table 18.1). -/
def physicalField (u : UnitRef) : BitVec 16 := packUnit u.die u.cluster u.core u.slot

/-- LOGICAL of a unit: a spare in service carries the number it replaces (R521). -/
def Dev.logicalField (d : Dev) (u : UnitRef) : BitVec 16 :=
  let x := d.die u.die
  let cl := logicalOf x.map u.cluster
  let co := if u.core = 0xF then 0xF else logicalOf (d.cluster u.die u.cluster).map u.core
  let core := (d.cluster u.die u.cluster).cores.getD u.core {}
  let slot := match core.spareEngines.find? fun p => p.1 == u.slot with
    | some p => p.2
    | none => u.slot
  packUnit u.die cl co slot

/-- v plus 1, no higher than 2^32 − 1. -/
def satSucc (v : BitVec 32) : BitVec 32 := if v = 0xFFFFFFFF then v else v + 1

/-- Bit v of SEVERITY_SEEN set, and the report counted (R524, R543). -/
def Collector.seenAt (c : Collector) (v : Nat) : Collector :=
  { c with seen := c.seen ||| (1 <<< v), ctrs := { c.ctrs with bySeverity := c.ctrs.bySeverity.modify v (· + 1) } }

/-- A record enters the collector: SEQ taken, ring and always-on records, first capture, FC_NEXT (R521, R524, R526). -/
def Collector.record (c : Collector) (r : FaultRec) : Collector :=
  let full := decide (65536 ≤ c.ring.length)
  { c with
    seqNext := c.seqNext + 1
    ring := (if full then c.ring.tail else c.ring) ++ [r]
    logOverwrite := c.logOverwrite || full
    ctrs := if full then { c.ctrs with logOverwritten := c.ctrs.logOverwritten + 1 } else c.ctrs
    aon := (if 64 ≤ c.aon.length then c.aon.tail else c.aon) ++ [r]
    first := match c.first with | none => some r | some f => some f
    next := if c.first.isSome then satSucc c.next else c.next
    todo := if 3 ≤ r.severity then c.todo ++ [r] else c.todo }

/-- A die enters its safe state (R531, Table 18.5). The moves of its work follow with FAULT_HANDLING and
PARTITION_TAKEOVER. -/
def Dev.dieSafe (d : Dev) (i : Nat) (noRestart : Bool) : Dev :=
  let d := d.onDie i fun x => { x with safe := true, noRestart := x.noRestart || noRestart }
  d.trainPorts.drivePins

/-- The package enters its safe state after a FATAL report (R533), and the dump begins (R541). -/
def Dev.packageSafe (d : Dev) (st : Status) : Dev :=
  let d := { d with
    dies := d.dies.map fun (x : Die) => { x with safe := true, noRestart := true }
    seqs := if d.seqs.pkgSafe then d.seqs
      else { d.seqs with pkgSafe := true, fatalAt := some d.now, fatalStatus := st, dumpAt := none } }
  d.trainPorts.drivePins

/-- Severity applied to a report: die 0 in its safe state takes the package with it, so DIE there is FATAL (R19, R532). -/
def Dev.severityApplied (d : Dev) (st : Status) (u : UnitRef) : Nat :=
  let v := d.severityOf st u.kind u.die
  if v = 6 ∧ u.die = 0 then 7 else v

/-- One report reaches the collector of its die at a given severity (R521 to R533). -/
def Dev.reportAt (d : Dev) (v : Nat) (st : Status) (u : UnitRef) (detail : BitVec 64) (injected : Bool) : Dev :=
  if v = 0 then (d.onFc u.die fun c => c.seenAt 0).drivePins
  else
    let c := d.fc u.die
    let r : FaultRec :=
      { seq := c.seqNext, time := d.now, status := st, severity := v, first := c.first.isNone, injected := injected,
        fixed := severityFixed st u.kind, kind := u.kind, logical := d.logicalField u, physical := physicalField u,
        detail := detail }
    let d := d.onFc u.die fun c => (c.seenAt v).record r
    let d := if v = 5 then d.onFc u.die fun c =>
        { c with fenced := if c.fenced.contains u then c.fenced else c.fenced ++ [u] } else d
    let d := if v = 6 then d.dieSafe u.die false else d
    let d := if v = 7 then d.packageSafe st else d
    d.drivePins

/-- A unit reports a status code (R521). -/
def Dev.report (d : Dev) (st : Status) (u : UnitRef) (detail : BitVec 64 := 0) (injected : Bool := false) : Dev :=
  d.reportAt (d.severityApplied st u) st u detail injected

/-- Conditions found before the collector records wait for step 6 of start-up (R637). -/
def Dev.reportReset (d : Dev) (st : Status) : Dev :=
  if d.seqs.step < 6 then { d with seqs := { d.seqs with deferredFaults := d.seqs.deferredFaults ++ [st] } }
  else d.report st { kind := 0x12, die := 0 }

/-! ### Pigeonhole responses (R576, R578, R581) -/

/-- Pigeonhole p. -/
def Dev.hole (d : Dev) (p : Nat) : Pgh := d.pgh.getD p {}

/-- d with pigeonhole p changed. -/
def Dev.onHole (d : Dev) (p : Nat) (f : Pgh → Pgh) : Dev := { d with pgh := d.pgh.modify p f }

/-- Answer of a pigeonhole command: status, FLAGS[1], DETAIL and body. -/
structure Answer where
  status : Status := St.SUCCESS
  more : Bool := false
  detail : Nat := 0
  body : Bytes := []
  deriving DecidableEq, Repr, Inhabited

/-- A failing answer. -/
def fail (st : Status) (detail : Nat := 0) : Answer := { status := st, detail := detail }

/-- Response header and body (Table 20.2). -/
def responseBytes (opcode seq lastSeq : Nat) (replayed : Bool) (a : Answer) : Bytes :=
  layout 32 [(0, ascii "PGRS"), (4, le 2 1), (6, le 2 opcode), (8, le 4 seq), (12, le 4 a.body.length),
    (16, le 2 a.status.toNat), (18, le 2 (b2n replayed + 2 * b2n a.more)), (20, le 4 lastSeq), (24, le 8 a.detail)]
  ++ a.body

/-- The response area is written, BUSY cleared, DONE set, and the MSI-X message sent (R576). -/
def Dev.respond (d : Dev) (p : Nat) (resp : Bytes) : Dev :=
  let k := p / 32
  let irq := (d.hole p).irqEn
  let d := d.onHole p fun h => { h with busy := false, done := true, response := resp }
  if irq ∧ d.pins.trained.getD k false then d.msix k ((d.pghPorts.getD k {}).vector.toNat) else d

/-- The response of the command pigeonhole p is serving, for its answer. -/
def Dev.responseOf (d : Dev) (p : Nat) (a : Answer) : Bytes :=
  let req := (d.hole p).request
  responseBytes (fld req 6 2) (fld req 8 4) (fld req 8 4) false a

/-- LAST_SEQ, the CRC and the response of the command pigeonhole p is serving are stored (R581). -/
def Dev.storeResponse (d : Dev) (p : Nat) (resp : Bytes) : Dev :=
  d.onHole p fun h => { h with lastSeq := fld h.request 8 4, crc := fld h.request 16 4, stored := resp }

/-- A command executed under R581 answers now: LAST_SEQ, the CRC and the response are stored, and the response written;
after a PORT reset it is stored only (R548, R582). -/
def Dev.answer (d : Dev) (p : Nat) (a : Answer) : Dev :=
  let resp := d.responseOf p a
  let d := d.storeResponse p resp
  if (d.hole p).lost then d.onHole p fun h => { h with busy := false, lost := false }
  else d.respond p resp

/-- The answer of a command that waited, when there is one (R548). -/
def Dev.answerTo (d : Dev) (p : Option Nat) (a : Answer) : Dev :=
  match p with
  | some p => d.answer p a
  | none => d

end Sys2Proof.Machine
end

