-- ==== Sys2Proof/Machine/Power.lean ====
section
/-! DEFINITION. The power cap and the sort clock it moves (R24 to R26, R563, R564). -/

namespace Sys2Proof.Machine

open Sys2Proof

/-- 24 hours, ns (R540, R564). -/
def dayNs : Nat := 86400000000000

/-- Tj: the hottest junction sensor read (R26, R625). -/
def Dev.tj (d : Dev) : Option Int := match d.pwr.junctions with
  | [] => none
  | x :: xs => some (xs.foldl (fun a y => max a y.2) x.2)

/-- Tj has reached a temperature. -/
def Dev.tjAtLeast (d : Dev) (t : Int) : Bool := match d.tj with
  | some v => decide (t ≤ v)
  | none => false

/-- Regulator actions in force: those whose margin has not been above its level for 24 h, and bus 3 of die 0 isolated (R564, R627). -/
def Dev.actionsInForce (d : Dev) : Nat :=
  let live := d.pwr.regActions.filter fun x => match x.2 with
    | some t => decide (d.now < t + dayNs)
    | none => true
  live.length + b2n (d.busIsolated 0 3)

/-- Effective cap, W: the set cap less a tenth of it for each action, at least 900 (R564). -/
def Dev.effectiveCap (d : Dev) : Nat := max 900 (d.pwr.setCap * (10 - d.actionsInForce) / 10)

/-- The clock the next boundary brings into force. -/
def Dev.sortNext (d : Dev) : Nat := d.pwr.nextMhz.getD d.pwr.sortMhz

/-- What Roist does about power at a tick boundary: one 25 MHz step down above the effective cap or at 105 °C, one up towards the
profile after 100 ms below 97 % of it (R26, R564). -/
def Dev.powerStep (d : Dev) : Dev :=
  let cap := d.effectiveCap
  let mhz := d.sortNext
  if cap < d.pwr.avgW ∨ d.tjAtLeast 105 then
    let pwr := { d.pwr with belowSince := none }
    if mhz ≤ 800 then { d with pwr := pwr }
    else { d with pwr := { pwr with nextMhz := some (max 800 (mhz - 25)), throttleSteps := pwr.throttleSteps + 1 } }
  else if 100 * d.pwr.avgW < 97 * cap then
    let since := d.pwr.belowSince.getD d.now
    if mhz < d.pwr.profileMhz ∧ since + 100000000 ≤ d.now then
      { d with pwr := { d.pwr with belowSince := some since, nextMhz := some (min d.pwr.profileMhz (mhz + 25)), unmetReported := false } }
    else { d with pwr := { d.pwr with belowSince := some since } }
  else { d with pwr := { d.pwr with belowSince := none } }

/-- CAP_UNMET (R564): still above the effective cap after 1 s at 0.8 GHz; reported once until the clock rises. -/
def capUnmetEffect (_m : Mem) (d : Dev) : Dev :=
  if d.pwr.sortMhz = 800 ∧ d.pwr.unmetReported = false then
    ({ d with pwr := { d.pwr with unmetReported := true } }).report St.RSTP_CAP_UNMET { kind := 0x12, die := 0 }
  else d

/-- Power beyond the cap at the slowest clock. -/
def execCapUnmet (s : State) : Host.Outcome State Fault Refusal := .next (s.put (capUnmetEffect s.mem s.dev))

end Sys2Proof.Machine
end

