-- ==== Sys2Proof/Machine/Buffers.lean ====
section
/-! DEFINITION. Buffer pools (17): classes, free rings, cluster caches, quotas, grants, and the end of holds. -/

namespace Sys2Proof.Machine

open Sys2Proof

/-- Buffer size of a DRAM class (Table 17.1). -/
def classBytes (c : Nat) : Nat := [4096, 65536, 1048576, 16777216].getD c 0

/-- Sixteenths of the pool region a DRAM class takes (Table 17.1). -/
def classShare (c : Nat) : Nat := [1, 3, 4, 8].getD c 0

/-- Classes of the buffers that L bytes take: the smallest class that holds them, or 16 MiB extents and an extent table
(R491). -/
def classesFor (l : Nat) : List Nat :=
  if l ≤ 4096 then [0]
  else if l ≤ 65536 then [1]
  else if l ≤ 1048576 then [2]
  else if l ≤ 16777216 then [3]
  else List.replicate ((l + 16777215) / 16777216) 3 ++ [0]

/-- Classes of every buffer of an allocation. -/
def classesAll (sizes : List Nat) : List Nat := sizes.flatMap classesFor

/-- Sizes of an allocation. -/
def BufWait.sizes (w : BufWait) : List Nat := w.parts.map (·.2)

/-- The item whose path buffer a use is. -/
def Use.itemOf : Use → Option ItemRef
  | .item i _ => some i
  | _ => none

/-- The item an allocation is for. -/
def BufWait.itemOf (w : BufWait) : Option ItemRef := (w.parts.head?).bind fun p => p.1.itemOf

/-- Bytes an allocation charges to its quota: full sizes, extent tables included (R491). -/
def chargeOf (sizes : List Nat) : Nat := ((classesAll sizes).map classBytes).sum

/-- Buffers of a class in a pool (R490). -/
def Pool.count (x : Pool) (c : Nat) : Nat := x.bytes * classShare c / 16 / classBytes c

/-- Class of a buffer handle (Table 17.2). -/
def handleClass (h : BitVec 64) : Nat := bits h.toNat 28 26

/-- Stack of a buffer handle (Table 17.2). -/
def handleStack (h : BitVec 64) : Nat := bits h.toNat 31 29

/-- Index of a buffer handle (Table 17.2). -/
def handleIndex (h : BitVec 64) : Nat := bits h.toNat 25 0

/-- Generation of a buffer handle (Table 17.2). -/
def handleGen (h : BitVec 64) : Nat := bits h.toNat 51 36

/-- A DRAM buffer handle (Table 17.2). -/
def bufHandle (stack cls index gen : Nat) : BitVec 64 :=
  BitVec.ofNat 64 (index + cls * 2 ^ 26 + stack * 2 ^ 29 + gen % 65536 * 2 ^ 36)

/-- Bytes charged to a requester in a pool. -/
def Pool.charged (x : Pool) (r : Nat) : Nat :=
  ((x.bufs.filter fun b => b.requester == r).map fun b => classBytes (handleClass b.handle)).sum

/-- RESERVE and LIMIT of a requester in one stack (R496, Table 17.4). -/
def Dev.quota (d : Dev) (r : Nat) : Nat × Nat :=
  if r = 0 then (2 ^ 30, 4 * 2 ^ 30)
  else if r = 1 then (512 * 2 ^ 20, 4 * 2 ^ 30)
  else if r = 2 then (256 * 2 ^ 20, 256 * 2 ^ 20)
  else if r = 3 then (256 * 2 ^ 20, 2 * 2 ^ 30)
  else match d.job (r - 4) with
    | some j => (j.bufReserve * 2 ^ 20, j.bufLimit * 2 ^ 20)
    | none => (0, 0)

/-- Sum of the RESERVEs of Table 17.4. -/
def systemReserve : Nat := 2 ^ 31

/-- Free buffers of a class that an allocation of a cluster can take: the ring's, and its own cache's (R494, R495). -/
def Dev.freeOf (d : Dev) (stack : Nat) (cluster : Option Nat) (c : Nat) : Nat :=
  let x := (d.die stack).pool
  x.count c - x.fresh.getD c 0 + (x.returned.getD c []).length +
    match cluster with
    | some k => ((d.cluster stack k).cache.getD c []).length
    | none => 0

/-- Every class of an allocation has buffers enough. -/
def Dev.poolHas (d : Dev) (stack : Nat) (w : BufWait) : Bool :=
  let cs := classesAll w.sizes
  (List.range 4).all fun c => decide (cs.count c ≤ d.freeOf stack w.cluster c)

/-- An allocation stays within its requester's RESERVE (R497). -/
def Dev.withinReserve (d : Dev) (stack : Nat) (w : BufWait) : Bool :=
  decide ((d.die stack).pool.charged w.requester + chargeOf w.sizes ≤ (d.quota w.requester).1)

/-- An item of the job other than this one holds path buffers while the job is beyond its LIMIT (R498). -/
def Dev.otherBeyond (d : Dev) (stack : Nat) (w : BufWait) : Bool :=
  let x := (d.die stack).pool
  decide ((d.quota w.requester).2 < x.charged w.requester) &&
    x.bufs.any fun b => b.requester == w.requester && b.use.itemOf.isSome && b.use.itemOf != w.itemOf

/-- An allocation may be granted now: within LIMIT, or one item of a job beyond it (R496, R498), and the buffers exist. -/
def Dev.grantable (d : Dev) (stack : Nat) (w : BufWait) : Bool :=
  let within := decide ((d.die stack).pool.charged w.requester + chargeOf w.sizes ≤ (d.quota w.requester).2)
  let beyond := w.itemOf.isSome && !d.otherBeyond stack w
  d.poolHas stack w && (within || beyond)

/-- A buffer of class c taken from the ring's head: indices never used first, then returned ones in order (R494). -/
def Pool.pop (x : Pool) (c : Nat) : Option FreeBuf × Pool :=
  let f := x.fresh.getD c 0
  if f < x.count c then (some { index := f, gen := 0 }, { x with fresh := x.fresh.set c (f + 1) })
  else match x.returned.getD c [] with
    | b :: r => (some b, { x with returned := x.returned.set c r })
    | [] => (none, x)

/-- n buffers from the ring's head, as many as it has. -/
def Pool.popMany (c : Nat) : Nat → Pool → List FreeBuf × Pool
  | 0, x => ([], x)
  | n + 1, x =>
    match x.pop c with
    | (some b, x) => let r := popMany c n x; (b :: r.1, r.2)
    | (none, x) => ([], x)

/-- Buffers return to the ring's tail (R494). -/
def Pool.push (x : Pool) (c : Nat) (bs : List FreeBuf) : Pool := { x with returned := x.returned.modify c (· ++ bs) }

/-- d with the pool of a stack changed. -/
def Dev.onPool (d : Dev) (stack : Nat) (f : Pool → Pool) : Dev := d.onDie stack fun x => { x with pool := f x.pool }

/-- A cluster's cache refilled with 32 buffers of a class from the ring when it holds 8 or fewer (R495). -/
def Dev.refill (d : Dev) (stack k c : Nat) : Dev :=
  if 8 < ((d.cluster stack k).cache.getD c []).length then d
  else
    let r := (d.die stack).pool.popMany c 32
    (d.onPool stack fun _ => r.2).onCluster stack k fun x => { x with cache := x.cache.modify c (· ++ r.1) }

/-- A free buffer of class c for an allocation: from the cluster's cache, else from the ring (R494, R495). -/
def Dev.takeBuf (d : Dev) (stack : Nat) (cluster : Option Nat) (c : Nat) : Option FreeBuf × Dev :=
  match cluster with
  | some k =>
    let d := d.refill stack k c
    match (d.cluster stack k).cache.getD c [] with
    | b :: r => (some b, (d.onCluster stack k fun x => { x with cache := x.cache.set c r }).refill stack k c)
    | [] => (none, d)
  | none => let r := (d.die stack).pool.pop c; (r.1, d.onPool stack fun _ => r.2)

/-- The buffers of an allocation are taken, HOLDS 1, charged to its requester (R499). -/
def Dev.grant (d : Dev) (stack : Nat) (w : BufWait) : Dev :=
  w.parts.foldl (fun d p => (classesFor p.2).foldl (fun d c =>
    match d.takeBuf stack w.cluster c with
    | (some b, d) => d.onPool stack fun x => { x with bufs := x.bufs ++
        [{ handle := bufHandle stack c b.index b.gen, requester := w.requester, lastOwner := w.owner, use := p.1 }] }
    | (none, d) => d) d) d

/-- An allocation goes ahead of the present waiters: there is none, or it stays within its RESERVE and no waiter does
(R497). -/
def Dev.ahead (d : Dev) (stack : Nat) (w : BufWait) : Bool :=
  let ws := (d.die stack).pool.waits
  ws.isEmpty || (d.withinReserve stack w && !(ws.any fun x => d.withinReserve stack x))

/-- Buffers are held for a use. -/
def Dev.holdsFor (d : Dev) (stack : Nat) (u : Use) : Bool := (d.die stack).pool.bufs.any fun b => b.use == u

/-- An allocation waits for a use. -/
def Dev.waitsFor (d : Dev) (stack : Nat) (u : Use) : Bool := (d.die stack).pool.waits.any fun w => w.parts.any fun p => p.1 == u

/-- An allocation is made: granted at once, or it joins the waiters and BUF_WAITS rises (R497). An allocation that already
waits stays where it is. -/
def Dev.allocate (d : Dev) (stack : Nat) (w : BufWait) : Dev × Bool :=
  if w.parts.all fun p => d.holdsFor stack p.1 then (d, true)
  else if w.parts.any fun p => d.waitsFor stack p.1 then (d, false)
  else if d.ahead stack w && d.grantable stack w then (d.grant stack w, true)
  else
    let d := (d.onPool stack fun x => { x with waits := x.waits ++ [w] }).onInteg stack fun c => { c with bufWaits := c.bufWaits + 1 }
    (if 4 ≤ w.requester then d.onJobCtrs (w.requester - 4) fun c => { c with bufWaits := c.bufWaits + 1 } else d, false)

/-- The waiter granted next in a stack: the first that stays within its RESERVE, else the first of all, where its grant is
possible (R497). -/
def Dev.nextWaiter (d : Dev) (stack : Nat) : Option BufWait :=
  let ws := (d.die stack).pool.waits
  match ws.find? fun w => d.withinReserve stack w && d.grantable stack w with
  | some w => some w
  | none => match ws with
    | w :: _ => if d.grantable stack w then some w else none
    | [] => none

/-- The waiter whose turn it is gets its buffers; nothing happens while none can be granted (R491, R494 to R498). -/
def Dev.grantNext (d : Dev) (stack : Nat) : Dev :=
  match d.nextWaiter stack with
  | some w => (d.onPool stack fun x => { x with waits := x.waits.erase w }).grant stack w
  | none => d

/-- Physical cluster of a unit on the die of a stack, whose cache takes a freed buffer back (R495). -/
def unitCluster (stack : Nat) (u : UnitRef) : Option Nat := if u.die = stack ∧ u.cluster < 9 then some u.cluster else none

/-- A freed buffer goes to the cluster's cache, which returns 32 at 64, or to the ring's tail, with GEN advanced (R493 to
R495). -/
def Dev.returnBuf (d : Dev) (b : Buf) (cluster : Option Nat) : Dev :=
  let st := handleStack b.handle
  let c := handleClass b.handle
  let f : FreeBuf := { index := handleIndex b.handle, gen := (handleGen b.handle + 1) % 65536 }
  let d := d.onPool st fun x => { x with bufs := x.bufs.filter fun y => y.handle != b.handle }
  match cluster with
  | none => d.onPool st fun x => x.push c [f]
  | some k =>
    let d := d.onCluster st k fun x => { x with cache := x.cache.modify c (· ++ [f]) }
    let l := (d.cluster st k).cache.getD c []
    if l.length < 64 then d
    else (d.onCluster st k fun x => { x with cache := x.cache.set c (l.drop 32) }).onPool st fun x => x.push c (l.take 32)

/-- A refused FREE or RELEASE: counted, and given to the collector at NOTE by default with the handle (R500). -/
def Dev.bufRefuse (d : Dev) (st : Status) (h : BitVec 64) (u : UnitRef) : Dev :=
  (d.onInteg u.die fun c => { c with bufRefused := c.bufRefused + 1 }).report st
    { kind := 0x11, die := u.die, cluster := u.cluster, core := u.core, slot := u.slot } h

/-- A handle that no buffer can have (R500). -/
def Dev.badHandle (d : Dev) (h : BitVec 64) : Bool :=
  decide (2 ^ 52 ≤ h.toNat) || decide (4 ≤ handleClass h) || decide (bits h.toNat 35 32 ≠ 0) ||
    decide ((d.die (handleStack h)).pool.count (handleClass h) ≤ handleIndex h)

/-- The buffer a handle names, held with that GEN. -/
def Dev.buf (d : Dev) (h : BitVec 64) : Option Buf := (d.die (handleStack h)).pool.bufs.find? fun b => b.handle == h

/-- FREE by a unit (R499, R500). -/
def Dev.bufFree (d : Dev) (h : BitVec 64) (u : UnitRef) : Dev :=
  if d.badHandle h then d.bufRefuse St.BUF_HANDLE_BAD h u
  else match d.buf h with
    | none => d.bufRefuse St.BUF_DOUBLE_FREE h u
    | some b =>
      if b.lastOwner ≠ u then d.bufRefuse St.BUF_NOT_LAST_OWNER h u
      else if b.holds ≤ 1 ∨ b.pending then d.returnBuf b (unitCluster (handleStack h) u)
      else d.onPool (handleStack h) fun x =>
        { x with bufs := updWhere x.bufs (fun y => y.handle == h) fun y => { y with holds := y.holds - 1, pending := true } }

/-- RELEASE by a unit (R499, R500). -/
def Dev.bufRelease (d : Dev) (h : BitVec 64) (u : UnitRef) : Dev :=
  if d.badHandle h then d.bufRefuse St.BUF_HANDLE_BAD h u
  else match d.buf h with
    | none => d.bufRefuse St.BUF_DOUBLE_FREE h u
    | some b =>
      if b.holds ≤ 1 ∧ b.pending = false then d.bufRefuse St.BUF_NOT_LAST_OWNER h u
      else if b.holds ≤ 1 then d.returnBuf b (unitCluster (handleStack h) u)
      else d.onPool (handleStack h) fun x =>
        { x with bufs := updWhere x.bufs (fun y => y.handle == h) fun y => { y with holds := y.holds - 1 } }

/-- SHARE adds a holder (R499); a buffer has at most 255 (Table 17.14). -/
def Dev.bufShare (d : Dev) (stack : Nat) (u : Use) : Dev :=
  d.onPool stack fun x => { x with bufs := updWhere x.bufs (fun y => y.use == u) fun y => { y with holds := min 255 (y.holds + 1) } }

/-- Every buffer held for a use is given back by its last owner, and a wait for the use ends. -/
def Dev.freeUse (d : Dev) (stack : Nat) (u : Use) : Dev :=
  let d := d.onPool stack fun x => { x with waits := x.waits.filter fun w => !(w.parts.any fun p => p.1 == u) }
  ((d.die stack).pool.bufs.filter fun b => b.use == u).foldl (fun d b => d.bufFree b.handle b.lastOwner) d

/-- The holds a use's buffers were shared with end (R499). -/
def Dev.releaseUse (d : Dev) (stack : Nat) (u : Use) (unit : UnitRef) : Dev :=
  ((d.die stack).pool.bufs.filter fun b => b.use == u && decide (1 < b.holds)).foldl (fun d b => d.bufRelease b.handle unit) d

/-- Roist takes a buffer back whatever HOLDS holds (R501). -/
def Dev.repossess (d : Dev) (b : Buf) : Dev :=
  (d.returnBuf b none).onInteg (handleStack b.handle) fun c => { c with bufRepossessed := c.bufRepossessed + 1 }

/-- Roist takes back every buffer, and ends every wait, that p and q pick out (R501, R529). -/
def Dev.repossessAll (d : Dev) (p : Buf → Bool) (q : BufWait → Bool) : Dev :=
  (List.range 8).foldl (fun d st =>
    let d := d.onPool st fun x => { x with waits := x.waits.filter fun w => !q w }
    ((d.die st).pool.bufs.filter p).foldl Dev.repossess d) d

end Sys2Proof.Machine
end

