-- ==== Sys2Proof/Machine/Digest.lean ====
section
/-! DEFINITION. Checks and digests the manual names: CRC-32C (franking values, frames, records), CRC-32 and Adler-32
(gzip, zlib, PNG), CRC-8 and CRC-16 (FLAC), XXH64 (zstd), SHA-256 and MD5. All over natural numbers below their width. -/

namespace Sys2Proof.Machine

open Sys2Proof

/-! ### Reflected 32-bit CRCs -/

/-- n shift steps of a reflected CRC register. -/
def crcShift (poly : Nat) : Nat → Nat → Nat
  | 0, r => r
  | n + 1, r => crcShift poly n (if r % 2 = 1 then (r / 2) ^^^ poly else r / 2)

/-- The register after one byte. -/
def crcByte (poly r : Nat) (b : Byte) : Nat := crcShift poly 8 (r ^^^ b.toNat)

/-- The register after bytes. -/
def crcRun (poly r : Nat) (b : Bytes) : Nat := b.foldl (crcByte poly) r

/-- Reflected polynomial of CRC-32C. -/
def polyC : Nat := 0x82F63B78

/-- CRC-32C of a byte string: start and final exclusive-or of all ones. -/
def crc32c (b : Bytes) : Nat := crcRun polyC 0xFFFFFFFF b ^^^ 0xFFFFFFFF

/-- CRC-32C of further bytes after a CRC-32C already computed. -/
def crc32cMore (crc : Nat) (b : Bytes) : Nat := crcRun polyC (crc ^^^ 0xFFFFFFFF) b ^^^ 0xFFFFFFFF

/-- CRC-32 of gzip and PNG. -/
def crc32 (b : Bytes) : Nat := crcRun 0xEDB88320 0xFFFFFFFF b ^^^ 0xFFFFFFFF

/-- Adler-32 of zlib. -/
def adler32 (b : Bytes) : Nat :=
  let (s1, s2) := b.foldl (fun (s : Nat × Nat) x =>
    let a := (s.1 + x.toNat) % 65521
    (a, (s.2 + a) % 65521)) (1, 0)
  s2 * 65536 + s1

/-! ### FLAC CRCs, most significant bit first -/

/-- n shift steps of a w-bit register, most significant bit first. -/
def crcShiftM (w poly : Nat) : Nat → Nat → Nat
  | 0, r => r
  | n + 1, r => crcShiftM w poly n (if r / 2 ^ (w - 1) % 2 = 1 then (r * 2 % 2 ^ w) ^^^ poly else r * 2 % 2 ^ w)

/-- CRC-8 of a FLAC frame header, polynomial 0x07. -/
def crc8 (b : Bytes) : Nat := b.foldl (fun r x => crcShiftM 8 0x07 8 (r ^^^ x.toNat)) 0

/-- CRC-16 of a FLAC frame, polynomial 0x8005. -/
def crc16 (b : Bytes) : Nat := b.foldl (fun r x => crcShiftM 16 0x8005 8 (r ^^^ (x.toNat * 256))) 0

/-! ### 32-bit and 64-bit words as numbers -/

/-- Sum modulo 2^32. -/
def add32 (a b : Nat) : Nat := (a + b) % 2 ^ 32

/-- Rotation right of a 32-bit word. -/
def rotr32 (x n : Nat) : Nat := (x / 2 ^ n) ||| (x * 2 ^ (32 - n) % 2 ^ 32)

/-- Rotation left of a w-bit word. -/
def rotl (w x n : Nat) : Nat := (x * 2 ^ n % 2 ^ w) ||| (x / 2 ^ (w - n))

/-- Complement of a 32-bit word. -/
def not32 (x : Nat) : Nat := 0xFFFFFFFF ^^^ x

/-- Groups of n elements. -/
def chunks {α : Type} (n : Nat) : Nat → List α → List (List α)
  | 0, _ => []
  | _, [] => []
  | f + 1, l => l.take n :: chunks n f (l.drop n)

/-- A message padded to whole 64-byte blocks: 0x80, zeros, the bit length in 8 bytes. -/
def padBlocks (b : Bytes) (len8 : Bytes) : List Bytes :=
  let z := (119 - b.length % 64) % 64
  let m := b ++ [0x80] ++ zeros z ++ len8
  chunks 64 (m.length / 64) m

/-- Big-endian bytes. -/
def be (n v : Nat) : Bytes := (le n v).reverse

/-! ### SHA-256 -/

/-- The 64 round constants of SHA-256. -/
def shaK : List Nat :=
  [0x428a2f98, 0x71374491, 0xb5c0fbcf, 0xe9b5dba5, 0x3956c25b, 0x59f111f1, 0x923f82a4, 0xab1c5ed5,
   0xd807aa98, 0x12835b01, 0x243185be, 0x550c7dc3, 0x72be5d74, 0x80deb1fe, 0x9bdc06a7, 0xc19bf174,
   0xe49b69c1, 0xefbe4786, 0x0fc19dc6, 0x240ca1cc, 0x2de92c6f, 0x4a7484aa, 0x5cb0a9dc, 0x76f988da] ++
  [0x983e5152, 0xa831c66d, 0xb00327c8, 0xbf597fc7, 0xc6e00bf3, 0xd5a79147, 0x06ca6351, 0x14292967,
   0x27b70a85, 0x2e1b2138, 0x4d2c6dfc, 0x53380d13, 0x650a7354, 0x766a0abb, 0x81c2c92e, 0x92722c85,
   0xa2bfe8a1, 0xa81a664b, 0xc24b8b70, 0xc76c51a3, 0xd192e819, 0xd6990624, 0xf40e3585, 0x106aa070] ++
  [0x19a4c116, 0x1e376c08, 0x2748774c, 0x34b0bcb5, 0x391c0cb3, 0x4ed8aa4a, 0x5b9cca4f, 0x682e6ff3,
   0x748f82ee, 0x78a5636f, 0x84c87814, 0x8cc70208, 0x90befffa, 0xa4506ceb, 0xbef9a3f7, 0xc67178f2]

/-- Sixteen words extended to 64: the list is kept newest first while it grows. -/
def shaExtend : Nat → List Nat → List Nat
  | 0, w => w.reverse
  | n + 1, w =>
    let w15 := w.getD 14 0
    let w2 := w.getD 1 0
    let s0 := rotr32 w15 7 ^^^ rotr32 w15 18 ^^^ (w15 / 8)
    let s1 := rotr32 w2 17 ^^^ rotr32 w2 19 ^^^ (w2 / 1024)
    shaExtend n (add32 (add32 (w.getD 15 0) s0) (add32 (w.getD 6 0) s1) :: w)

/-- One round of SHA-256 on the eight working words. -/
def shaRound (v : List Nat) (kw : Nat × Nat) : List Nat :=
  match v with
  | [a, b, c, d, e, f, g, h] =>
    let s1 := rotr32 e 6 ^^^ rotr32 e 11 ^^^ rotr32 e 25
    let ch := (e &&& f) ^^^ (not32 e &&& g)
    let t1 := add32 (add32 (add32 h s1) (add32 ch kw.1)) kw.2
    let s0 := rotr32 a 2 ^^^ rotr32 a 13 ^^^ rotr32 a 22
    let mj := (a &&& b) ^^^ (a &&& c) ^^^ (b &&& c)
    [add32 t1 (add32 s0 mj), a, b, c, add32 d t1, e, f, g]
  | v => v

/-- One block of SHA-256. -/
def shaBlock (h : List Nat) (blk : Bytes) : List Nat :=
  let w := shaExtend 48 ((chunks 4 16 blk).map beNat).reverse
  let v := (shaK.zip w).foldl shaRound h
  h.zipWith add32 v

/-- SHA-256 of a byte string, 32 bytes. -/
def sha256 (b : Bytes) : Bytes :=
  let h0 := [0x6a09e667, 0xbb67ae85, 0x3c6ef372, 0xa54ff53a, 0x510e527f, 0x9b05688c, 0x1f83d9ab, 0x5be0cd19]
  ((padBlocks b (be 8 (8 * b.length))).foldl shaBlock h0).flatMap (be 4)

/-! ### MD5 (FLAC STREAMINFO) -/

/-- Round constants of MD5: floor(2^32 |sin(i + 1)|). -/
def md5K : List Nat :=
  [0xd76aa478, 0xe8c7b756, 0x242070db, 0xc1bdceee, 0xf57c0faf, 0x4787c62a, 0xa8304613, 0xfd469501,
   0x698098d8, 0x8b44f7af, 0xffff5bb1, 0x895cd7be, 0x6b901122, 0xfd987193, 0xa679438e, 0x49b40821,
   0xf61e2562, 0xc040b340, 0x265e5a51, 0xe9b6c7aa, 0xd62f105d, 0x02441453, 0xd8a1e681, 0xe7d3fbc8] ++
  [0x21e1cde6, 0xc33707d6, 0xf4d50d87, 0x455a14ed, 0xa9e3e905, 0xfcefa3f8, 0x676f02d9, 0x8d2a4c8a,
   0xfffa3942, 0x8771f681, 0x6d9d6122, 0xfde5380c, 0xa4beea44, 0x4bdecfa9, 0xf6bb4b60, 0xbebfbc70,
   0x289b7ec6, 0xeaa127fa, 0xd4ef3085, 0x04881d05, 0xd9d4d039, 0xe6db99e5, 0x1fa27cf8, 0xc4ac5665] ++
  [0xf4292244, 0x432aff97, 0xab9423a7, 0xfc93a039, 0x655b59c3, 0x8f0ccc92, 0xffeff47d, 0x85845dd1,
   0x6fa87e4f, 0xfe2ce6e0, 0xa3014314, 0x4e0811a1, 0xf7537e82, 0xbd3af235, 0x2ad7d2bb, 0xeb86d391]

/-- One step of MD5: step number and constant. -/
def md5Step (m : List Nat) (v : Nat × Nat × Nat × Nat) (ik : Nat × Nat) : Nat × Nat × Nat × Nat :=
  let (a, b, c, d) := v
  let i := ik.1
  let (f, g, s) :=
    if i < 16 then ((b &&& c) ||| (not32 b &&& d), i, [7, 12, 17, 22])
    else if i < 32 then ((d &&& b) ||| (not32 d &&& c), (5 * i + 1) % 16, [5, 9, 14, 20])
    else if i < 48 then (b ^^^ c ^^^ d, (3 * i + 5) % 16, [4, 11, 16, 23])
    else (c ^^^ (b ||| not32 d), (7 * i) % 16, [6, 10, 15, 21])
  (d, add32 b (rotl 32 (add32 (add32 a f) (add32 ik.2 (m.getD g 0))) (s.getD (i % 4) 0)), b, c)

/-- One block of MD5. -/
def md5Block (h : Nat × Nat × Nat × Nat) (blk : Bytes) : Nat × Nat × Nat × Nat :=
  let v := ((List.range 64).zip md5K).foldl (md5Step ((chunks 4 16 blk).map leNat)) h
  (add32 h.1 v.1, add32 h.2.1 v.2.1, add32 h.2.2.1 v.2.2.1, add32 h.2.2.2 v.2.2.2)

/-- MD5 of a byte string, 16 bytes. -/
def md5 (b : Bytes) : Bytes :=
  let h := (padBlocks b (le 8 (8 * b.length))).foldl md5Block (0x67452301, 0xefcdab89, 0x98badcfe, 0x10325476)
  le 4 h.1 ++ le 4 h.2.1 ++ le 4 h.2.2.1 ++ le 4 h.2.2.2

/-! ### XXH64 with seed 0 (zstd content checksum) -/

/-- Product modulo 2^64. -/
def mul64 (a b : Nat) : Nat := a * b % 2 ^ 64
/-- Sum modulo 2^64. -/
def add64 (a b : Nat) : Nat := (a + b) % 2 ^ 64
/-- The five primes of XXH64. -/
def xxP1 : Nat := 0x9E3779B185EBCA87
def xxP2 : Nat := 0xC2B2AE3D27D4EB4F
def xxP3 : Nat := 0x165667B19E3779F9
def xxP4 : Nat := 0x85EBCA77C2B2AE63
def xxP5 : Nat := 0x27D4EB2F165667C5

/-- One lane round. -/
def xxRound (acc v : Nat) : Nat := mul64 (rotl 64 (add64 acc (mul64 v xxP2)) 31) xxP1
/-- A lane merged into the hash. -/
def xxMerge (h v : Nat) : Nat := add64 (mul64 (h ^^^ xxRound 0 v) xxP1) xxP4

/-- One 32-byte stripe. -/
def xxStripe (a : Nat × Nat × Nat × Nat) (s : Bytes) : Nat × Nat × Nat × Nat :=
  (xxRound a.1 (fld s 0 8), xxRound a.2.1 (fld s 8 8), xxRound a.2.2.1 (fld s 16 8), xxRound a.2.2.2 (fld s 24 8))

/-- The tail: 8-byte, 4-byte and single-byte steps. -/
def xxTail (h : Nat) (t : Bytes) : Nat :=
  let n8 := t.length / 8
  let h := (chunks 8 n8 t).foldl (fun h c => add64 (mul64 (rotl 64 (h ^^^ xxRound 0 (leNat c)) 27) xxP1) xxP4) h
  let t := t.drop (8 * n8)
  let (h, t) := if 4 ≤ t.length then
      (add64 (mul64 (rotl 64 (h ^^^ mul64 (fld t 0 4) xxP1) 23) xxP2) xxP3, t.drop 4) else (h, t)
  t.foldl (fun h b => mul64 (rotl 64 (h ^^^ mul64 b.toNat xxP5) 11) xxP1) h

/-- XXH64 of a byte string. -/
def xxh64 (b : Bytes) : Nat :=
  let n := b.length / 32
  let h :=
    if n = 0 then xxP5
    else
      let a := (chunks 32 n b).foldl xxStripe (add64 xxP1 xxP2, xxP2, 0, 2 ^ 64 - xxP1)
      let h := add64 (add64 (rotl 64 a.1 1) (rotl 64 a.2.1 7)) (add64 (rotl 64 a.2.2.1 12) (rotl 64 a.2.2.2 18))
      xxMerge (xxMerge (xxMerge (xxMerge h a.1) a.2.1) a.2.2.1) a.2.2.2
  let h := xxTail (add64 h (b.length % 2 ^ 64)) (b.drop (32 * n))
  let h := mul64 (h ^^^ h / 2 ^ 33) xxP2
  let h := mul64 (h ^^^ h / 2 ^ 29) xxP3
  h ^^^ h / 2 ^ 32

end Sys2Proof.Machine
end

