-- ==== Sys2Proof/Machine/Route.lean ====
section
/-! DEFINITION. Route binaries: layout, the checks of Table 4.7, paths, bounds and cost estimates (R112 to R124, R280,
R282). Pure functions of the binary. -/

namespace Sys2Proof.Machine

open Sys2Proof

/-! ### Layout (Tables 4.1 to 4.4) -/

/-- An operand (R116). -/
structure Opnd where
  kind : Nat
  index : Nat
  offset : Nat
  len : Nat
  imm : Nat
  /-- bits [7:4] -/
  rsv : Nat
  deriving Repr, DecidableEq, Inhabited

/-- The operand a u64 spells. -/
def opndOf (v : Nat) : Opnd :=
  { kind := v % 16, rsv := v / 16 % 16, index := v / 256 % 256, offset := v / 2 ^ 16 % 2 ^ 24, len := v / 2 ^ 40 % 2 ^ 24,
    imm := v / 2 ^ 16 % 2 ^ 48 }

/-- A stage record (Table 4.3). -/
structure Stage where
  index : Nat
  engine : Nat
  opcode : Nat
  flags : Nat
  mask : Nat
  matched : Nat
  inn : Opnd
  out : Opnd
  params : List Opnd
  costFixed : Nat
  costKib : Nat
  deriving Repr, DecidableEq, Inhabited

/-- A buffer declaration (Table 4.2). -/
structure BufDecl where
  maxLen : Nat
  boundBytes : Nat
  boundScale : Nat
  place : Nat
  estBytes : Nat
  estScale : Nat
  rsv : Nat
  deriving Repr, DecidableEq, Inhabited

/-- A route binary read by its header. -/
structure RouteBin where
  bin : Bytes
  length : Nat
  stageCount : Nat
  bufferCount : Nat
  vocabCount : Nat
  tensorCount : Nat
  flags : Nat
  cardLen : Nat
  constLen : Nat
  semanticsMin : Nat
  acceptMask : Nat
  acceptMatch : Nat
  vocabs : List Bytes
  buffers : List BufDecl
  stages : List Stage
  consts : Bytes
  deriving Repr, DecidableEq, Inhabited

/-- Parameter n of a stage. -/
def Stage.param (s : Stage) (n : Nat) : Opnd := s.params.getD n default

/-- One stage record. -/
def stageOf (i : Nat) (b : Bytes) : Stage :=
  { index := i, engine := fld b 0 1, opcode := fld b 1 1, flags := fld b 2 2, mask := fld b 4 2, matched := fld b 6 2,
    inn := opndOf (fld b 8 8), out := opndOf (fld b 16 8),
    params := (List.range 4).map fun k => opndOf (fld b (24 + 8 * k) 8), costFixed := fld b 56 4, costKib := fld b 60 4 }

/-- One buffer declaration. -/
def bufDeclOf (b : Bytes) : BufDecl :=
  { maxLen := fld b 0 8, boundBytes := fld b 8 4, boundScale := fld b 12 2, place := fld b 14 1, estBytes := fld b 16 4,
    estScale := fld b 20 2, rsv := fld b 15 1 + fld b 22 2 }

/-- A binary read without checks. -/
def routeOf (b : Bytes) : RouteBin :=
  let sc := fld b 12 1
  let bc := fld b 13 1
  let vc := fld b 14 1
  let offB := 64 + 32 * vc
  let offS := offB + 24 * bc
  let offC := offS + 64 * sc
  { bin := b, length := fld b 8 4, stageCount := sc, bufferCount := bc, vocabCount := vc, tensorCount := fld b 15 1,
    flags := fld b 16 2, cardLen := fld b 18 2, constLen := fld b 20 4, semanticsMin := fld b 24 4, acceptMask := fld b 28 2,
    acceptMatch := fld b 30 2, vocabs := (List.range vc).map fun i => cut b (64 + 32 * i) 32,
    buffers := (List.range bc).map fun i => bufDeclOf (cut b (offB + 24 * i) 24),
    stages := (List.range sc).map fun i => stageOf i (cut b (offS + 64 * i) 64), consts := cut b offC (fld b 20 4) }

/-- Sum of the section sizes. -/
def RouteBin.size (r : RouteBin) : Nat :=
  64 + 32 * r.vocabCount + 24 * r.bufferCount + 64 * r.stageCount + roundUp r.constLen 8

/-! ### Operands allowed (Tables 4.6, 5.2, 6.1, 7.1, 8.2, 9.2) -/

/-- Kinds of an operand position: the codes of Table 4.4 allowed, and the LENGTH a CONST or CARD must have. -/
structure OpRule where
  kinds : List Nat
  len : Option Nat := none
  deriving Repr, DecidableEq, Inhabited

/-- NONE only. -/
def rNone : OpRule := { kinds := [0] }
/-- IMM only. -/
def rImm : OpRule := { kinds := [8] }
/-- CONST or CARD of a length. -/
def rBlock (n : Nat) : OpRule := { kinds := [3, 4], len := some n }
/-- NONE, CONST or CARD of a length. -/
def rMaybe (n : Nat) : OpRule := { kinds := [0, 3, 4], len := some n }
/-- CONST or CARD of any length. -/
def rAny : OpRule := { kinds := [3, 4] }
/-- BUF or CONST. -/
def rIn : OpRule := { kinds := [2, 3] }
/-- BUF. -/
def rBuf : OpRule := { kinds := [2] }
/-- NONE, IMM, CARD or META. -/
def rNum : OpRule := { kinds := [0, 8, 4, 5] }
/-- TENSOR. -/
def rTensor : OpRule := { kinds := [7] }
/-- CONST declaration. -/
def rDecl : OpRule := { kinds := [3], len := some 32 }

/-- Rules of IN, OUT and PARAM0 to PARAM3 for an engine and opcode; none where not defined. -/
def stageRule (engine opcode : Nat) : Option (List OpRule) :=
  let cdeIn : OpRule := { kinds := [1, 2, 3] }
  let dict : OpRule := { kinds := [0, 3] }
  let lvl : OpRule := { kinds := [8, 4] }
  let bufIn : OpRule := { kinds := [2, 3, 4] }
  let immMeta : OpRule := { kinds := [8, 5] }
  match engine, opcode with
  | 1, 0x01 | 1, 0x02 | 1, 0x03 | 1, 0x04 | 1, 0x05 => some [cdeIn, rBuf, dict, rImm, rNum, rNum]
  | 1, 0x11 | 1, 0x12 | 1, 0x14 => some [cdeIn, rBuf, dict, lvl, rImm, rNone]
  | 1, 0x13 => some [cdeIn, rBuf, rNone, lvl, rImm, rNone]
  | 2, 0x01 | 2, 0x02 | 2, 0x03 => some [rIn, rBuf, rMaybe 16, rImm, rNone, rNone]
  | 2, 0x04 => some [rIn, rBuf, rBlock 32, rImm, rNone, rNone]
  | 2, 0x05 => some [rIn, rBuf, rMaybe 16, rNone, rNone, rNone]
  | 2, 0x11 | 2, 0x12 | 2, 0x13 => some [rIn, rBuf, rMaybe 16, rImm, { kinds := [0, 8] }, rNone]
  | 3, 0x01 => some [rIn, rBuf, rBlock 16, rImm, rNone, rNone]
  | 3, 0x02 => some [rIn, rBuf, { kinds := [8, 3, 4], len := some 4 }, rNone, rNone, rNone]
  | 3, 0x03 => some [rIn, rBuf, { kinds := [8, 3, 4], len := some 8 }, rImm, rNone, rNone]
  | 3, 0x04 => some [rIn, rBuf, rBlock 32, rNone, rNone, rNone]
  | 3, 0x05 => some [rIn, rBuf, rAny, rNone, rNone, rNone]
  | 3, 0x06 => some [rIn, rBuf, rNone, rImm, rNone, rNone]
  | 3, 0x07 => some [rIn, rBuf, rAny, rNone, rNone, rNone]
  | 3, 0x08 => some [rIn, rBuf, rIn, rBlock 32, rNone, rNone]
  | 3, 0x09 => some [rIn, rBuf, rNone, rImm, rNone, rNone]
  | 3, 0x10 => some [rIn, rBuf, rBlock 16, rMaybe 16, rNone, rNone]
  | 4, 0x01 => some [rIn, rBuf, { kinds := [6] }, rImm, rNum, rNone]
  | 4, 0x02 => some [rIn, rBuf, { kinds := [6] }, rImm, rNone, rNone]
  | 5, 0x01 => some [rIn, rTensor, rDecl, rNone, rNone, rNone]
  | 5, 0x02 => some [{ kinds := [5, 8, 4] }, rTensor, rDecl, rNone, rNone, rNone]
  | 5, 0x03 => some [rBuf, rTensor, { kinds := [0, 7] }, { kinds := [0, 7] }, rImm, rDecl]
  | 6, 0x01 => some [bufIn, rBuf, rNone, rNone, rNone, rNone]
  | 6, 0x02 => some [bufIn, rBuf, immMeta, immMeta, rNone, rNone]
  | 6, 0x03 => some [cdeIn, rBuf, rNone, rNone, rNone, rNone]
  | 6, 0x04 => some [rNone, rBuf, rImm, immMeta, rNone, rNone]
  | _, _ => none

/-- INDEX, OFFSET and LENGTH within range (R116, Table 4.4). -/
def RouteBin.rangeOk (r : RouteBin) (o : Opnd) : Bool :=
  let bare := o.offset == 0 && o.len == 0
  match o.kind with
  | 0 => o.index == 0 && bare
  | 1 => o.index == 0 && bare
  | 2 => decide (o.index < r.bufferCount) && bare
  | 3 => o.index == 0 && decide (1 ≤ o.len) && decide (o.offset + o.len ≤ r.constLen)
  | 4 => o.index == 0 && decide (1 ≤ o.len) && decide (o.offset + o.len ≤ r.cardLen)
  | 5 => decide (o.index ≤ 10) && bare
  | 6 => decide (o.index < r.vocabCount) && bare
  | 7 => decide (o.index < r.tensorCount) && bare
  | 8 => true
  | _ => false

/-- PERM of LAYOUT is a permutation of 0 to 3 (R222). -/
def permOk (v : Nat) : Bool := (List.range 4).all fun k => (List.range 4).any fun j => v / 4 ^ j % 4 == k

/-- Values of IMM operands fixed at load (R146, R156, R163, R170, R194, R211 to R213, R222, R230, R250, R282). -/
def immOk (s : Stage) : Bool :=
  let imm n := (s.param n).imm
  match s.engine, s.opcode with
  | 1, 0x01 | 1, 0x02 | 1, 0x03 | 1, 0x04 | 1, 0x05 => decide (imm 1 < 4)
  | 1, op =>
    let lvl := s.param 1
    let w := imm 2
    let hi := if op = 0x14 then 31 else 15
    let lo := if op = 0x14 then 10 else 9
    (lvl.kind != 8 || (decide (1 ≤ lvl.imm) && decide (lvl.imm ≤ 12))) && (w == 0 || (decide (lo ≤ w) && decide (w ≤ hi))) &&
      ((op != 0x11 && op != 0x12) || decide ((s.param 0).len ≤ 32768))
  | 2, 0x01 | 2, 0x02 | 2, 0x03 | 2, 0x04 => decide (imm 1 < 32)
  | 2, 0x11 | 2, 0x12 | 2, 0x13 => decide (imm 1 < 4)
  | 3, 0x01 => decide (imm 1 < 2)
  | 3, 0x02 => (s.param 0).kind != 8 || decide (imm 0 < 16)
  | 3, 0x03 => ((s.param 0).kind != 8 || decide (imm 0 < 2 ^ 32)) && decide (imm 1 < 4)
  | 3, 0x05 => (s.param 0).len % 8 == 0
  | 3, 0x06 => decide (imm 1 < 512) && permOk (imm 1 % 256)
  | 3, 0x07 => decide (32 ≤ (s.param 0).len) && ((s.param 0).len - 32) % 16 == 0 && decide ((s.param 0).len ≤ 96)
  | 3, 0x09 => decide (1 ≤ imm 1 % 256) && decide (imm 1 % 256 ≤ 15) && bits (imm 1) 9 8 != 3 && decide (imm 1 < 2 ^ 11)
  | 4, 0x01 => decide (imm 1 < 8)
  | 4, 0x02 => decide (imm 1 < 2)
  | 5, 0x02 => s.inn.kind != 4 || decide (s.inn.len ≤ 8)
  | 5, 0x03 => decide (imm 2 < 2 ^ 17)
  | 6, 0x04 => decide (imm 0 < 256)
  | _, _ => true

/-! ### Tensor declarations (R280) -/

/-- A tensor declaration (Table 9.1). -/
structure TDecl where
  dtype : Nat
  srank : Nat
  round : Nat
  sat : Bool
  sgn : Bool
  pad : Nat
  /-- SDIM1 to SDIM3 -/
  sdims : List Nat
  rows : Nat
  flags : Nat
  rsv : Nat
  deriving Repr, DecidableEq, Inhabited

/-- The declaration in 32 bytes. -/
def declOf (b : Bytes) : TDecl :=
  { dtype := fld b 0 1, srank := fld b 1 1, round := fld b 2 1, flags := fld b 3 1, sat := bit (fld b 3 1) 0,
    sgn := bit (fld b 3 1) 1, pad := fld b 4 4, sdims := [fld b 8 4, fld b 12 4, fld b 16 4], rows := fld b 20 4,
    rsv := fld b 24 8 }

/-- Element bits by format code (Table 7.6). -/
def fmtBits (c : Nat) : Nat :=
  match c with
  | 1 => 32 | 2 => 16 | 3 => 16 | 4 => 8 | 5 => 8 | 6 => 8 | 7 => 6 | 8 => 6 | 9 => 4 | 10 => 8 | 11 => 8 | 12 => 16
  | 13 => 16 | 14 => 32 | 15 => 32 | _ => 0

/-- MX code. -/
def fmtMx (c : Nat) : Bool := 6 ≤ c && c ≤ 9

/-- Largest value of an integer code (Table 7.6). -/
def fmtMaxInt (c : Nat) : Nat :=
  match c with
  | 10 => 127 | 11 => 255 | 12 => 32767 | 13 => 65535 | 14 => 2 ^ 31 - 1 | 15 => 2 ^ 32 - 1 | _ => 0

/-- (element-region, scale-region) bytes of one sample, without padding to 8 (R285, R234). -/
def TDecl.sampleBytes (d : TDecl) : Nat × Nat :=
  let dims := d.sdims.take d.srank
  if fmtMx d.dtype then
    let n := dims.dropLast.foldl (· * ·) 1 * roundUp (dims.getLastD 1) 32
    (n * fmtBits d.dtype / 8, n / 32)
  else (dims.foldl (· * ·) 1 * fmtBits d.dtype / 8, 0)

/-- R280's conditions for a declaration; packing, or of SRANK 0 for PLACE_SCALAR. -/
def TDecl.ok (d : TDecl) (packing scalar : Bool) : Bool :=
  decide (1 ≤ d.dtype) && decide (d.dtype ≤ 15) && decide (d.srank ≤ 3) && decide (d.round ≤ 2) && decide (d.flags < 4) &&
    d.rsv == 0 && (if fmtMx d.dtype then d.pad == 0 else decide (d.pad < 2 ^ fmtBits d.dtype)) &&
    (d.sdims.take d.srank).all (fun x => decide (1 ≤ x)) && (d.sdims.drop d.srank).all (· == 1) &&
    (!fmtMx d.dtype || decide (1 ≤ d.srank)) && decide (d.sampleBytes.1 + d.sampleBytes.2 ≤ 2 ^ 32) &&
    (if packing then decide (10 ≤ d.dtype) && decide (1 ≤ d.rows) && decide (d.rows ≤ 65536) && d.srank == 1 else d.rows == 0) &&
    (!scalar || d.srank == 0)

/-- The operand that holds a PKE stage's declaration. -/
def Stage.declOpnd (s : Stage) : Opnd := if s.opcode = 3 then s.param 3 else s.param 0

/-- The declaration of a PKE stage. -/
def RouteBin.decl (r : RouteBin) (s : Stage) : TDecl := declOf (cut r.consts s.declOpnd.offset s.declOpnd.len)

/-- Check 4 for one stage. -/
def RouteBin.operandsOk (r : RouteBin) (s : Stage) : Bool :=
  match stageRule s.engine s.opcode with
  | none => false
  | some rules =>
    ((s.inn :: s.out :: s.params).zip rules).all (fun p =>
      p.2.kinds.contains p.1.kind && r.rangeOk p.1 &&
      (!(p.1.kind == 3 || p.1.kind == 4) || p.2.len.all fun n => p.1.len == n)) &&
    immOk s &&
    (s.engine != 5 ||
      (let d := r.decl s
       d.ok (s.opcode == 3) (s.opcode == 2) &&
        (s.opcode != 3 || [(s.param 2).imm % 256, (s.param 2).imm / 256 % 256].all fun t =>
          decide (10 ≤ t) && decide (t ≤ 15) && decide (d.sdims.getD 0 1 ≤ fmtMaxInt t))))

/-! ### Paths (R117) -/

/-- Stages that run for a FORMAT. -/
def RouteBin.path (r : RouteBin) (format : Nat) : List Stage :=
  r.stages.filter fun s => !bit s.flags 0 || (format &&& s.mask) == s.matched

/-- FORMAT accepted. -/
def RouteBin.accepts (r : RouteBin) (format : Nat) : Bool := (format &&& r.acceptMask) == r.acceptMatch

/-- Buffers a stage reads. -/
def Stage.reads (s : Stage) : List Nat := ((s.inn :: s.params).filter fun o => o.kind == 2).map (·.index)

/-- The buffer a stage writes. -/
def Stage.writes (s : Stage) : Option Nat := if s.out.kind = 2 then some s.out.index else none

/-- Tensors a stage writes. -/
def Stage.tensors (s : Stage) : List Nat := ((s.out :: s.params).filter fun o => o.kind == 7).map (·.index)

/-- A stage reads the stored bytes. -/
def Stage.readsStored (s : Stage) : Bool := (s.inn :: s.params).any fun o => o.kind == 1

/-- A CDE decompression or SEQ CHECK_FRANK. -/
def Stage.checksFrank (s : Stage) : Bool :=
  (s.engine == 1 && decide (s.opcode ≤ 5)) || (s.engine == 6 && s.opcode == 3)

/-- PACK_TOKENS. -/
def Stage.packs (s : Stage) : Bool := s.engine == 5 && s.opcode == 3

/-- First stage that reads a buffer no earlier stage of the path wrote (check 5). -/
def firstUnwritten : List Nat → List Stage → Option Nat
  | _, [] => none
  | w, s :: ss => if s.reads.all w.contains then firstUnwritten (s.writes.toList ++ w) ss else some s.index

/-- First stage that writes a buffer again (check 6). -/
def firstRewrite : List Nat → List Stage → Option Nat
  | _, [] => none
  | w, s :: ss => if s.writes.any w.contains then some s.index else firstRewrite (s.writes.toList ++ w) ss

/-- First stage that writes a tensor while conditional, or a tensor again (check 8). -/
def badTensor : List Nat → List Stage → Option Nat
  | _, [] => none
  | w, s :: ss =>
    if s.tensors ≠ [] ∧ (bit s.flags 0 ∨ s.tensors.any w.contains ∨ ¬s.tensors.Nodup) then some s.index
    else badTensor (s.tensors ++ w) ss

/-- Checks 5 to 9 on one path: the stage that fails, 0xFFFF where none applies. -/
def RouteBin.pathFail (r : RouteBin) (check : Nat) (p : List Stage) : Option Nat :=
  match check with
  | 5 => firstUnwritten [] p
  | 6 => firstRewrite [] p
  | 7 => match p.filter Stage.readsStored with
    | [] => none
    | s :: ss => if ¬s.checksFrank then some s.index else ss.head?.map (·.index)
  | 8 => match badTensor [] p with
    | some i => some i
    | none => if (List.range r.tensorCount).all fun t => p.any fun s => s.tensors.contains t then none else some 0xFFFF
  | _ =>
    let packers := r.stages.filter Stage.packs
    if 1 < packers.length then packers[1]?.map (·.index)
    else if bit r.flags 1 ≠ (packers.length == 1) then some ((packers.head?.map (·.index)).getD 0xFFFF) else none

/-- First FORMAT accepted at which a check fails. -/
def RouteBin.checkAll (r : RouteBin) (check : Nat) : Option (Nat × Nat) :=
  ((List.range 65536).filter r.accepts).findSome? fun f => (r.pathFail check (r.path f)).map fun s => (s, f)

/-- Check 1 of Table 4.7, the binary being all the bytes of the host buffer. -/
def RouteBin.layoutOk (r : RouteBin) : Bool :=
  let b := r.bin
  decide (64 ≤ b.length) && b.take 4 == ascii "ROUT" && fld b 4 2 == 1 && fld b 6 2 == 64 && r.length == b.length && r.length == r.size &&
    decide (r.flags < 4) && (cut b 48 16).all (· == 0) &&
    r.buffers.all (fun d => d.rsv == 0 && decide (1 ≤ d.maxLen) && decide (d.maxLen ≤ 2 ^ 32) && decide (d.place ≤ 1)) &&
    (b.drop (r.size - (roundUp r.constLen 8 - r.constLen))).all (· == 0) && (r.acceptMatch &&& r.acceptMask) == r.acceptMatch

/-- Check 2. -/
def RouteBin.limitsOk (r : RouteBin) : Bool :=
  decide (1 ≤ r.stageCount) && decide (r.stageCount ≤ 32) && decide (r.bufferCount ≤ 16) && decide (r.vocabCount ≤ 4) &&
    decide (1 ≤ r.tensorCount) && decide (r.tensorCount ≤ 8) && decide (r.cardLen ≤ 4096) &&
    (bit r.flags 0 || r.cardLen == 0) && decide (r.constLen ≤ 65536) &&
    decide (((r.buffers.filter fun d => d.place == 0).map (·.maxLen)).sum ≤ 524288)

/-- A refused route: status, stage index and FORMAT of DETAIL. -/
abbrev RouteBad := Status × Nat × Nat

/-- Checks 1 to 10 in order (R117); full says whether 64 routes are resident (check 11). -/
def routeCheck (semantics : Nat) (full : Bool) (b : Bytes) : Option RouteBad :=
  let r := routeOf b
  if ¬r.layoutOk then some (St.RTE_ROUTE_BAD, 0xFFFF, 0xFFFF)
  else if ¬r.limitsOk then some (St.RTE_LIMIT, 0xFFFF, 0xFFFF)
  else
    let bad3 := r.stages.find? fun s => (stageRule s.engine s.opcode).isNone || decide (2 ≤ s.flags) ||
      (s.inn :: s.out :: s.params).any fun o => o.rsv != 0
    match bad3 with
    | some s => some (St.RTE_STAGE_BAD, s.index, 0xFFFF)
    | none =>
      match r.stages.find? fun s => !r.operandsOk s with
      | some s => some (St.RTE_OPERAND_BAD, s.index, 0xFFFF)
      | none =>
        match [5, 6, 7, 8, 9].findSome? r.checkAll with
        | some (s, f) => some (St.RTE_PATH_BAD, s, f)
        | none =>
          if semantics < r.semanticsMin then some (St.RTE_SEMANTICS, 0xFFFF, 0xFFFF)
          else if full then some (St.RTE_ROUTE_TABLE_FULL, 0xFFFF, 0xFFFF) else none

/-! ### Bounds (R113, R114, R498) and estimates (R124) -/

/-- Bound of a buffer for an item (R113). -/
def BufDecl.bound (d : BufDecl) (orig : Nat) : Nat := min d.maxLen (d.boundBytes + orig * d.boundScale / 16)

/-- Length estimate of a buffer. -/
def BufDecl.est (d : BufDecl) (orig : Nat) : Nat := d.estBytes + orig * d.estScale / 16

/-- Buffers a path writes: (number, bound, place). -/
def RouteBin.pathBufs (r : RouteBin) (format orig : Nat) : List (Nat × Nat × Nat) :=
  (r.path format).filterMap fun s => s.writes.map fun n =>
    let d := r.buffers.getD n default
    (n, d.bound orig, d.place)

/-- Sum of the bounds of the path's buffers with a PLACE. -/
def RouteBin.boundSum (r : RouteBin) (place format orig : Nat) : Nat :=
  (((r.pathBufs format orig).filter fun b => b.2.2 == place).map (·.2.1)).sum

/-- Engine kinds in the order of budgets: CDE, IDE, VTE, TXE, PKE, SEQ are 0 to 5. -/
def kindOf (s : Stage) : Nat := s.engine - 1

/-- Default cost of a kind (Table 4.8). -/
def costDefault (kind : Nat) : Nat × Nat :=
  match kind with
  | 0 => (2000, 854) | 1 => (3000, 11000) | 2 => (2000, 150) | 3 => (2000, 8192) | 4 => (1000, 100) | _ => (500, 50)

/-- Estimated cost of a stage for an item (R124). -/
def RouteBin.cost (r : RouteBin) (s : Stage) (stored orig : Nat) : Nat :=
  let (f0, k0) := costDefault (kindOf s)
  let f := if s.costFixed = 0 then f0 else s.costFixed
  let k := if s.costKib = 0 then k0 else s.costKib
  let l := match s.inn.kind with
    | 1 => stored
    | 2 => (r.buffers.getD s.inn.index default).est orig
    | 3 => s.inn.len
    | 4 => s.inn.len
    | _ => 0
  f + k * ((l + 1023) / 1024)

/-- Estimates by kind. -/
def RouteBin.estimate (r : RouteBin) (format stored orig : Nat) : List Nat :=
  (List.range 6).map fun k => (((r.path format).filter fun s => kindOf s == k).map fun s => r.cost s stored orig).sum

/-- Dominant kind: the largest estimate, the first kind among equals (R126). -/
def dominant (est : List Nat) : Nat := (est.zipIdx.foldl (fun (a : Nat × Nat) p => if a.1 < p.1 then p else a) (est.headD 0, 0)).2

/-- The PACK_TOKENS stage of a route. -/
def RouteBin.packer (r : RouteBin) : Option Stage := r.stages.find? Stage.packs

/-- The stage that writes tensor t. -/
def RouteBin.tensorStage (r : RouteBin) (t : Nat) : Option Stage := r.stages.find? fun s => s.engine == 5 && s.tensors.contains t

end Sys2Proof.Machine
end

