-- ==== Sys2Proof/Machine/Scratch.lean ====
section
/-! DEFINITION. Core scratch: full/empty words, watches and wakes (13, R373 to R382), with the check bits of R502. -/

namespace Sys2Proof.Machine

open Sys2Proof

/-- Words of one core's scratch: 2 MiB (R13). Every address decodes to the core's own scratch (R381). -/
def scratchWords : Nat := 262144

/-- Engine slot code of an issuer (Table 18.1). -/
def issuerSlot : Issuer → Nat
  | .cde0 => 0 | .cde1 => 1 | .vte0 => 2 | .vte1 => 3 | .ide => 4 | .txe => 5 | .pke => 6 | .seq => 9

/-- Physical slot that serves as a slot of the core: a spare in service takes the place of the engine it replaces (R375). -/
def Core.slotOf (c : Core) (slot : Nat) : Nat :=
  match c.spareEngines.find? fun p => p.2 == slot with
  | some p => p.1
  | none => slot

/-- A core runs: it is mapped, its die is in service and its cluster's domain is on (R11, R531, R561). -/
def Dev.coreRuns (d : Dev) (c : CoreRef) : Bool :=
  match d.physical c with
  | some (pc, _) => d.dieUp c.die && (d.die c.die).domains.getLsbD (2 + pc)
  | none => false

/-- Physical unit of an engine slot of a core. -/
def Dev.engineUnit (d : Dev) (c : CoreRef) (slot : Nat) : UnitRef :=
  match d.physical c with
  | some (pc, pk) => { kind := if slot = 9 then 2 else 1, die := c.die, cluster := pc, core := pk, slot := (d.core c).slotOf slot }
  | none => { kind := 1, die := c.die }

/-- A unit is fenced (R528). -/
def Dev.isFenced (d : Dev) (u : UnitRef) : Bool := (d.fc u.die).fenced.contains u

/-- A dropped access of a fenced unit (R528). -/
def Dev.fenceDrop (d : Dev) (die : Nat) : Dev :=
  d.onFc die fun c => { c with ctrs := { c.ctrs with fenceDrops := c.ctrs.fenceDrops + 1 } }

/-- An access by a fenced issuer is dropped; one of a core that does not run does not happen (R528). -/
def Dev.scratchAccess (d : Dev) (c : CoreRef) (i : Issuer) (act : Dev → Dev) : Dev :=
  if d.coreRuns c = false then d
  else if d.isFenced (d.engineUnit c (issuerSlot i)) then d.fenceDrop c.die
  else act d

/-! ### Words -/

/-- The word at an address; words not listed are empty and 0 (R373). -/
def Core.word (x : Core) (a : Nat) : Word64 := (x.scratch.find? fun w => w.addr == a).getD { addr := a, value := 0, full := false }

/-- A word written back; the list stays sorted and holds no empty 0. -/
def insertWord : List Word64 → Word64 → List Word64
  | [], w => if w.value = 0 ∧ w.full = false then [] else [w]
  | x :: r, w =>
    if w.addr < x.addr then (if w.value = 0 ∧ w.full = false then x :: r else w :: x :: r)
    else if w.addr = x.addr then (if w.value = 0 ∧ w.full = false then r else w :: r)
    else x :: insertWord r w

/-- The core with a word's value and bit set. -/
def Core.setWord (x : Core) (a : Nat) (v : BitVec 64) (full : Bool) : Core :=
  { x with scratch := insertWord x.scratch { addr := a, value := v, full := full } }

/-- The value an issuer's load returned (R374). -/
def Core.gave (x : Core) (i : Issuer) (v : BitVec 64) : Core :=
  { x with loaded := (x.loaded.filter fun p => p.1 != i) ++ [(i, v)] }

/-! ### Check bits of a word (R502, R510, R512) -/

/-- UNIT field of FLIP_TARGET for the macro that holds a scratch word (Table 21.16). -/
def scratchMacro (pc pk a : Nat) : Nat := pc * 4096 + pk * 256 + a * 8 / 1048576

/-- Bits a flip mask turns in byte i of an 8 B SRAM word: data and the byte's five check bits (R502, R510). -/
def Flip.bitsOf (f : Flip) (i : Nat) : Nat :=
  popCount 8 ((f.data.getD 0 0).toNat / 2 ^ (8 * i)) + popCount 5 (f.check.toNat / 2 ^ (5 * i))

/-- Check bits of an 8 B SRAM word just written: errors planted before are gone, and an armed mask plants its own (R503,
R510). -/
def Dev.sramWritten (d : Dev) (die memory off : Nat) : Dev :=
  let x := d.die die
  let kept := x.scb.planted.filter fun p => !(p.1 == false && p.2.1 == memory && decide (off ≤ p.2.2.1 ∧ p.2.2.1 < off + 8))
  if x.flip.covers false memory off 8 then
    let new := (List.range 8).filterMap fun (i : Nat) =>
      if x.flip.bitsOf i = 0 then none else some (false, memory, off + i, x.flip.bitsOf i)
    d.onDie die fun x => { x with flip := x.flip.used, scb := { x.scb with planted := kept ++ new } }
  else d.onDie die fun x => { x with scb := { x.scb with planted := kept } }

/-- A read of an 8 B SRAM word decodes each byte: one wrong bit is corrected and written back, more are poison, and each is
reported as injected (R502, R503, R512). Answers whether the data is good. -/
def Dev.sramRead (d : Dev) (die memory off : Nat) (u : UnitRef) : Dev × Bool :=
  let found := (d.die die).scb.planted.filter fun p => p.1 == false && p.2.1 == memory && decide (off ≤ p.2.2.1 ∧ p.2.2.1 < off + 8)
  let d := found.foldl (fun d p =>
    let d := d.onInteg die fun c =>
      if p.2.2.2 = 1 then { c with sramCorrected := c.sramCorrected + 1, injected := c.injected + 1 }
      else { c with sramUncorrected := c.sramUncorrected + 1, injected := c.injected + 1 }
    if p.2.2.2 = 1 then
      (d.onDie die fun x => { x with scb := { x.scb with planted := x.scb.planted.erase p } }).report
        St.INT_SRAM_CORRECTED u (BitVec.ofNat 64 p.2.2.1) true
    else d.report St.INT_SRAM_UNCORRECTED u (BitVec.ofNat 64 p.2.2.1) true) d
  (d, found.all fun p => p.2.2.2 == 1)

/-- The scratch unit of a core as a fault report names it. -/
def Dev.scratchUnit (d : Dev) (c : CoreRef) : UnitRef :=
  match d.physical c with
  | some (pc, pk) => { kind := 3, die := c.die, cluster := pc, core := pk }
  | none => { kind := 3, die := c.die }

/-- Macro of a core's scratch word. -/
def Dev.macroOf (d : Dev) (c : CoreRef) (a : Nat) : Nat :=
  match d.physical c with
  | some (pc, pk) => scratchMacro pc pk a
  | none => 0

/-- Check bits of a scratch word after a write. -/
def Dev.wordWritten (d : Dev) (c : CoreRef) (a : Nat) : Dev := d.sramWritten c.die (d.macroOf c a) (a * 8 % 1048576)

/-- A load's value reaches its issuer, unless the word is poisoned (R502, R505). -/
def Dev.deliverWord (d : Dev) (c : CoreRef) (i : Issuer) (a : Nat) : Dev :=
  let v := ((d.core c).word a).value
  let r := d.sramRead c.die (d.macroOf c a) (a * 8 % 1048576) (d.scratchUnit c)
  if r.2 then r.1.onCore c fun x => x.gave i v
  else r.1.onCore c fun x => { x with loaded := x.loaded.filter fun p => p.1 != i }

/-! ### Watches (R377, R379, R380) -/

/-- Watch slots in use; a woken waiter holds none (R380). -/
def Core.slotsUsed (x : Core) : Nat := (x.watches.filter fun w => !w.woken).length

/-- A waiter woken and then overtaken 16 times on a word (R380). -/
def Core.precedent (x : Core) (a : Nat) : Option Issuer :=
  (x.watches.find? fun w => w.addr == a && decide (16 ≤ w.overtaken)).map (·.waiter)

/-- A word enters a state: one wake message to each waiter for that state in order of registration, and their slots are
free (R380). -/
def Core.wake (x : Core) (a : Nat) (full : Bool) : Core :=
  let hit := fun (w : Watch) => w.addr == a && w.awaitFull == full && !w.woken
  { x with
    wakes := x.wakes ++ (x.watches.filter hit).map fun w => (w.waiter, w.tag, w.addr)
    watches := (x.watches.filter fun w => !(hit w && w.access == .explicit)).map fun w => if hit w then { w with woken := true } else w }

/-- The record of a waiter's earlier wait with the same access on the word, if it was woken (R380). -/
def Core.wokenFor (x : Core) (a : Nat) (i : Issuer) (acc : Access) : Option Watch :=
  x.watches.find? fun w => w.woken && w.addr == a && w.waiter == i && w.access == acc

/-- A watch is registered when a slot is free; otherwise the issuer retries every 64 sort clocks and WATCH_SLOT_WAITS rises
(R377, R379). -/
def Core.register (x : Core) (w : Watch) : Core :=
  if x.slotsUsed < 256 then { x with watches := x.watches ++ [w] }
  else { x with slotless := x.slotless ++ [w], slotWaits := x.slotWaits + 1 }

/-- A conditional access and the state its word must be in (Table 13.1). -/
def needsFull : Access → Bool
  | .take | .peek | .explicit => true
  | .fill _ => false

/-- The access takes effect on a word in the required state (Table 13.1). -/
def Dev.scratchDo (d : Dev) (c : CoreRef) (i : Issuer) (a : Nat) : Access → Dev
  | .take =>
    (d.deliverWord c i a).onCore c fun x => (x.setWord a (x.word a).value false).wake a false
  | .peek => d.deliverWord c i a
  | .fill v => (d.wordWritten c a).onCore c fun x => (x.setWord a v true).wake a true
  | .explicit => d

/-- A conditional access (R374, R375, R377, R380): it takes effect when its word is in the required state and no other waiter
has precedence there; otherwise the issuer waits. -/
def Dev.scratchTry (d : Dev) (c : CoreRef) (i : Issuer) (a : Nat) (acc : Access) : Dev :=
  let x := d.core c
  let old := x.wokenFor a i acc
  let first := x.precedent a
  let ok := ((x.word a).full == needsFull acc) && (first == none || first == some i)
  let drop := fun (x : Core) => { x with watches := match old with
    | some w => x.watches.erase w
    | none => x.watches }
  if ok then
    let d := (d.onCore c drop).scratchDo c i a acc
    if first = some i then d.onCore c fun x => x.wake a (x.word a).full else d
  else
    let n := match old with
      | some w => w.overtaken + 1
      | none => 0
    let w : Watch := { addr := a, awaitFull := needsFull acc, waiter := i, tag := Config.freeTag d.free, access := acc, overtaken := n }
    { (d.onCore c fun x => (drop x).register w) with free := d.free + 1 }

/-! ### The commands -/

/-- LOAD: any state, the bit unchanged, no waiting (R374, R376). -/
def loadEffect (core : CoreRef) (issuer : Issuer) (addr : Nat) (_m : Mem) (d : Dev) : Dev :=
  d.scratchAccess core issuer fun d => d.deliverWord core issuer (addr % scratchWords)

/-- Unconditional scratch read. -/
def execLoad (core : CoreRef) (issuer : Issuer) (addr : Nat) (s : State) : Host.Outcome State Fault Refusal :=
  .next (s.put (loadEffect core issuer addr s.mem s.dev))

/-- STORE: the data written, the bit unchanged (R374, R376). -/
def storeEffect (core : CoreRef) (issuer : Issuer) (addr : Nat) (value : BitVec 64) (_m : Mem) (d : Dev) : Dev :=
  d.scratchAccess core issuer fun d =>
    let a := addr % scratchWords
    (d.wordWritten core a).onCore core fun x => x.setWord a value (x.word a).full

/-- Unconditional scratch write leaving the full/empty bit. -/
def execStore (core : CoreRef) (issuer : Issuer) (addr : Nat) (value : BitVec 64) (s : State) :
    Host.Outcome State Fault Refusal :=
  .next (s.put (storeEffect core issuer addr value s.mem s.dev))

/-- LOAD_TAKE (R374, R377). -/
def loadTakeEffect (core : CoreRef) (issuer : Issuer) (addr : Nat) (_m : Mem) (d : Dev) : Dev :=
  d.scratchAccess core issuer fun d => d.scratchTry core issuer (addr % scratchWords) .take

/-- Conditional read of a full word making it empty, or registering a watch. -/
def execLoadTake (core : CoreRef) (issuer : Issuer) (addr : Nat) (s : State) : Host.Outcome State Fault Refusal :=
  .next (s.put (loadTakeEffect core issuer addr s.mem s.dev))

/-- LOAD_PEEK (R374, R377). -/
def loadPeekEffect (core : CoreRef) (issuer : Issuer) (addr : Nat) (_m : Mem) (d : Dev) : Dev :=
  d.scratchAccess core issuer fun d => d.scratchTry core issuer (addr % scratchWords) .peek

/-- Conditional read of a full word leaving it full, or registering a watch. -/
def execLoadPeek (core : CoreRef) (issuer : Issuer) (addr : Nat) (s : State) : Host.Outcome State Fault Refusal :=
  .next (s.put (loadPeekEffect core issuer addr s.mem s.dev))

/-- STORE_FILL (R374, R377, R380). -/
def storeFillEffect (core : CoreRef) (issuer : Issuer) (addr : Nat) (value : BitVec 64) (_m : Mem) (d : Dev) : Dev :=
  d.scratchAccess core issuer fun d => d.scratchTry core issuer (addr % scratchWords) (.fill value)

/-- Conditional write to an empty word making it full, or registering a watch. -/
def execStoreFill (core : CoreRef) (issuer : Issuer) (addr : Nat) (value : BitVec 64) (s : State) :
    Host.Outcome State Fault Refusal :=
  .next (s.put (storeFillEffect core issuer addr value s.mem s.dev))

/-- SET_EMPTY by the route sequencer: the word's state becomes empty, its data unchanged (R374); a full word enters the empty
state (R380). -/
def setEmptyEffect (core : CoreRef) (addr : Nat) (_m : Mem) (d : Dev) : Dev :=
  d.scratchAccess core .seq fun d =>
    let a := addr % scratchWords
    d.onCore core fun x =>
      if (x.word a).full then (x.setWord a (x.word a).value false).wake a false else x

/-- Route sequencer setting a scratch word empty. -/
def execSetEmpty (core : CoreRef) (addr : Nat) (s : State) : Host.Outcome State Fault Refusal :=
  .next (s.put (setEmptyEffect core addr s.mem s.dev))

/-- WATCH: an explicit watch; a word already in the awaited state wakes at once (R379). -/
def watchEffect (core : CoreRef) (issuer : Issuer) (addr : Nat) (awaitFull : Bool) (tag : BitVec 16) (_m : Mem) (d : Dev) : Dev :=
  d.scratchAccess core issuer fun d =>
    let a := addr % scratchWords
    d.onCore core fun x =>
      if (x.word a).full = awaitFull then { x with wakes := x.wakes ++ [(issuer, tag, a)] }
      else x.register { addr := a, awaitFull := awaitFull, waiter := issuer, tag := tag, access := .explicit }

/-- Registering an explicit watch on a scratch word. -/
def execWatch (core : CoreRef) (issuer : Issuer) (addr : Nat) (awaitFull : Bool) (tag : BitVec 16) (s : State) :
    Host.Outcome State Fault Refusal :=
  .next (s.put (watchEffect core issuer addr awaitFull tag s.mem s.dev))

/-- WATCH_RETRY: the first access of an issuer that found no slot is tried again; each access that finds no slot adds 1 to
WATCH_SLOT_WAITS (R377). -/
def watchRetryEffect (core : CoreRef) (issuer : Issuer) (_m : Mem) (d : Dev) : Dev :=
  d.scratchAccess core issuer fun d =>
    match (d.core core).slotless.find? fun w => w.waiter == issuer with
    | none => d
    | some w =>
      let x := d.core core
      let first := x.precedent w.addr
      let met := (x.word w.addr).full == w.awaitFull
      let out := d.onCore core fun x => { x with slotless := x.slotless.erase w }
      if w.access = .explicit then
        if met then out.onCore core fun x => { x with wakes := x.wakes ++ [(w.waiter, w.tag, w.addr)] }
        else if x.slotsUsed < 256 then out.onCore core fun x => { x with watches := x.watches ++ [w] }
        else d.onCore core fun x => { x with slotWaits := x.slotWaits + 1 }
      else if met && (first == none || first == some issuer) then out.scratchDo core issuer w.addr w.access
      else if x.slotsUsed < 256 then out.onCore core fun x => { x with watches := x.watches ++ [w] }
      else d.onCore core fun x => { x with slotWaits := x.slotWaits + 1 }

/-- Retry every 64 sort clocks of a conditional access that found no free watch slot. -/
def execWatchRetry (core : CoreRef) (issuer : Issuer) (s : State) : Host.Outcome State Fault Refusal :=
  .next (s.put (watchRetryEffect core issuer s.mem s.dev))

end Sys2Proof.Machine
end

