-- ==== Sys2Proof/Machine/Philox.lean ====
section
/-! DEFINITION. Philox-4x32-10 and what is built on it: the permutation (R76 to R82), the shared shuffle and the
generator word of stochastic rounding (R236). -/

namespace Sys2Proof.Machine

open Sys2Proof

/-- The four words of a Philox counter or result. -/
structure Quad where
  a : Nat
  b : Nat
  c : Nat
  d : Nat
  deriving DecidableEq, Repr, Inhabited

/-- The low 32 bits. -/
def u32 (v : Nat) : Nat := v % 2 ^ 32

/-- One round with its key. -/
def philoxRound (c : Quad) (k0 k1 : Nat) : Quad :=
  let p0 := 0xD2511F53 * c.a
  let p1 := 0xCD9E8D57 * c.c
  { a := (p1 / 2 ^ 32) ^^^ c.b ^^^ k0, b := u32 p1, c := (p0 / 2 ^ 32) ^^^ c.d ^^^ k1, d := u32 p0 }

/-- Rounds i on, the key stepped before every round but the first. -/
def philoxRounds : Nat → Quad → Nat → Nat → Quad
  | 0, c, _, _ => c
  | n + 1, c, k0, k1 => philoxRounds n (philoxRound c k0 k1) (u32 (k0 + 0x9E3779B9)) (u32 (k1 + 0xBB67AE85))

/-- philox_4x32_10 (R77). -/
def philox (c : Quad) (k0 k1 : Nat) : Quad := philoxRounds 10 c k0 k1

/-- sr_word (R236): the generator word of element m. -/
def srWord (seed e q st m : Nat) : Nat :=
  let out := philox { a := u32 (m / 4), b := u32 q, c := u32 (q / 2 ^ 32) ||| (st * 2 ^ 16), d := u32 e }
    (u32 seed ^^^ 0x53524E44) (u32 (seed / 2 ^ 32))
  match m % 4 with | 0 => out.a | 1 => out.b | 2 => out.c | _ => out.d

end Sys2Proof.Machine
end

