-- ==== Sys2Proof/Machine/Shuffle.lean ====
section
/-! DEFINITION. Positions, the permutation, segments, cursors, the canonical job description, seal records and delivery
digests (R44, R64, R65, R69 to R85, R322). -/

namespace Sys2Proof.Machine

open Sys2Proof

/-! ### The permutation (R76 to R81) -/

/-- Domain width b: the smallest even number from b on with 2^b ≥ n. -/
def domainFrom (n : Nat) : Nat → Nat → Nat
  | 0, b => b
  | f + 1, b => if 2 ^ b < n then domainFrom n f (b + 2) else b

/-- domain_bits (R78). -/
def domainBits (n : Nat) : Nat := domainFrom n 64 2

/-- Rounds i on of the Feistel network over halves of h bits (R79). -/
def feistelRounds (e seed b : Nat) : Nat → Nat → Nat → Nat → Nat × Nat
  | 0, _, l, r => (l, r)
  | n + 1, i, l, r =>
    let out := philox { a := i, b := u32 e, c := u32 r, d := b } (u32 seed) (u32 (seed / 2 ^ 32))
    feistelRounds e seed b n (i + 1) r (l ^^^ (out.a % 2 ^ (b / 2)))

/-- feistel (R79). -/
def feistel (x e seed b : Nat) : Nat :=
  let h := b / 2
  let (l, r) := feistelRounds e seed b 8 0 (x / 2 ^ h) (x % 2 ^ h)
  l * 2 ^ h ||| r

/-- The walk until a value below n, with the evaluations made (R80). -/
def walk (e seed b n : Nat) : Nat → Nat → Nat → Nat × Nat
  | 0, y, k => (y, k)
  | f + 1, y, k => if n ≤ y then walk e seed b n f (feistel y e seed b) (k + 1) else (y, k)

/-- permute with the number of evaluations; a walk takes at most 2^b − n + 1 of them (R80, R82). -/
def permuteCount (q e seed n : Nat) : Nat × Nat :=
  let b := domainBits n
  walk e seed b n (2 ^ b) (feistel q e seed b) 1

/-- permute (R80). -/
def permute (q e seed n : Nat) : Nat := (permuteCount q e seed n).1

/-! ### Positions, batches and cursors (R69 to R75) -/

/-- Batches per epoch K (R69). -/
def batches (n w b : Nat) : Nat := n / (b * w)

/-- Position of slot j of batch k of rank r (R71). -/
def position (w b r k j : Nat) : Nat := (k * b + j) * w + r

/-- Cursor of a step number, as the u64 of pigeonhole bodies: epoch in [63:48], batch in [47:0]. -/
def cursorOf (k step : Nat) : Nat := step / max 1 k % 65536 * 2 ^ 48 + step % max 1 k

/-- Step number of a cursor (R75). -/
def stepOf (k cursor : Nat) : Nat := cursor / 2 ^ 48 * k + cursor % 2 ^ 48

/-! ### Segments (R83) -/

/-- Segment and local offset of an index. -/
def segmentOf : List Nat → Nat → Nat → Option (Nat × Nat)
  | [], _, _ => none
  | c :: cs, s, i => if i < c then some (s, i) else segmentOf cs (s + 1) (i - c)

/-- First index of a segment. -/
def segmentStart (counts : List Nat) (s : Nat) : Nat := (counts.take s).sum

/-! ### The canonical job description (R44) -/

/-- Values of Table 2.3. -/
structure JobDesc where
  tag : Nat
  manifest : Bytes
  route : Bytes
  card : Bytes
  vocab : Bytes
  seed : Nat
  n : Nat
  w : Nat
  b : Nat
  tickMult : Nat
  express : Bool
  deriving DecidableEq, Repr, Inhabited

/-- The 256 bytes. -/
def JobDesc.bytes (x : JobDesc) : Bytes :=
  layout 256 [(0, ascii "JOBD"), (4, le 2 1), (6, le 2 256), (8, le 8 x.tag), (16, fit 32 x.manifest), (48, fit 32 x.route),
    (80, fit 32 x.card), (112, fit 32 x.vocab), (144, le 8 x.seed), (152, le 8 x.n), (160, le 4 x.w), (164, le 4 x.b),
    (168, le 4 x.tickMult), (172, le 1 (b2n x.express))]

/-- The postmark: 16 bytes of SHA-256. -/
def JobDesc.postmark (x : JobDesc) : Bytes := (sha256 x.bytes).take 16

/-- VOCAB_DIGEST of a route: zero if it names none (Table 2.3). -/
def vocabDigest (ds : List Bytes) : Bytes := if ds = [] then zeros 32 else sha256 ds.flatten

/-! ### Seal records (R64, R65) -/

/-- The cursor held by most, the lowest among equals. -/
def commonStep (steps : List Nat) : Nat :=
  (steps.foldl (fun (a : Option (Nat × Nat)) s =>
    let c := steps.countP (· == s)
    match a with
    | none => some (s, c)
    | some (t, k) => if k < c ∨ (k = c ∧ s < t) then some (s, c) else some (t, k)) none).elim 0 (·.1)

/-- Words of one entry: wide when its DELTA does not fit 40 bits. -/
def sealEntry (common rank step : Nat) : Bytes :=
  let dl : Int := (step : Int) - common
  if -(2 ^ 39) ≤ dl ∧ dl < 2 ^ 39 then le 8 (rank % 2 ^ 22 + toBits 40 dl * 2 ^ 24)
  else le 8 (rank % 2 ^ 22 + 2 ^ 22) ++ le 8 step

/-- Header fields of a seal record that are given. -/
structure SealHead where
  merged : Bool
  express : Bool
  reached : Bool
  postmark : Bytes
  stamp : Nat
  semantics : Nat
  nonce : Nat
  stop : Nat
  deadLetters : Nat
  substitutions : Nat
  devices : Nat
  desc : Bytes
  deriving DecidableEq, Repr, Inhabited

/-- A seal record of (rank, step) pairs in ascending rank measured from common; k is the batches per epoch. -/
def sealRecord (h : SealHead) (k common : Nat) (ranks : List (Nat × Nat)) : Bytes :=
  let body := ranks.flatMap fun r => sealEntry common r.1 r.2
  let head (crc : Nat) := layout 4096 [(0, ascii "SEAL"), (4, le 2 1),
    (6, le 2 (b2n h.merged + 2 * b2n h.express + 4 * b2n h.reached)), (8, le 4 (4096 + body.length)), (12, le 4 crc),
    (16, fit 16 h.postmark), (32, le 4 h.stamp), (36, le 4 h.semantics), (40, le 4 (body.length / 8)),
    (44, le 4 (common / max 1 k)), (48, le 8 (common % max 1 k)), (56, le 8 h.nonce), (64, le 8 h.stop),
    (72, le 8 h.deadLetters), (80, le 8 h.substitutions), (88, le 8 h.devices), (96, fit 256 h.desc)]
  head (crc32c (head 0 ++ body)) ++ body

/-- MAGIC, VERSION, LENGTH and CRC of a record hold (Table 2.8, check 1). -/
def sealFramed (b : Bytes) : Bool :=
  decide (4096 ≤ b.length) && b.take 4 == ascii "SEAL" && fld b 4 2 == 1 && fld b 8 4 == b.length &&
    b.length == 4096 + 8 * fld b 40 4 && fld b 12 4 == crc32c (putAt b 12 (zeros 4))

/-- Entries as (rank, step); none where ranks are not ascending or a wide entry lacks its word. -/
def sealEntries (common : Nat) : Nat → Option Nat → Bytes → Option (List (Nat × Nat))
  | 0, _, _ => some []
  | f + 1, last, b =>
    if b.length < 8 then some []
    else
      let v := fld b 0 8
      let r := v % 2 ^ 22
      if last.any (fun l => decide (r ≤ l)) then none
      else if bit v 22 then
        if b.length < 16 then none else (sealEntries common f (some r) (b.drop 16)).map ((r, fld b 8 8) :: ·)
      else
        let s : Int := (common : Int) + signed 40 (v / 2 ^ 24)
        if s < 0 then none else (sealEntries common f (some r) (b.drop 8)).map ((r, s.toNat) :: ·)

/-- COMMON of a record as a step number, its epoch's batch count being k. -/
def sealCommon (k : Nat) (b : Bytes) : Nat := fld b 44 4 * k + fld b 48 8

/-! ### Delivery digests (R322) -/

/-- H(TAG, RANK, STEP, VALUE). -/
def deliveryTerm (tag : String) (rank step value : Nat) : BitVec 64 :=
  BitVec.ofNat 64 (leNat ((sha256 (layout 24 [(0, ascii tag), (4, le 4 rank), (8, le 8 step), (16, le 8 value)])).take 8))

end Sys2Proof.Machine
end

