-- ==== Sys2Proof/Machine/Items.lean ====
section
/-! DEFINITION. Items: configuration by step, places and buffers of an item in flight, its restart, and its one ending
(4, 17, 18: R34, R115, R121 to R123, R535 to R538). -/

namespace Sys2Proof.Machine

open Sys2Proof

/-! ### Jobs and ranks -/

/-- Batches per epoch of a job (R69). -/
def Job.k (j : Job) : Nat := batches j.n j.w j.b

/-- Step of the end cursor (R74). -/
def Job.endStep (j : Job) : Nat := j.epochs * j.k

/-- Post office die of a rank: the die of its egress port (R22). -/
def Rank.die (r : Rank) : Nat := r.port / 2

/-- Step below which an older configuration holds for a rank (R138). -/
def OldConf.boundary (o : OldConf) (rank : Nat) : Nat :=
  match o.rankUpTo.find? fun p => p.1 == rank with
  | some p => p.2
  | none => o.upTo

/-- The older configuration of a parcel of a rank, if it has one (R138). -/
def Job.oldAt (j : Job) (rank step : Nat) : Option OldConf := j.old.find? fun o => decide (step < o.boundary rank)

/-- Configuration of a parcel of a rank (R138). -/
def Job.confAt (j : Job) (rank step : Nat) : JobConf := ((j.oldAt rank step).map (·.conf)).getD j.conf

/-- Stamp of a parcel of a rank (R138). -/
def Job.stampAt (j : Job) (rank step : Nat) : Nat := ((j.oldAt rank step).map (·.stamp)).getD j.stamp

/-- The entry is neither DONE nor FAILED. -/
def Entry.unfinished (e : Entry) : Bool := e.state != .done && e.state != .failed

/-- Items of an older stamp are not all DONE or FAILED (R135, R140). -/
def Job.live (j : Job) (o : OldConf) : Bool :=
  j.ranks.any fun r =>
    (r.window.any fun e => e.unfinished && decide (e.step < o.boundary r.rank)) ||
      decide (r.mapStep < min (o.boundary r.rank) j.endStep)

/-- Two stamps of the job are live (R135). -/
def Job.oldLive (j : Job) : Bool := j.old.any j.live

/-- Reference of a window entry. -/
def Entry.ref (e : Entry) (job rank : Nat) : ItemRef := { job := job, rank := rank, epoch := e.epoch, q := e.q }

/-- Route of an entry (R118, R138). -/
def Job.routeOfEntry (j : Job) (rank : Nat) (e : Entry) : RouteBin := routeOf (j.confAt rank e.step).route

/-- The stage of its path an item is at. -/
def Dev.stageAt (d : Dev) (i : ItemRef) : Option Stage :=
  match d.job i.job, d.entry i with
  | some j, some e => ((j.routeOfEntry i.rank e).path e.format)[e.stage]?
  | _, _ => none

/-- Index of that stage in the route's stage table; 0xFF before the first stage (Table 18.6). -/
def Dev.stageIndex (d : Dev) (i : ItemRef) : Nat :=
  if ((d.entry i).map (·.started)).getD false then ((d.stageAt i).map (·.index)).getD 0xFF else 0xFF

/-- Post office die of an item. -/
def Dev.postDie (d : Dev) (i : ItemRef) : Nat := match d.rank i.job i.rank with
  | some r => r.die
  | none => 0

/-- Die on which an item's path buffers lie: its executing core's (DEDUCED from R119, R494; log entry 15). -/
def Dev.execDie (d : Dev) (i : ItemRef) : Nat := match (d.entry i).bind (·.core) with
  | some c => c.die
  | none => d.postDie i

/-- Route sequencer of a core, the unit that allocates an item's path buffers. -/
def Dev.seqUnit (d : Dev) (c : CoreRef) : UnitRef := d.engineUnit c 9

/-- Sorting office of a die, the unit that allocates stored-bytes and parcel buffers (R499). -/
def officeUnit (die : Nat) : UnitRef := { kind := 0x0B, die := die }

/-! ### Core scratch places (R113, R373) -/

/-- The words of a place become empty, with the wakes this calls for (R373, R380). -/
def Core.emptyWords (x : Core) (p : Place) : Core :=
  (x.scratch.filter fun w => w.full && decide (p.base ≤ w.addr ∧ w.addr < p.base + p.words)).foldl (fun (x : Core) w =>
    (x.setWord w.addr w.value false).wake w.addr false) x

/-- A buffer's place is given back, its words empty (R115, R373). -/
def Core.unplace (x : Core) (i : ItemRef) (n : Nat) : Core :=
  (x.places.filter fun p => p.item == i && p.buf == n).foldl (fun (x : Core) p =>
    ({ x with places := x.places.erase p } : Core).emptyWords p) x

/-- Every place of an item is given back. -/
def Core.unplaceAll (x : Core) (i : ItemRef) : Core :=
  (x.places.filter fun p => p.item == i).foldl (fun (x : Core) p => ({ x with places := x.places.erase p } : Core).emptyWords p) x

/-- First word at or above a base at which a run of words meets no place: places in rising order of base (log entry 16). -/
def firstFit (words : Nat) : List Place → Nat → Nat
  | [], base => base
  | p :: r, base => if base + words ≤ p.base then base else firstFit words r (max base (p.base + p.words))

/-- A place kept in rising order of base. -/
def insertPlace (p : Place) : List Place → List Place
  | [] => [p]
  | x :: r => if p.base < x.base then p :: x :: r else x :: insertPlace p r

/-- A PLACE 0 buffer reserved and its words set empty; none where the scratch has no room (R113, R119, R373). -/
def Core.place (x : Core) (i : ItemRef) (n bytes : Nat) : Option Core :=
  let words := (bytes + 7) / 8
  let base := firstFit words x.places 0
  if scratchWords < base + words then none
  else
    let p : Place := { item := i, buf := n, base := base, words := words }
    some (({ x with places := insertPlace p x.places } : Core).emptyWords p)

/-- All PLACE 0 buffers of an item reserved, or none. -/
def Core.placeAll (x : Core) (i : ItemRef) : List (Nat × Nat) → Option Core
  | [] => some x
  | (n, bytes) :: r => match x.place i n bytes with
    | some x => x.placeAll i r
    | none => none

/-! ### An item leaves its core -/

/-- The item leaves the sacks, the stages and the engines of a core. -/
def Core.drop (x : Core) (i : ItemRef) : Core :=
  let x := x.unplaceAll i
  { x with
    sack := x.sack.filter (· != i)
    nextSack := x.nextSack.filter (· != i)
    flight := x.flight.filter (· != i)
    busy := x.busy.filter fun b => b.item != i
    long := if x.long = some i then none else x.long }

/-- Path buffers of an item are freed and it leaves its core (R115, R121); a wait of its allocation ends. -/
def Dev.freeItem (d : Dev) (i : ItemRef) : Dev :=
  match (d.entry i).bind (·.core) with
  | none => d
  | some c =>
    let d := d.onCore c fun x => x.drop i
    let d := d.onPool c.die fun x => { x with waits := x.waits.filter fun w => w.itemOf != some i }
    ((d.die c.die).pool.bufs.filter fun b => b.use.itemOf == some i).foldl (fun d b => d.bufFree b.handle b.lastOwner) d

/-- The stored-bytes buffer of an item ends: the executing core's hold, then the post office's (R115, R499). -/
def Dev.freeStored (d : Dev) (i : ItemRef) : Dev :=
  let p := d.postDie i
  let d := match (d.entry i).bind (·.core) with
    | some c => d.releaseUse p (.stored i) (d.seqUnit c)
    | none => d
  d.freeUse p (.stored i)

/-! ### The dead-letter log (R538) -/

/-- An entry appended; when the ring holds 65,536 the oldest is overwritten, and reported once per job per epoch (R538). -/
def Dev.deadLetter (d : Dev) (h : Nat) (x : DeadLetter) : Dev :=
  match d.job h with
  | none => d
  | some j =>
    let full := decide (65536 ≤ j.deadLetters.length)
    let d := d.onJob h fun j => { j with
      deadLetters := (if full then j.deadLetters.tail else j.deadLetters) ++ [{ x with seq := j.deadSeq }]
      deadSeq := j.deadSeq + 1
      ctrs := if full then { j.ctrs with dllOverwritten := j.ctrs.dllOverwritten + 1 } else j.ctrs }
    if full ∧ j.dlReported ≠ some x.epoch then
      (d.onJob h fun j => { j with dlReported := some x.epoch }).report St.FLT_DEAD_LETTER_OVERWRITTEN { kind := 0x0D, die := 0 } h
    else d

/-- The unit a failure names, as logical and physical fields: all ones without one (Table 18.6). -/
def Dev.failUnit (d : Dev) : Option UnitRef → BitVec 16 × BitVec 16
  | some u => (d.logicalField u, physicalField u)
  | none => (0xFFFF, 0xFFFF)

/-- Statuses that are run-dependent wherever they occur (Table 10.2). -/
def runDepStatuses : List Status :=
  [St.SRT_HOME_UNREACHABLE, St.SRT_FETCH_REFUSED, St.SRT_LEASE_LOST, St.SRT_LOCAL_READ, St.RTE_RESTART_LIMIT, St.RTE_INPUT_LOST]

/-- A failure as its item ends with it. -/
structure Failure where
  status : Status
  detail : Nat := 0
  /-- stage index, 0xFF before the first stage (Table 18.6) -/
  stage : Nat := 0xFF
  /-- fault-caused flag (R123) -/
  fault : Bool := false
  /-- a status of class 0x30 of the stage that reads STORED, or of CHECK_FRANK, after the re-read (Table 10.2) -/
  stored : Bool := false
  who : Option UnitRef := none
  injected : Bool := false

/-- The failure is run-dependent (R316). -/
def Failure.runDependent (f : Failure) : Bool :=
  f.fault || runDepStatuses.contains f.status || (f.stored && f.status.toNat / 256 == 0x30)

/-! ### Endings (R535 to R537) -/

/-- Counters of an item that ends: begun items leave ITEMS_IN_FLIGHT; one that fails before admission begins and ends at
once (DEDUCED from R535, R537; log entry 17). -/
def endCounts (begun : Bool) (c : JobCtrs) : JobCtrs :=
  if begun then { c with itemsInFlight := c.itemsInFlight - 1 } else { c with itemsStarted := c.itemsStarted + 1 }

/-- The item fails (R121, R123, R536, R538): entry FAILED, buffers freed, dead-letter entry appended. An item that has ended
is unaffected. -/
def Dev.itemFail (d : Dev) (i : ItemRef) (f : Failure) : Dev :=
  match d.job i.job, d.entry i with
  | some j, some e =>
    if e.unfinished = false then d
    else
      let u := d.failUnit f.who
      let stamp := if e.begun then e.stamp else j.stampAt i.rank e.step
      let x : DeadLetter :=
        { seq := 0, q := e.q, index := e.index, epoch := e.epoch, rank := i.rank, slot := e.slot, stamp := stamp,
          status := f.status, flags := b2n f.fault + 2 * b2n f.injected + 4 * b2n f.runDependent + 8 * b2n (e.restarts != 0),
          stage := f.stage, restarts := e.restarts, logical := u.1, physical := u.2, detail := f.detail, time := d.now }
      let d := (d.freeItem i).freeStored i
      let d := d.onEntry i fun e => { e with
        state := .failed, status := f.status, stamp := stamp, running := false, result := none, bufs := [], placed := [],
        tokens := none, stored := none, card := none, core := none, settling := none, faultCaused := f.fault,
        runDependent := f.runDependent, injected := f.injected }
      let d := d.onJobCtrs i.job fun c => let c := endCounts e.begun c; { c with itemsFailed := c.itemsFailed + 1 }
      d.deadLetter i.job x
  | _, _ => d

/-- The item is DONE (R121, R152, R164): buffers freed, output kept for its parcel. -/
def Dev.itemDone (d : Dev) (i : ItemRef) : Dev :=
  match d.entry i with
  | some e =>
    if e.unfinished = false then d
    else
      let d := (d.freeItem i).freeStored i
      let d := d.onEntry i fun e => { e with
        state := .done, running := false, result := none, bufs := [], stored := none, card := none, core := none, settling := none }
      d.onJobCtrs i.job fun c =>
        let c := endCounts e.begun c
        { c with
          itemsDone := c.itemsDone + 1
          frankSettled := c.frankSettled + b2n e.settled }
  | none => d

/-- The item is ABANDONED (R535): everything it holds is freed; the caller frees its entry. An item not yet admitted has not
begun, and one DONE or FAILED is unaffected (R536). -/
def Dev.itemAbandon (d : Dev) (i : ItemRef) : Dev :=
  match d.entry i with
  | some e =>
    let d := (d.freeItem i).freeStored i
    if e.unfinished ∧ e.begun then
      d.onJobCtrs i.job fun c => { c with itemsInFlight := c.itemsInFlight - 1, itemsAbandoned := c.itemsAbandoned + 1 }
    else d
  | none => d

/-- Window entries of a rank that p picks out are freed, their items abandoned. -/
def Dev.abandonWhere (d : Dev) (h rank : Nat) (p : Entry → Bool) : Dev :=
  match d.rank h rank with
  | some r =>
    let d := (r.window.filter p).foldl (fun d e => d.itemAbandon (e.ref h rank)) d
    d.onRank h rank fun r => { r with window := r.window.filter fun e => !p e }
  | none => d

/-! ### Restarts (R34, R123, R382) -/

/-- Watches an item's engines hold on a core are freed without wakes (R382). -/
def Core.freeWatches (x : Core) (slots : List Nat) : Core :=
  let held := fun (w : Watch) => slots.contains (issuerSlot w.waiter)
  { x with watches := x.watches.filter fun w => !held w, slotless := x.slotless.filter fun w => !held w }

/-- Engine slots that hold a stage of an item. -/
def Core.slotsOf (x : Core) (i : ItemRef) : List Nat := (x.busy.filter fun b => b.item == i).map (·.slot)

/-- The item is put back to be admitted again, from its first stage (R34). -/
def Dev.itemRequeue (d : Dev) (i : ItemRef) : Dev :=
  let d := match (d.entry i).bind (·.core) with
    | some c => (d.onCore c fun x => x.freeWatches (x.slotsOf i)).releaseUse (d.postDie i) (.stored i) (d.seqUnit c)
    | none => d
  (d.freeItem i).onEntry i fun e => { e with
    state := if e.stored.isSome then .stored else .mapped
    core := none, started := false, waitCounted := false, stage := 0, running := false, result := none, bufs := [],
    placed := [], tokens := none, ran := [0, 0, 0, 0, 0, 0], overrun := false }

/-- A restart (R34, R123): the eighth fails the item with RTE_RESTART_LIMIT and the fault-caused flag; the others count in
RESTARTS. Answers false where the item failed. -/
def Dev.itemRestart (d : Dev) (i : ItemRef) (stage : Nat) (who : Option UnitRef) (injected : Bool) : Dev × Bool :=
  match d.entry i with
  | none => (d, false)
  | some e =>
    if e.state ≠ .admitted then (d, false)
    else if 7 ≤ e.restarts then
      (d.itemFail i { status := St.RTE_RESTART_LIMIT, stage := stage, fault := true, who := who, injected := injected }, false)
    else
      let d := d.itemRequeue i
      let d := d.onEntry i fun e => { e with restarts := e.restarts + 1 }
      (d.onJobCtrs i.job fun c => { c with restarts := c.restarts + 1 }, true)

end Sys2Proof.Machine
end

