-- ==== Sys2Proof/Machine/Users.lean ====
section
/-! DEFINITION. What the courier's users make of a work request that ends: poste restante (R304, R307), remote fetches
(Table 3.5), stream responses (R261). -/

namespace Sys2Proof.Machine

open Sys2Proof

/-! ### Poste restante (R304, R307) -/

/-- A released parcel goes, or goes back, to poste restante; each parcel held adds 1 to PR_HELD (R304, R307). -/
def Rank.hold (r : Rank) (step now : Nat) : Rank :=
  if r.parcels.any fun p => p.step == step && p.heldSince == none && !p.acked then
    { r with
      parcels := updWhere r.parcels (fun p => p.step == step) fun p => { p with heldSince := some now }
      parcel := { r.parcel with prHeld := r.parcel.prHeld + 1 } }
  else r

/-- A parcel whose writes were interrupted returns to poste restante (R307). -/
def Dev.parcelReturn (d : Dev) (job rank step : Nat) : Dev := d.onRank job rank fun r => r.hold step d.now

/-- The rank's region refused a write (R304). -/
def Dev.regionRefused (d : Dev) (job rank : Nat) : Dev := d.onRank job rank fun r => { r with refused := true }

/-! ### Peers and segments (R83 to R85) -/

/-- Dataset of a handle. -/
def Dev.dataset (d : Dev) (h : Nat) : Option Dataset := d.datasets.find? fun x => x.handle == h

/-- Peer number of this device in a node map (R84). -/
def thisPeer : Nat := 0xFFFFFFFE

/-- No peer (R84). -/
def noPeer : Nat := 0xFFFFFFFF

/-- Segment and local offset of an index of a job's dataset (R83). -/
def Dev.segmentOfIndex (d : Dev) (j : Job) (i : Nat) : Option (Nat × Nat) :=
  match d.dataset j.dataset with
  | some x => segmentOf (x.segs.map (·.1)) 0 i
  | none => none

/-- (PRIMARY, ALTERNATE) peer numbers of an index. -/
def Dev.peersOf (d : Dev) (j : Job) (i : Nat) : Nat × Nat :=
  match d.segmentOfIndex j i with
  | some (s, _) => j.nodeMap.getD s (noPeer, noPeer)
  | none => (noPeer, noPeer)

/-- Connection of a peer number (R84). -/
def Job.peerQpn (j : Job) (n : Nat) : Nat := j.peers.getD n 0xFFFFFFFF

/-- The sample of an index is read from this device's own store (R85). -/
def Dev.isLocal (d : Dev) (j : Job) (i : Nat) : Bool := (d.peersOf j i).1 == thisPeer

/-! ### Remote fetch outcomes (Table 3.5) -/

/-- d with the fetch state of a die changed. -/
def Dev.onFetch (d : Dev) (die : Nat) (f : FetchDie → FetchDie) : Dev := d.onDie die fun x => { x with fetch := f x.fetch }

/-- d with a rank's sorting counters changed. -/
def Dev.onSort (d : Dev) (job rank : Nat) (f : SortCtrs → SortCtrs) : Dev :=
  d.onRank job rank fun r => { r with sort := f r.sort }

/-- The entry joins the next fetch request to a peer (R95): PRIMARY, or the ALTERNATE. A move to the ALTERNATE counts in
ALTERNATE_FETCHES, any other reissue in REMOTE_RETRIES (Table 3.5). -/
def Dev.refetch (d : Dev) (i : ItemRef) (alt : Bool) : Dev :=
  match d.job i.job, d.entry i with
  | some j, some e =>
    let ps := d.peersOf j e.index
    let qpn := j.peerQpn (if alt then ps.2 else ps.1)
    let seg := ((d.segmentOfIndex j e.index).getD (0, 0)).1
    let die := d.postDie i
    let d := d.onFetch die fun f => { f with waiting := f.waiting ++ [{ qpn := qpn, segment := seg, item := i, since := d.now, alt := alt }] }
    let d := d.onEntry i fun e => { e with
      remote := { e.remote with
        retryAt := none, busy := false, staged := false, reading := false, toAlternate := alt
        altTried := e.remote.altTried || alt } }
    d.onSort i.job i.rank fun c =>
      if alt ∧ e.remote.toAlternate = false then { c with alternateFetches := c.alternateFetches + 1 } else { c with remoteRetries := c.remoteRetries + 1 }
  | _, _ => d

/-- An ALTERNATE exists and has not been tried. -/
def Dev.altOpen (d : Dev) (i : ItemRef) : Bool :=
  match d.job i.job, d.entry i with
  | some j, some e => (d.peersOf j e.index).2 != noPeer && !e.remote.altTried
  | _, _ => false

/-- Status of an item whose fetch was refused, or failed at the store or media of its home node (Table 3.5). -/
def Dev.fetchRefused (d : Dev) (i : ItemRef) (st : Status) : Dev :=
  if d.altOpen i then d.refetch i true else d.itemFail i { status := st }

/-- An RDMA READ refused with a remote-access error: the fetch is reissued; the third refusal fails the item (Table 3.5). -/
def Dev.readRefused (d : Dev) (i : ItemRef) : Dev :=
  match d.entry i with
  | none => d
  | some e =>
    if e.state ≠ .readIssued then d
    else if 2 ≤ e.remote.refusals then d.itemFail i { status := St.SRT_LEASE_LOST }
    else (d.onEntry i fun e => { e with remote := { e.remote with refusals := e.remote.refusals + 1 } }).refetch i e.remote.toAlternate

/-- A pending entry of a peer whose connection failed: to the ALTERNATE, or every 10 ms to PRIMARY (Table 3.5). -/
def Dev.fetchLost (d : Dev) (i : ItemRef) : Dev :=
  if d.altOpen i then d.refetch i true
  else d.onEntry i fun e => { e with remote := { e.remote with retryAt := some (d.now + 10000000), busy := false, staged := false, reading := false } }

/-- Items of a die that a peer's failed connection leaves pending: waiting, asked for, or being read (Table 3.5). -/
def Dev.pendingAt (d : Dev) (die qpn : Nat) (reading : List ItemRef) : List ItemRef :=
  let f := (d.die die).fetch
  ((f.waiting.filter fun w => w.qpn == qpn).map (·.item)) ++ ((f.outstanding.filter fun o => o.qpn == qpn).map (·.item)) ++ reading

/-- The connection to a peer failed: its pending entries reissue, and releases not yet sent are lost (Table 3.5). -/
def Dev.peerFailed (d : Dev) (die qpn : Nat) (reading : List ItemRef) : Dev :=
  let items := (d.pendingAt die qpn reading).eraseDups
  let d := d.onFetch die fun f => { f with
    waiting := f.waiting.filter fun w => w.qpn != qpn
    outstanding := f.outstanding.filter fun o => o.qpn != qpn
    releases := f.releases.filter fun r => r.qpn != qpn }
  items.foldl Dev.fetchLost d

/-! ### Stored bytes and card (R206 to R210) -/

/-- The object version in effect under an identifier (R400). -/
def Dev.object (d : Dev) (id : Nat) : Option Obj := d.store.objs.find? fun o => o.id == id

/-- Number of an item's card in a card object (R208). -/
def cardNumber (obj : Bytes) (index epoch q : Nat) : Nat :=
  if fld obj 6 1 = 0 then index else (epoch - fld obj 16 4) * fld obj 24 8 + q

/-- An item's epoch lies within the card object's epochs (R208). -/
def cardCovers (obj : Bytes) (epoch : Nat) : Bool :=
  fld obj 6 1 == 0 || decide (fld obj 16 4 ≤ epoch ∧ epoch < fld obj 16 4 + fld obj 20 4)

/-- The card's prefix names the item (R209). -/
def cardKeyOk (obj card : Bytes) (index epoch q : Nat) : Bool :=
  if fld obj 6 1 = 0 then fld card 0 4 == 0xFFFFFFFF && fld card 8 8 == index else fld card 0 4 == epoch && fld card 8 8 == q

/-- The card object of an item's configuration (R206). -/
def Dev.cardObject (d : Dev) (i : ItemRef) : Option Obj :=
  match d.job i.job, d.entry i with
  | some j, some e => d.object (j.confAt i.rank e.step).cardObject
  | _, _ => none

/-- The item's route takes cards (R207). -/
def Dev.takesCard (d : Dev) (i : ItemRef) : Bool :=
  match d.job i.job, d.entry i with
  | some j, some e => (j.routeOfEntry i.rank e).cardLen != 0
  | _, _ => false

/-- Stored bytes are in DRAM: the item's card is read with them, and the entry becomes STORED; a store failure while reading
the card fails the item with SRT_LOCAL_READ, and a card read once stays (R210). No card is read for an epoch the object does not cover (R633). -/
def Dev.toStored (d : Dev) (i : ItemRef) (bytes : Bytes) : Dev :=
  let put := fun (d : Dev) (card : Option Bytes) => d.onEntry i fun e => { e with state := .stored, stored := some bytes, card := card }
  match d.entry i with
  | none => d
  | some e =>
    if e.card.isSome then put d e.card
    else if d.takesCard i = false then put d none
    else match d.cardObject i with
      | none => d.itemFail i { status := St.SRT_LOCAL_READ, detail := St.STO_NO_OBJECT.toNat }
      | some o =>
        if cardCovers o.stored e.epoch = false then put d none
        else
          let len := fld o.stored 8 2
          let d := d.onJobCtrs i.job fun c => { c with cardReads := c.cardReads + 1 }
          put d (some (cut o.stored (64 + cardNumber o.stored e.index e.epoch e.q * len) len))

/-! ### Stream responses (R261) -/

/-- Stream of a number. -/
def Dev.stream (d : Dev) (n : Nat) : Option Stream := d.streams.find? fun s => s.number == n

/-- d with a stream changed. -/
def Dev.onStream (d : Dev) (n : Nat) (f : Stream → Stream) : Dev := { d with streams := updWhere d.streams (fun s => s.number == n) f }

end Sys2Proof.Machine
end

