-- ==== Sys2Proof/Machine/Courier.lean ====
section
/-! DEFINITION. The courier (11): connections, packets and their queues, acknowledgement, windows, failure, regions. -/

namespace Sys2Proof.Machine

open Sys2Proof

/-! ### PSNs and contexts -/

/-- PSN arithmetic is modulo 2^24 (R332). -/
def psnAdd (a n : Nat) : Nat := (a + n) % 2 ^ 24

/-- Distance from b forward to a. -/
def psnSub (a b : Nat) : Nat := (a + 2 ^ 24 - b % 2 ^ 24) % 2 ^ 24

/-- Die of a QPN (Table 11.2). -/
def qpnDie (qpn : Nat) : Nat := bits qpn 23 21

/-- Connection of a local QPN. -/
def Dev.conn (d : Dev) (qpn : Nat) : Option Conn := (d.die (qpnDie qpn)).conns.find? fun c => c.localQpn == qpn

/-- d with a connection changed. -/
def Dev.onConn (d : Dev) (qpn : Nat) (f : Conn → Conn) : Dev :=
  d.onDie (qpnDie qpn) fun x => { x with conns := updWhere x.conns (fun c => c.localQpn == qpn) f }

/-- d with the courier counters of a die changed. -/
def Dev.onCur (d : Dev) (die : Nat) (f : CurCtrs → CurCtrs) : Dev := d.onDie die fun x => { x with cur := f x.cur }

/-- A connection in service (R336). -/
def Dev.connected (d : Dev) (qpn : Nat) : Bool := match d.conn qpn with
  | some c => c.state == .connected
  | none => false

/-- A context is used: a miss loads it and evicts the least recently used of 4,096 (R331). -/
def Dev.ctxTouch (d : Dev) (qpn : Nat) : Dev :=
  let die := qpnDie qpn
  let cache := (d.die die).ctxCache
  let d := if cache.contains qpn then d else d.onCur die fun c => { c with ctxMisses := c.ctxMisses + 1 }
  d.onDie die fun x => { x with ctxCache := (qpn :: cache.filter (· != qpn)).take 4096 }

/-- Retransmission timeout of a connection, ns: 4.096 µs × 2^T (R334). -/
def Conn.timeout (c : Conn) : Nat := 4096 * 2 ^ c.ackTimeout

/-! ### Packets (R327, R332, R354, R356) -/

/-- Frame bytes of a packet: Ethernet with tag, IP, UDP, BTH, extension headers, payload to 4 B, ICRC and FCS (R327). -/
def frameLen (ipv6 : Bool) (ext payload : Nat) : Nat :=
  14 + 4 + (if ipv6 then 40 else 20) + 8 + 12 + ext + roundUp payload 4 + 4 + 4

/-- Payload bytes of a work request: a READ's are those it asks for. -/
def Wr.size (w : Wr) : Nat := if w.op = .read then w.len else w.bytes.length

/-- PSNs a work request takes (R332). -/
def Wr.packets (w : Wr) (pmtu : Nat) : Nat := max 1 ((w.size + pmtu - 1) / pmtu)

/-- Dispatch class of a purpose (Table 12.1). -/
def Purpose.cls : Purpose → Nat
  | .parcelData .. | .parcelFlag .. => 2
  | .streamBody .. | .streamHeader .. | .barrier .. => 1
  | _ => 3

/-- Dispatch node of a purpose (R357). -/
def Purpose.node : Purpose → NodeKey
  | .parcelData j r _ | .parcelFlag j r _ => .rank j r
  | .streamBody .. | .streamHeader .. | .barrier .. => .stream
  | _ => .fetch

/-- Payload bytes of packet k of a work request. -/
def Wr.part (w : Wr) (pmtu k : Nat) : Nat := min pmtu (w.size - k * pmtu)

/-- Extension header bytes of packet k of n of a work request: RETH on the first of an RDMA operation, immediate on the last. -/
def Wr.ext (w : Wr) (k n : Nat) : Nat :=
  (if k = 0 ∧ w.op ≠ .send then 16 else 0) + (if k + 1 = n ∧ w.op = .writeImm then 4 else 0)

/-- Packets of a started work request from packet k on; a READ is one request packet for what is left of it. -/
def Conn.pktsFrom (c : Conn) (w : Wr) (k : Nat) : List Pkt :=
  let n := w.packets c.pmtu
  let mk := fun (i win pay : Nat) =>
    { qpn := c.localQpn, psn := psnAdd w.firstPsn i, len := frameLen c.ipv6 (w.ext i n) pay, cls := w.purpose.cls,
      prio := c.dataPrio, window := win, payload := pay : Pkt }
  if w.op = .read then (if k < n then [mk k (w.len - k * c.pmtu) 0] else [])
  else ((List.range n).filter fun i => decide (k ≤ i)).map fun i => mk i (w.part c.pmtu i) (w.part c.pmtu i)

/-- d with one dispatch node of a port changed. -/
def Dev.onNode (d : Dev) (port : Nat) (key : NodeKey) (f : Node → Node) : Dev :=
  d.onPort port fun p => { p with nodes := updWhere p.nodes (fun n => n.key == key) f }

/-- Packets join the queue of their node. -/
def Dev.enqueue (d : Dev) (port : Nat) (key : NodeKey) (ps : List Pkt) : Dev :=
  d.onNode port key fun n => { n with queue := n.queue ++ ps }

/-- An empty queue has deficit 0 (R359). -/
def Node.settle (n : Node) : Node := if n.queue.isEmpty then { n with deficit := 0 } else n

/-- Packets of a connection leave the queues of its port. -/
def Dev.unqueue (d : Dev) (port qpn : Nat) : Dev :=
  d.onPort port fun p => { p with nodes := p.nodes.map fun n => ({ n with queue := n.queue.filter fun k => k.qpn != qpn } : Node).settle }

/-- Extension header bytes of a CONTROL packet. -/
def Ctl.ext : Ctl → Nat
  | .ack .. | .nakSequence .. | .nakRemoteAccess .. | .nakInvalid .. => 4
  | .cnp _ => 16
  | .readResp .. => 4
  | .atomicResp .. => 12

/-- Payload bytes of a CONTROL packet. -/
def Ctl.payload : Ctl → Nat
  | .readResp _ _ _ _ len _ => len
  | _ => 0

/-- PSN a CONTROL packet carries. -/
def Ctl.psn : Ctl → Nat
  | .ack _ p | .nakSequence _ p | .nakRemoteAccess _ p | .nakInvalid _ p => p
  | .cnp _ => 0
  | .readResp _ p _ _ _ _ => p
  | .atomicResp _ p _ => p

/-- A response or CNP joins the CONTROL queue of the connection's port (R354). -/
def Dev.control (d : Dev) (c : Conn) (x : Ctl) : Dev :=
  d.onPort c.port fun p => { p with control := p.control ++
    [{ qpn := c.localQpn, psn := x.psn, len := frameLen c.ipv6 x.ext x.payload, cls := 0, prio := c.respPrio, payload := x.payload, ctl := some x }] }

/-! ### Posting and starting work requests (R332, R344) -/

/-- A work request joins a send queue; one posted to a connection out of service is not taken (R336, R351). -/
def Dev.post (d : Dev) (qpn : Nat) (w : Wr) : Dev :=
  if d.connected qpn then d.onConn qpn fun c => { c with queue := c.queue ++ [w] } else d

/-- Every queue of a wait list has reached its target (R344). -/
def Dev.waitsMet (d : Dev) (w : Wr) : Bool :=
  w.waits.all fun p => match d.conn p.1 with
    | some c => decide (p.2 ≤ c.completed)
    | none => false

/-- The window lets a packet go (R339). -/
def Conn.windowAllows (c : Conn) (n : Nat) : Bool := c.outstanding == 0 || decide (c.outstanding + n ≤ c.cwnd)

/-- The first work request not started may start: its predecessors have, its waits are met, the window takes its first packet
and a READ finds a free place among ORD (R332, R339, R344, Table 11.2). -/
def Dev.startable (d : Dev) (c : Conn) : Option Wr :=
  match c.queue.find? fun w => !w.started with
  | none => none
  | some w =>
    let first := if w.op = .read then w.len else w.part c.pmtu 0
    if d.waitsMet w && c.windowAllows first && (w.op != .read || decide (c.readsOut < c.ord)) then some w else none

/-- The work request takes its PSNs and its packets join dispatch (R332). -/
def Dev.startWr (d : Dev) (c : Conn) (w : Wr) : Dev :=
  let n := w.packets c.pmtu
  let w' := { w with started := true, firstPsn := c.nextPsn, lastPsn := psnAdd c.nextPsn (n - 1) }
  let d := d.onConn c.localQpn fun c => { c with
    queue := (c.queue.takeWhile (·.started)) ++ w' :: (c.queue.dropWhile (·.started)).tail
    nextPsn := psnAdd c.nextPsn n
    readsOut := c.readsOut + b2n (w.op == .read) }
  d.enqueue c.port w.purpose.node (c.pktsFrom w' 0)

/-- WORK_REQUEST_START on a connection (R332, R344). -/
def workRequestStartEffect (qpn : Nat) (_m : Mem) (d : Dev) : Dev :=
  match d.conn qpn with
  | some c =>
    if c.state = .connected ∨ c.state = .disconnecting then
      match d.startable c with
      | some w => (d.ctxTouch qpn).startWr c w
      | none => d
    else d
  | none => d

/-- Courier starting a queued work request once its window and wait list allow. -/
def execWorkRequestStart (qpn : Nat) (s : State) : Host.Outcome State Fault Refusal :=
  .next (s.put (workRequestStartEffect qpn s.mem s.dev))

/-! ### Windows (R339) -/

/-- on_ack of R339. -/
def Conn.onAck (c : Conn) (newly : Nat) : Conn :=
  let acc := c.acc + newly
  if c.cwnd ≤ acc then { c with acc := acc - c.cwnd, cwnd := min c.windowMax (c.cwnd + c.pmtu) } else { c with acc := acc }

/-- The hold of 50 µs since the last cut has passed (R339). -/
def Conn.mayCut (c : Conn) (now : Nat) : Bool := match c.lastCut with
  | some t => decide (50000 ≤ now - t)
  | none => true

/-- on_congestion of R339; a cut that lowers the window counts in WINDOW_CUTS. -/
def Dev.onCongestion (d : Dev) (qpn : Nat) : Dev :=
  match d.conn qpn with
  | none => d
  | some c =>
    if c.mayCut d.now = false then d
    else
      let w := max c.pmtu (c.cwnd - c.cwnd / 4)
      let d := d.onConn qpn fun c => { c with cwnd := w, acc := 0, lastCut := some d.now }
      if w < c.cwnd then d.onCur (qpnDie qpn) fun k => { k with windowCuts := k.windowCuts + 1 } else d

/-- on_timeout of R339. -/
def Dev.onTimeout (d : Dev) (qpn : Nat) : Dev :=
  match d.conn qpn with
  | none => d
  | some c =>
    let d := d.onConn qpn fun c => { c with cwnd := c.pmtu, acc := 0 }
    if c.pmtu < c.cwnd then d.onCur (qpnDie qpn) fun k => { k with windowCuts := k.windowCuts + 1 } else d

/-! ### Completion and failure of work requests (R336, R337) -/

/-- What a completed work request does for its user. -/
def Dev.wrDone (d : Dev) (qpn : Nat) (w : Wr) : Dev :=
  match w.purpose with
  | .parcelFlag j r step => d.onRank j r fun x => { x with parcels := updWhere x.parcels (fun p => p.step == step) fun p => { p with acked := true } }
  | .readStored i handle =>
    let d := d.onFetch (d.postDie i) fun f => { f with releases := f.releases ++ [{ qpn := qpn, handle := handle, since := d.now }] }
    match d.entry i with
    | some e => if e.state = .readIssued then d.toStored i w.got else d
    | none => d
  | _ => d

/-- What a failed work request does to its user (R304, R307, R261, Table 3.5). Fetches of a failed connection are dealt with
for the connection as a whole. -/
def Dev.wrFailed (d : Dev) (w : Wr) (st : Status) : Dev :=
  match w.purpose with
  | .parcelData j r step | .parcelFlag j r step =>
    let d := if st = St.CUR_REMOTE_ACCESS then d.regionRefused j r else d
    d.parcelReturn j r step
  | .streamBody n _ | .streamHeader n _ =>
    if st = St.CUR_REMOTE_ACCESS then d.onStream n fun s => { s with refused := s.refused + 1 } else d
  | .readStored i _ => if st = St.CUR_REMOTE_ACCESS then d.readRefused i else d
  | _ => d

/-- Items whose READ a list of work requests carries. -/
def readItems (ws : List Wr) : List ItemRef :=
  ws.filterMap fun w => match w.purpose with
    | .readStored i _ => some i
    | _ => none

/-- Work requests of other queues that wait on a failed one complete with CUR_WAIT_BROKEN and are not sent (R344). -/
def Dev.breakWaits (d : Dev) (qpn : Nat) : Dev :=
  let hit := fun (w : Wr) => !w.started && w.waits.any fun p => p.1 == qpn
  ((d.die (qpnDie qpn)).conns).foldl (fun d c =>
    let d' := d.onConn c.localQpn fun c => { c with queue := c.queue.filter fun w => !hit w }
    (c.queue.filter hit).foldl (fun d w => d.wrFailed w St.CUR_WAIT_BROKEN) d') d

/-- The unit a connection is in a fault report (Table 18.2). -/
def connUnit (qpn : Nat) : UnitRef := { kind := 0x11, die := qpnDie qpn }

/-- All work requests of a connection end: the oldest with a cause, the later ones with CUR_FLUSHED; its packets leave
dispatch, and waits on it break (R336, R344). -/
def Dev.flushConn (d : Dev) (c : Conn) (cause : Status) : Dev :=
  let d := (d.unqueue c.port c.localQpn).onConn c.localQpn fun c => { c with
    queue := [], outstanding := 0, readsOut := 0, deadline := 0, firstTx := 0, rnrUntil := none }
  let d := (c.queue.zipIdx).foldl (fun d p => d.wrFailed p.1 (if p.2 = 0 then cause else St.CUR_FLUSHED)) d
  let d := d.breakWaits c.localQpn
  if c.kind = 1 then
    let reading := (readItems c.queue).filter fun i => match d.entry i with
      | some e => e.state == .readIssued && e.remote.staged
      | none => false
    (List.range 8).foldl (fun d k => d.peerFailed k c.localQpn (if k = qpnDie c.localQpn then reading else [])) d
  else d

/-- A connection enters error state with a cause (R336): counted, reported at NOTE, and its work requests end. It sends nothing
more except acknowledgements of duplicates. -/
def Dev.connError (d : Dev) (qpn : Nat) (cause : Status) : Dev :=
  match d.conn qpn with
  | none => d
  | some c =>
    if c.state = .error then d
    else
      let d := d.onConn qpn fun c => { c with state := .error, failStatus := cause, inbound := [] }
      let d := d.onPort c.port fun p => { p with control := p.control.filter fun k => k.qpn != qpn }
      let d := d.onCur (qpnDie qpn) fun k => { k with connFailed := k.connFailed + 1 }
      (d.flushConn c cause).report cause (connUnit qpn) (BitVec.ofNat 64 qpn)

/-- A connection is removed and its QPN held back for 1 s; its counters stay in the die's sums (R329, R351, R352). -/
def Dev.freeConn (d : Dev) (c : Conn) : Dev :=
  let die := qpnDie c.localQpn
  let d := d.onDie die fun x => { x with
    conns := x.conns.filter fun y => y.localQpn != c.localQpn
    freedQpns := x.freedQpns ++ [(c.localQpn, d.now)]
    ctxCache := x.ctxCache.filter (· != c.localQpn) }
  let d := d.onPort c.port fun p => { p with control := p.control.filter fun k => k.qpn != c.localQpn }
  d.onCur die fun k => { k with
    goneRetransmits := k.goneRetransmits + c.retransmits
    goneCnpRx := k.goneCnpRx + c.cnpRx
    goneCnpTx := k.goneCnpTx + c.cnpTx
    goneKeyRefused := k.goneKeyRefused + c.keyRefused }

/-- A draining CUR_DISCONNECT returns when every outstanding work request has ended (R351). -/
def Dev.drainCheck (d : Dev) (qpn : Nat) : Dev :=
  match d.conn qpn with
  | some c =>
    match c.drain with
    | some p => if c.queue.isEmpty then (d.freeConn c).answer p {} else d
    | none => d
  | none => d

/-! ### Acknowledgement (R332, R334) -/

/-- PSN p lies from UNA_PSN up to the last one sent. -/
def Conn.inFlight (c : Conn) (p : Nat) : Bool := decide (psnSub p c.unaPsn < psnSub c.sentPsn c.unaPsn)

/-- Work requests at the front of a queue all of whose packets lie below una; a READ ends only with its last response. -/
def splitDone (una first : Nat) : List Wr → List Wr × List Wr
  | [] => ([], [])
  | w :: r =>
    if w.started ∧ w.op ≠ .read ∧ psnSub w.lastPsn first < psnSub una first then
      let x := splitDone una first r
      (w :: x.1, x.2)
    else ([], w :: r)

/-- Payload bytes of the packets of a queue's WRITEs and SENDs from PSN a up to but not including b. -/
def Conn.bytesBetween (c : Conn) (a b : Nat) : Nat :=
  let n := psnSub b a
  (c.queue.map fun w =>
    if w.started = false ∨ w.op = .read then 0
    else ((List.range (w.packets c.pmtu)).map fun k =>
      if psnSub (psnAdd w.firstPsn k) a < n then w.part c.pmtu k else 0).sum).sum

/-- First PSN of the oldest READ not yet answered: acknowledgement does not pass it (R332). -/
def Conn.readBar (c : Conn) : Option Nat := (c.queue.find? fun w => w.started && w.op == .read).map (·.firstPsn)

/-- PSN up to which an acknowledgement of p reaches, exclusive. -/
def Conn.ackReach (c : Conn) (p : Nat) : Nat :=
  let q := psnAdd p 1
  match c.readBar with
  | some b => if psnSub b c.unaPsn < psnSub q c.unaPsn then b else q
  | none => q

/-- First-transmission time of the oldest work request (Table 11.3). -/
def Conn.headTx (c : Conn) : Nat := match c.queue.head? with
  | some w => w.txAt.getD 0
  | none => 0

/-- The timer after an acknowledgement: restarted while a packet is unacknowledged (R334). -/
def Conn.rearm (c : Conn) (now : Nat) : Conn :=
  { c with deadline := if c.unaPsn = c.sentPsn then 0 else now + c.timeout, firstTx := c.headTx }

/-- Packets up to PSN p are acknowledged (R332, R334, R339). -/
def Dev.ackTo (d : Dev) (qpn p : Nat) : Dev :=
  match d.conn qpn with
  | none => d
  | some c =>
    let una := c.ackReach p
    if c.inFlight p = false ∨ una = c.unaPsn then d
    else
      let newly := c.bytesBetween c.unaPsn una
      let x := splitDone una c.unaPsn c.queue
      let d := d.onConn qpn fun c =>
        ({ c with
            unaPsn := una, queue := x.2, retriesLeft := c.retryCount, rnrCount := 0, rnrUntil := none
            outstanding := c.outstanding - newly, completed := c.completed + x.1.length } : Conn).onAck newly |>.rearm d.now
      (x.1.foldl (fun d w => d.wrDone qpn w) d).drainCheck qpn

/-- Packets of a connection from PSN p are to be sent again (R334): they rejoin dispatch, and none of them is outstanding. -/
def Dev.goBack (d : Dev) (qpn p : Nat) : Dev :=
  match d.conn qpn with
  | none => d
  | some c =>
    let d := d.unqueue c.port qpn
    let before := c.bytesBetween c.unaPsn p
    let d := d.onConn qpn fun c => { c with outstanding := before }
    c.queue.foldl (fun d w =>
      if w.started = false ∨ psnSub w.lastPsn c.unaPsn < psnSub p c.unaPsn then d
      else
        let k := if psnSub w.firstPsn c.unaPsn < psnSub p c.unaPsn then psnSub p w.firstPsn else 0
        let k := if w.op = .read then max k (w.got.length / c.pmtu) else k
        d.enqueue c.port w.purpose.node (c.pktsFrom w k)) d

/-- A retry from PSN p: RETRIES_LEFT falls by 1, or the connection fails with none left (R334). -/
def Dev.retryFrom (d : Dev) (qpn p : Nat) : Dev :=
  match d.conn qpn with
  | none => d
  | some c =>
    if c.retriesLeft = 0 then d.connError qpn St.CUR_RETRY_EXCEEDED
    else
      let d := d.onConn qpn fun c => { c with retriesLeft := c.retriesLeft - 1, deadline := d.now + c.timeout }
      d.goBack qpn p

/-! ### As responder: acknowledgements, NAKs and CNPs (R333, R340) -/

/-- An acknowledgement of everything below EXP_PSN (R333). -/
def Dev.sendAck (d : Dev) (qpn : Nat) : Dev :=
  match d.conn qpn with
  | none => d
  | some c => (d.control c (.ack qpn (psnSub c.expPsn 1))).onConn qpn fun c => { c with unacked := 0 }

/-- One packet accepted: acknowledged at the 16th, at AckReq, or 2 µs after the oldest (R333). -/
def Dev.packetTaken (d : Dev) (qpn : Nat) (ackReq : Bool) : Dev :=
  let d := d.onConn qpn fun c => { c with
    unacked := c.unacked + 1, unackedSince := if c.unacked = 0 then d.now else c.unackedSince }
  match d.conn qpn with
  | none => d
  | some c => if ackReq ∨ 16 ≤ c.unacked then d.sendAck qpn else d

/-- A CE mark on an inbound request draws a CNP, at most one per 50 µs (R340). -/
def Dev.ceMarked (d : Dev) (c : Conn) : Dev :=
  let due := match c.lastCnpTx with
    | some t => decide (50000 ≤ d.now - t)
    | none => true
  if due then
    (d.control c (.cnp c.localQpn)).onConn c.localQpn fun c => { c with lastCnpTx := some d.now, cnpTx := c.cnpTx + 1 }
  else d

/-- Where an inbound PSN stands against EXP_PSN (R333). -/
inductive PsnPlace where
  | expected | duplicate | ahead
  deriving DecidableEq, Repr, Inhabited

/-- Place of an inbound PSN. -/
def Conn.place (c : Conn) (psn : Nat) : PsnPlace :=
  let k := psnSub psn c.expPsn
  if k = 0 then .expected else if k < 2 ^ 23 then .ahead else .duplicate

/-- A packet above EXP_PSN: one NAK sequence error for the gap (R333). -/
def Dev.gap (d : Dev) (c : Conn) : Dev :=
  if c.gapNaked then d
  else (d.control c (.nakSequence c.localQpn c.expPsn)).onConn c.localQpn fun c => { c with gapNaked := true }

/-- A NAK invalid request: fatal to the connection (R325, R337). -/
def Dev.nakInvalid (d : Dev) (c : Conn) (psn : Nat) : Dev :=
  (d.connError c.localQpn St.CUR_REMOTE_INVALID).control c (.nakInvalid c.localQpn psn)

/-- A request refused under R347: NAK remote access error, counted; on a PEER connection the responder goes on at the PSN that
follows, elsewhere the NAK is fatal (R337, R347). -/
def Dev.nakAccess (d : Dev) (c : Conn) (psn packets : Nat) (stale : Bool) : Dev :=
  let d := if stale then d.onCur (qpnDie c.localQpn) fun k => { k with keyRefusedGen := k.keyRefusedGen + 1 }
    else d.onConn c.localQpn fun c => { c with keyRefused := c.keyRefused + 1 }
  if c.kind = 1 then
    (d.control c (.nakRemoteAccess c.localQpn psn)).onConn c.localQpn fun c => { c with expPsn := psnAdd psn packets, gapNaked := false }
  else (d.connError c.localQpn St.CUR_REMOTE_ACCESS).control c (.nakRemoteAccess c.localQpn psn)

/-! ### Regions (R345 to R349) -/

/-- Key of a region (R345). -/
def Region.key (r : Region) : Nat := r.die * 2 ^ 29 + r.entry * 256 + r.gen

/-- Region entry of a key on its die. -/
def Dev.region (d : Dev) (die entry : Nat) : Option Region := (d.die die).regions.find? fun r => r.entry == entry

/-- d with a region entry changed. -/
def Dev.onRegion (d : Dev) (die entry : Nat) (f : Region → Region) : Dev :=
  d.onDie die fun x => { x with regions := updWhere x.regions (fun r => r.entry == entry) f }

/-- Operation of an inbound request. -/
inductive Access347 where
  | read | write | atomic
  deriving DecidableEq, Repr, Inhabited

/-- Outcome of the checks of R347. -/
inductive KeyCheck where
  | ok (r : Region) | refused | stale
  deriving DecidableEq, Repr, Inhabited

/-- The connection lies within a scope (R345). -/
def Scope.has (s : Scope) (c : Conn) : Bool := match s with
  | .conn q => q == c.localQpn
  | .owner t => t == c.owner
  | .anyConn => true

/-- The checks of R347, in order. -/
def Dev.checkKey (d : Dev) (c : Conn) (key addr len : Nat) (op : Access347) : KeyCheck :=
  let die := qpnDie c.localQpn
  if bits key 31 29 ≠ die then .refused
  else match d.region die (bits key 28 8) with
    | none => .refused
    | some r =>
      if bits key 7 0 ≠ r.gen then .stale
      else if r.scope.has c = false then .refused
      else if (match op with | .read => r.read | .write => r.write | .atomic => r.atomic) = false then .refused
      else if addr < r.base ∨ r.base + r.len < addr + len ∨ (op = .atomic ∧ addr % 8 ≠ 0) then .refused
      else .ok r

/-- A message of a region is unfinished (R348). -/
def Dev.unfinished (d : Dev) (die entry : Nat) : Bool :=
  (d.die die).conns.any fun c => c.inbound.any fun x => x.entry == entry && !x.cut

/-- One second in ns, the quarantine of a QPN and of a key (R329, R349). -/
def second : Nat := 1000000000

/-- Revocation is complete: the entry is released, a staging buffer is freed, and the waiting command answers (R348, R98). -/
def Dev.revoked (d : Dev) (r : Region) (st : Status) : Dev :=
  let d := d.onDie r.die fun x => { x with
    regions := x.regions.filter fun y => y.entry != r.entry
    freedEntries := x.freedEntries ++ [(r.entry, r.gen, d.now)]
    goneKeys := (x.goneKeys.filter fun k => decide (d.now - k.2.2 < second)) ++ [(r.entry, (r.gen + 255) % 256, d.now)] }
  let d := match r.staging with
    | some h => d.freeUse r.die (.staging h)
    | none => d
  match r.revoking with
  | some (_, p) => d.answerTo p (if st = St.SUCCESS then {} else fail st)
  | none => d

/-- The generation advances and revocation begins; with no message unfinished it is complete at once (R348). -/
def Dev.revoke (d : Dev) (die entry : Nat) (p : Option Nat) : Dev :=
  match d.region die entry with
  | none => d
  | some r =>
    if r.revoking.isSome then d
    else
      let r' := { r with gen := (r.gen + 1) % 256, revoking := some (d.now, p) }
      let d := d.onRegion die entry fun _ => r'
      if d.unfinished die entry then d else d.revoked r' St.SUCCESS

/-- A free region entry and its generation: never used first, then the one released longest ago whose key value is out of its
quarantine (R349; log entry 18). -/
def Die.freeEntry (x : Die) (now : Nat) : Option (Nat × Nat) :=
  if x.nextEntry < 131072 then some (x.nextEntry, 0)
  else (x.freedEntries.find? fun p => !(x.goneKeys.any fun k => k.1 == p.1 && k.2.1 == p.2.1 && decide (now - k.2.2 < second))).map
    fun p => (p.1, p.2.1)

/-- A region registered on a die; none where no entry is free (R346). -/
def Dev.register (d : Dev) (die : Nat) (mk : Nat → Nat → Region) : Option (Region × Dev) :=
  match (d.die die).freeEntry d.now with
  | none => none
  | some (e, g) =>
    let r := mk e g
    some (r, d.onDie die fun x => { x with
      regions := x.regions ++ [r]
      nextEntry := if x.nextEntry < 131072 then x.nextEntry + 1 else x.nextEntry
      freedEntries := x.freedEntries.filter fun p => p.1 != e })

end Sys2Proof.Machine
end

