-- ==== Sys2Proof/Machine/Packets.lean ====
section
/-! DEFINITION. Courier packets and timers (11): inbound requests, acknowledgements, NAKs, READ responses, CNPs, and the
events of a connection's clocks. -/

namespace Sys2Proof.Machine

open Sys2Proof

/-! ### The ingress buffer (R369) -/

/-- Shared bytes of an ingress buffer (R369). -/
def ingressShared : Nat := 7 * 524288

/-- Free shared bytes of a port's ingress buffer. -/
def EthPort.ingressFree (p : EthPort) : Nat := ingressShared - (p.ingress.map (·.len)).sum

/-- XOFF for every DATA_PRIO that holds a frame when free space is below HEADROOM; XON at twice HEADROOM (R369). -/
def EthPort.pause (p : EthPort) : EthPort :=
  if p.ingressFree < p.headroom then
    let new := (List.range 8).filter fun k => !(p.xoff.getD k false) && p.ingress.any fun f => f.prio == k
    { p with
      xoff := (List.range 8).map fun k => p.xoff.getD k false || new.contains k
      xoffTx := (List.range 8).map fun k => p.xoffTx.getD k 0 + b2n (new.contains k) }
  else if 2 * p.headroom ≤ p.ingressFree then { p with xoff := List.replicate 8 false }
  else p

/-- A frame leaves the ingress buffer once its consumer has what its answer needs (R369). Answers whether dispatch marked
it CE. -/
def Dev.leaveIngress (d : Dev) (port qpn psn : Nat) : Dev × Bool :=
  match (d.port port).ingress.find? fun f => f.qpn == qpn && f.psn == psn with
  | none => (d, false)
  | some f => (d.onPort port fun p => ({ p with ingress := p.ingress.erase f } : EthPort).pause, f.ce)

/-! ### Arrival of a packet (R326, R327, R340) -/

/-- The connection an inbound packet belongs to; bad ICRC, unknown QPN and wrong P_Key drop it, counted (R326, R327). -/
def Dev.accept (d : Dev) (h : RoceHdr) : Except Dev Conn :=
  let die := qpnDie h.qpn
  if d.dieUp die = false then .error d
  else if h.icrcOk = false then .error (d.onCur die fun c => { c with badIcrc := c.badIcrc + 1 })
  else match d.conn h.qpn with
    | none => .error (d.onCur die fun c => { c with unknownQp := c.unknownQp + 1 })
    | some c =>
      if h.pkey ≠ c.pkey then .error (d.onCur die fun k => { k with badPkey := k.badPkey + 1 })
      else .ok c

/-- One more duplicate under R350. -/
def Dev.dupCount (d : Dev) (die : Nat) : Dev := d.onCur die fun k => { k with dupRequests := k.dupRequests + 1 }

/-- An inbound request: accepted, its context loaded, its CE mark answered, and handed on by its place against EXP_PSN. A
connection in error state acknowledges duplicates and nothing else (R331, R333, R336, R340). -/
def Dev.onRequest (d : Dev) (h : RoceHdr) (dup : Dev → Conn → Dev) (act : Dev → Conn → Dev) : Dev :=
  match d.accept h with
  | .error d => d
  | .ok c =>
    let x := d.leaveIngress c.port h.qpn h.psn
    let d := x.1.ctxTouch h.qpn
    match c.state with
    | .free => d
    | .error => match c.place h.psn with
      | .duplicate => (d.dupCount (qpnDie h.qpn)).sendAck h.qpn
      | _ => d
    | _ =>
      let d := if h.ce || x.2 then d.ceMarked c else d
      match c.place h.psn with
      | .duplicate => dup (d.dupCount (qpnDie h.qpn)) c
      | .ahead => d.gap c
      | .expected => act (d.onConn h.qpn fun c => { c with gapNaked := false }) c

/-! ### INBOUND_WRITE (R341, R347) -/

/-- One WRITE packet placed: bytes land, EXP_PSN moves on, and the message ends at its last packet. -/
def Dev.placeWrite (d : Dev) (h : RoceHdr) (last : Bool) (x : InMsg) (payload : Bytes) : Dev :=
  let d := d.dramWrite x.addr payload
  let x' := { x with addr := x.addr + payload.length, left := x.left - payload.length }
  let d := d.onConn h.qpn fun c => { c with
    expPsn := psnAdd c.expPsn 1
    bytesRx := c.bytesRx + payload.length
    inbound := if last then c.inbound.erase x else c.inbound.map fun y => if y = x then x' else y }
  d.packetTaken h.qpn h.ackReq

/-- INBOUND_WRITE (R341, R347, R350): the first packet carries the key and is checked; later packets belong to the checked
message; an immediate, or bytes beyond the message, draws NAK invalid request. -/
def inboundWriteEffect (h : RoceHdr) (first last imm : Bool) (key addr len : Nat) (payload : Bytes) (_m : Mem) (d : Dev) : Dev :=
  d.onRequest h (fun d _ => d.sendAck h.qpn) fun d c =>
    if imm then d.nakInvalid c h.psn
    else if first then
      match d.checkKey c key addr len .write with
      | .refused => d.nakAccess c h.psn 1 false
      | .stale => d.nakAccess c h.psn 1 true
      | .ok r =>
        if len < payload.length ∨ (last ∧ payload.length ≠ len) then d.nakInvalid c h.psn
        else
          let x : InMsg := { write := true, entry := r.entry, addr := addr, left := len, psn := h.psn }
          (d.onConn h.qpn fun c => { c with inbound := c.inbound ++ [x] }).placeWrite h last x payload
    else
      match c.inbound.find? fun x => x.write with
      | none => d.nakInvalid c h.psn
      | some x =>
        if x.cut then
          (d.nakAccess c h.psn 1 false).onConn h.qpn fun c => { c with inbound := c.inbound.erase x }
        else if x.left < payload.length ∨ (last ∧ payload.length ≠ x.left) then d.nakInvalid c h.psn
        else d.placeWrite h last x payload

/-- Inbound RDMA WRITE checked under R347 and placed in PSN order. -/
def execInboundWrite (hdr : RoceHdr) (first last imm : Bool) (key addr len : Nat) (payload : Bytes) (s : State) :
    Host.Outcome State Fault Refusal :=
  .next (s.put (inboundWriteEffect hdr first last imm key addr len payload s.mem s.dev))

/-! ### INBOUND_READ_REQUEST (R347, R350) -/

/-- Response packets of a READ (R332). -/
def readPackets (pmtu len : Nat) : Nat := max 1 ((len + pmtu - 1) / pmtu)

/-- The responses of a checked READ join the CONTROL class, one packet per PMTU. -/
def Dev.answerRead (d : Dev) (c : Conn) (psn entry addr len : Nat) : Dev :=
  let n := readPackets c.pmtu len
  let d := d.onConn c.localQpn fun c => { c with
    inbound := c.inbound ++ [{ write := false, entry := entry, addr := addr, left := len, psn := psn }] }
  (List.range n).foldl (fun d k =>
    d.control c (.readResp c.localQpn (psnAdd psn k) entry (addr + k * c.pmtu) (min c.pmtu (len - k * c.pmtu)) (k + 1 == n))) d

/-- A READ request checked and answered; a duplicate is executed again, with R347 applied again (R350). -/
def Dev.doRead (d : Dev) (c : Conn) (psn key addr len : Nat) : Dev :=
  match d.checkKey c key addr len .read with
  | .refused => d.nakAccess c psn (readPackets c.pmtu len) false
  | .stale => d.nakAccess c psn (readPackets c.pmtu len) true
  | .ok r => d.answerRead c psn r.entry addr len

/-- INBOUND_READ_REQUEST (R325, R347, R350, Table 11.2): READs beyond IRD, or above 2^31 B, draw NAK invalid request. -/
def inboundReadRequestEffect (h : RoceHdr) (key addr len : Nat) (_m : Mem) (d : Dev) : Dev :=
  d.onRequest h
    (fun d c => match d.checkKey c key addr len .read with
      | .ok r => d.answerRead c h.psn r.entry addr len
      | .refused => (d.onConn h.qpn fun c => { c with keyRefused := c.keyRefused + 1 }).control c (.nakRemoteAccess h.qpn h.psn)
      | .stale => (d.onCur (qpnDie h.qpn) fun k => { k with keyRefusedGen := k.keyRefusedGen + 1 }).control c (.nakRemoteAccess h.qpn h.psn))
    fun d c =>
      if c.ird ≤ (c.inbound.filter fun x => !x.write).length ∨ 2 ^ 31 < len then d.nakInvalid c h.psn
      else
        let d := d.doRead c h.psn key addr len
        match d.conn h.qpn with
        | none => d
        | some c' =>
          if c'.state = .error ∨ c'.expPsn ≠ c.expPsn then d
          else d.onConn h.qpn fun c => { c with expPsn := psnAdd c.expPsn (readPackets c.pmtu len), unacked := 0 }

/-- Inbound RDMA READ request checked and answered from the region. -/
def execInboundReadRequest (hdr : RoceHdr) (key addr len : Nat) (s : State) : Host.Outcome State Fault Refusal :=
  .next (s.put (inboundReadRequestEffect hdr key addr len s.mem s.dev))

/-! ### INBOUND_ATOMIC (R341, R350) -/

/-- The u64 at a DRAM address. -/
def dramU64 (m : Mem) (a : Nat) : BitVec 64 := BitVec.ofNat 64 (leNat (cellsRead m.dram a 8))

/-- INBOUND_ATOMIC (R325, R347, R350): fetch-add once, the original value returned and kept among the last 16. -/
def inboundAtomicEffect (h : RoceHdr) (compareSwap : Bool) (key addr : Nat) (add : BitVec 64) (m : Mem) (d : Dev) : Dev :=
  d.onRequest h
    (fun d c => match c.atomics.find? fun p => p.1 == h.psn with
      | some p => d.control c (.atomicResp h.qpn h.psn p.2)
      | none => d.nakInvalid c h.psn)
    fun d c =>
      if compareSwap then d.nakInvalid c h.psn
      else match d.checkKey c key addr 8 .atomic with
        | .refused => d.nakAccess c h.psn 1 false
        | .stale => d.nakAccess c h.psn 1 true
        | .ok _ =>
          let old := dramU64 m addr
          let d := d.dramWrite addr (le 8 (old + add).toNat)
          let d := d.onConn h.qpn fun c => { c with
            expPsn := psnAdd c.expPsn 1
            unacked := 0
            atomics := (if 16 ≤ c.atomics.length then c.atomics.tail else c.atomics) ++ [(h.psn, old)] }
          d.control c (.atomicResp h.qpn h.psn old)

/-- Inbound ATOMIC fetch-add executed once, or replayed from its record. -/
def execInboundAtomic (hdr : RoceHdr) (compareSwap : Bool) (key addr : Nat) (add : BitVec 64) (s : State) :
    Host.Outcome State Fault Refusal :=
  .next (s.put (inboundAtomicEffect hdr compareSwap key addr add s.mem s.dev))

/-! ### Inbound SENDs (R325, R326) -/

/-- A SEND has arrived whole on a PEER or CLIENT connection: its packets move EXP_PSN and are acknowledged. Answers the
connection; none where the message is dropped or refused (R325, R326, Table 11.1). -/
def Dev.sendArrived (d : Dev) (qpn : Nat) (payload : Bytes) : Option Conn × Dev :=
  if d.dieUp (qpnDie qpn) = false then (none, d)
  else match d.conn qpn with
    | none => (none, d.onCur (qpnDie qpn) fun k => { k with unknownQp := k.unknownQp + 1 })
    | some c =>
      if c.state ≠ .connected ∧ c.state ≠ .disconnecting then (none, d)
      else if c.kind = 0 ∨ 65568 < payload.length then (none, d.nakInvalid c c.expPsn)
      else
        let d := (d.ctxTouch qpn).onConn qpn fun c => { c with
          expPsn := psnAdd c.expPsn (readPackets c.pmtu payload.length), bytesRx := c.bytesRx + payload.length, gapNaked := false }
        (some c, d.sendAck qpn)

/-! ### ACK_RECEIVED, NAK_RECEIVED, READ_RESPONSE, CNP_RECEIVED -/

/-- A response packet on a connection in service: accepted, its context loaded, CE handled (R331, R340). -/
def Dev.onResponse (d : Dev) (h : RoceHdr) (act : Dev → Conn → Dev) : Dev :=
  match d.accept h with
  | .error d => d
  | .ok c =>
    if c.state ≠ .connected ∧ c.state ≠ .disconnecting then d
    else
      let d := d.ctxTouch h.qpn
      act (if h.ce then d.onCongestion h.qpn else d) c

/-- ACK_RECEIVED (R332, R334, R339); one for packets already acknowledged is discarded (R350). -/
def ackReceivedEffect (h : RoceHdr) (_m : Mem) (d : Dev) : Dev :=
  d.onResponse h fun d c => if c.inFlight h.psn then d.ackTo h.qpn h.psn else d.dupCount (qpnDie h.qpn)

/-- Acknowledgement advancing UNA_PSN, completing work requests and growing the window. -/
def execAckReceived (hdr : RoceHdr) (s : State) : Host.Outcome State Fault Refusal :=
  .next (s.put (ackReceivedEffect hdr s.mem s.dev))

/-- The started work request a PSN belongs to. -/
def Conn.wrAt (c : Conn) (psn : Nat) : Option Wr :=
  c.queue.find? fun w => w.started && decide (psnSub psn w.firstPsn ≤ psnSub w.lastPsn w.firstPsn)

/-- A NAK remote access error on a PEER connection: the refused work request completes with CUR_REMOTE_ACCESS and the next
goes on (R337). -/
def Dev.wrRefused (d : Dev) (c : Conn) (w : Wr) : Dev :=
  let after := psnAdd w.lastPsn 1
  let d := d.onPort c.port fun p => { p with nodes := p.nodes.map fun n =>
    ({ n with queue := n.queue.filter fun k => !(k.qpn == c.localQpn && decide (psnSub k.psn w.firstPsn ≤ psnSub w.lastPsn w.firstPsn)) } : Node).settle }
  let d := d.onConn c.localQpn fun c =>
    ({ c with
        queue := c.queue.erase w
        unaPsn := after
        sentPsn := if psnSub c.sentPsn w.firstPsn < psnSub after w.firstPsn then after else c.sentPsn
        outstanding := c.outstanding - (if w.op = .read then w.len - w.got.length else c.bytesBetween c.unaPsn after)
        readsOut := c.readsOut - b2n (w.op == .read)
        retriesLeft := c.retryCount } : Conn).rearm d.now
  (d.wrFailed w St.CUR_REMOTE_ACCESS).drainCheck c.localQpn

/-- NAK_RECEIVED (R334, R337): packets before its PSN are acknowledged, then the kind decides. -/
def nakReceivedEffect (h : RoceHdr) (kind : NakKind) (_m : Mem) (d : Dev) : Dev :=
  d.onResponse h fun d c =>
    if c.inFlight h.psn = false then d.dupCount (qpnDie h.qpn)
    else
      let d := if h.psn = c.unaPsn then d else d.ackTo h.qpn (psnSub h.psn 1)
      match kind with
      | .sequence => (d.retryFrom h.qpn h.psn).drainCheck h.qpn
      | .rnr t =>
        match d.conn h.qpn with
        | none => d
        | some c =>
          if 6 ≤ c.rnrCount then (d.connError h.qpn St.CUR_RNR_EXCEEDED).drainCheck h.qpn
          else (d.unqueue c.port h.qpn).onConn h.qpn fun c => { c with rnrCount := c.rnrCount + 1, rnrUntil := some (d.now + min t 10240000) }
      | .remoteAccess =>
        match d.conn h.qpn with
        | none => d
        | some c =>
          if c.kind = 1 then match c.wrAt h.psn with
            | some w => d.wrRefused c w
            | none => d
          else (d.connError h.qpn St.CUR_REMOTE_ACCESS).drainCheck h.qpn
      | .invalidRequest => (d.connError h.qpn St.CUR_REMOTE_INVALID).drainCheck h.qpn
      | .remoteOp => (d.connError h.qpn St.CUR_REMOTE_OP).drainCheck h.qpn

/-- NAK of sequence, RNR, remote access or other kind causing resend, wait, work-request failure or error state. -/
def execNakReceived (hdr : RoceHdr) (kind : NakKind) (s : State) : Host.Outcome State Fault Refusal :=
  .next (s.put (nakReceivedEffect hdr kind s.mem s.dev))

/-- READ_RESPONSE (R332, R339, R350): the packet's bytes are taken in order, and its last one completes the READ. -/
def readResponseEffect (h : RoceHdr) (last : Bool) (payload : Bytes) (_m : Mem) (d : Dev) : Dev :=
  d.onResponse h fun d c =>
    match c.wrAt h.psn with
    | none => d.dupCount (qpnDie h.qpn)
    | some w =>
      if w.op ≠ .read ∨ psnSub h.psn w.firstPsn ≠ w.got.length / c.pmtu then d.dupCount (qpnDie h.qpn)
      else
        let d := if w.firstPsn = c.unaPsn ∨ h.psn ≠ w.firstPsn then d else d.ackTo h.qpn (psnSub w.firstPsn 1)
        let w' := { w with got := w.got ++ payload }
        let d := d.onConn h.qpn fun c =>
          ({ c with
              queue := if last then c.queue.erase w else c.queue.map fun y => if y = w then w' else y
              unaPsn := if last then psnAdd w.lastPsn 1 else psnAdd h.psn 1
              outstanding := c.outstanding - payload.length
              bytesRx := c.bytesRx + payload.length
              readsOut := c.readsOut - b2n last
              completed := c.completed + b2n last
              retriesLeft := c.retryCount } : Conn).onAck payload.length |>.rearm d.now
        if last then (d.wrDone h.qpn w').drainCheck h.qpn else d

/-- Arrival of a READ response packet, completing the READ at its last packet. -/
def execReadResponse (hdr : RoceHdr) (last : Bool) (payload : Bytes) (s : State) : Host.Outcome State Fault Refusal :=
  .next (s.put (readResponseEffect hdr last payload s.mem s.dev))

/-- CNP_RECEIVED: counted, and the window is cut (R339, R352). -/
def cnpReceivedEffect (qpn : Nat) (_m : Mem) (d : Dev) : Dev :=
  match d.conn qpn with
  | none => d.onCur (qpnDie qpn) fun k => { k with unknownQp := k.unknownQp + 1 }
  | some _ => ((d.ctxTouch qpn).onConn qpn fun c => { c with cnpRx := c.cnpRx + 1 }).onCongestion qpn

/-- Receipt of a CNP cutting the connection window. -/
def execCnpReceived (qpn : Nat) (s : State) : Host.Outcome State Fault Refusal :=
  .next (s.put (cnpReceivedEffect qpn s.mem s.dev))

/-! ### Timers (R333 to R335, R348) -/

/-- ACK_TIMER: 2 µs after the oldest packet not acknowledged (R333). -/
def ackTimerEffect (qpn : Nat) (_m : Mem) (d : Dev) : Dev :=
  match d.conn qpn with
  | some c => if c.unacked = 0 then d else (d.until (c.unackedSince + 2000)).sendAck qpn
  | none => d

/-- 2 µs after the oldest unacknowledged inbound packet, sending an acknowledgement. -/
def execAckTimer (qpn : Nat) (s : State) : Host.Outcome State Fault Refusal :=
  .next (s.put (ackTimerEffect qpn s.mem s.dev))

/-- RETRANSMIT_TIMEOUT (R334, R339): counted; the window falls to PMTU, and everything from UNA_PSN is sent again. -/
def retransmitTimeoutEffect (qpn : Nat) (_m : Mem) (d : Dev) : Dev :=
  match d.conn qpn with
  | some c =>
    if c.deadline = 0 then d
    else
      let d := ((d.until c.deadline).ctxTouch qpn).onCur (qpnDie qpn) fun k => { k with timeouts := k.timeouts + 1 }
      ((d.onTimeout qpn).retryFrom qpn c.unaPsn).drainCheck qpn
  | none => d

/-- Retransmission timer expiry resending from UNA_PSN and cutting the window. -/
def execRetransmitTimeout (qpn : Nat) (s : State) : Host.Outcome State Fault Refusal :=
  .next (s.put (retransmitTimeoutEffect qpn s.mem s.dev))

/-- RNR_WAIT_EXPIRY: the wait ends and the write is sent again (R334). -/
def rnrWaitExpiryEffect (qpn : Nat) (_m : Mem) (d : Dev) : Dev :=
  match d.conn qpn with
  | some c => match c.rnrUntil with
    | some t => ((d.until t).onConn qpn fun c => { c with rnrUntil := none }).goBack qpn c.unaPsn
    | none => d
  | none => d

/-- End of an RNR wait resending the flag write. -/
def execRnrWaitExpiry (qpn : Nat) (s : State) : Host.Outcome State Fault Refusal :=
  .next (s.put (rnrWaitExpiryEffect qpn s.mem s.dev))

/-- WORK_REQUEST_LIFETIME: 300 ms after the oldest work request's first transmission (R335). -/
def workRequestLifetimeEffect (qpn : Nat) (_m : Mem) (d : Dev) : Dev :=
  match d.conn qpn with
  | some c => match c.queue.head?.bind (·.txAt) with
    | some t => ((d.until (t + 300000000)).connError qpn St.CUR_TIMEOUT).drainCheck qpn
    | none => d
  | none => d

/-- A work request outstanding 300 ms, putting the connection in error with CUR_TIMEOUT. -/
def execWorkRequestLifetime (qpn : Nat) (s : State) : Host.Outcome State Fault Refusal :=
  .next (s.put (workRequestLifetimeEffect qpn s.mem s.dev))

/-- REVOCATION_COMPLETE: no checked message of a region in revocation remains unfinished (R348 step 3). -/
def revocationCompleteEffect (die entry : Nat) (_m : Mem) (d : Dev) : Dev :=
  match d.region die entry with
  | some r => if r.revoking.isSome ∧ d.unfinished die entry = false then d.revoked r St.SUCCESS else d
  | none => d

/-- Last checked message on a revoked region finishing, completing revocation. -/
def execRevocationComplete (die entry : Nat) (s : State) : Host.Outcome State Fault Refusal :=
  .next (s.put (revocationCompleteEffect die entry s.mem s.dev))

/-- Unfinished messages of a region are cut: their READ responses stop, their further packets are refused (R348 step 4). -/
def Dev.cutMessages (d : Dev) (die entry : Nat) : Dev :=
  let d := d.onDie die fun x => { x with conns := x.conns.map fun c => { c with
    inbound := (c.inbound.filter fun y => y.write || y.entry != entry).map fun y => if y.entry = entry then { y with cut := true } else y } }
  { d with ports := d.ports.mapIdx fun i p => if i / 2 = die then { p with control := p.control.filter fun k =>
      match k.ctl with
      | some (.readResp _ _ e _ _ _) => e != entry
      | _ => true } else p }

/-- REVOCATION_CUT: 10 ms after revocation began with messages unfinished (R348 step 4). -/
def revocationCutEffect (die entry : Nat) (_m : Mem) (d : Dev) : Dev :=
  match d.region die entry with
  | some r => match r.revoking with
    | some (t, _) =>
      let d := d.until (t + 10000000)
      if d.unfinished die entry then (d.cutMessages die entry).revoked r St.CUR_REVOKE_CUT else d.revoked r St.SUCCESS
    | none => d
  | none => d

/-- 10 ms after revocation began, cutting unfinished messages with CUR_REVOKE_CUT. -/
def execRevocationCut (die entry : Nat) (s : State) : Host.Outcome State Fault Refusal :=
  .next (s.put (revocationCutEffect die entry s.mem s.dev))

end Sys2Proof.Machine
end

