-- ==== Sys2Proof/Machine/Pgh.lean ====
section
/-! DEFINITION. Serving a pigeonhole request: framing, sequence rule, start state, reserved fields and handles, in the
order of R580; each command's own work follows in the file of its group. -/

namespace Sys2Proof.Machine

open Sys2Proof

/-- A pigeonhole command: what the shared checks need of it, and its own checks and effect. -/
structure PghOp where
  opcode : Nat
  /-- the listed fields of the request body: (offset, size) (R579) -/
  used : List (Nat × Nat) := []
  /-- reserved bits inside listed fields are 0 -/
  reserved : Bytes → Bool := fun _ => true
  /-- handles the body names are held (R587) -/
  handles : Bytes → Dev → Bool := fun _ _ => true
  /-- check 6 and the effect, on the body -/
  run : Nat → Bytes → Mem → Dev → Dev

/-- Body size of a command: the end of its last field, in whole 8 B (DEDUCED from R578, R579; log entry 13). -/
def PghOp.size (op : PghOp) : Nat := roundUp (op.used.foldl (fun a f => max a (f.1 + f.2)) 0) 8

/-- Reserved bytes and bits of header and body are 0 (R580 check 4). -/
def PghOp.clean (op : PghOp) (req : Bytes) : Bool :=
  let body := cut req 32 op.size
  (cut req 20 12).all (· == 0) && op.reserved body &&
    (List.range op.size).all fun i => (op.used.any fun f => decide (f.1 ≤ i ∧ i < f.1 + f.2)) || body.getD i 0 == 0

/-- CRC field of a request holds CRC-32C over header and body, the field taken as 0 (Table 20.1). -/
def requestCrcOk (req : Bytes) : Bool :=
  let n := 32 + fld req 12 4
  decide (n ≤ 4096) && fld req 16 4 == crc32c (putAt (fit n req) 16 (zeros 4))

/-- MAGIC, VERSION and CRC hold (R580 check 1). -/
def requestFramed (req : Bytes) : Bool := cut req 0 4 == ascii "PGRQ" && fld req 4 2 == 1 && requestCrcOk req

/-- Framing of a request for a command (R580 check 1). -/
def PghOp.framed (op : PghOp) (req : Bytes) : Bool := requestFramed req && fld req 12 4 == op.size

/-- The SEQ that follows one (R581). -/
def nextSeq (n : Nat) : Nat := if n = 0xFFFFFFFF then 1 else n + 1

/-- Verdict of the sequence rule (R581). -/
inductive SeqVerdict where
  | new | duplicate | mismatch | wrong
  deriving DecidableEq, Repr, Inhabited

/-- The sequence rule (R581); SEQ 0 is no sequence number (Table 20.1). -/
def Pgh.verdict (h : Pgh) (seq crc : Nat) : SeqVerdict :=
  if seq = 0 then .wrong
  else if seq = nextSeq h.lastSeq then .new
  else if seq = h.lastSeq then (if crc = h.crc then .duplicate else .mismatch)
  else .wrong

/-- Commands accepted in recovery mode (R555). -/
def recoveryOps : List Nat :=
  [0x0101, 0x0102, 0x0901, 0x0902, 0x0904, 0x0A02, 0x0A03, 0x0B01, 0x0B02, 0x0C01, 0x0C02, 0x0C03, 0x0C04]

/-- Neither Roist image passes its check, and the boot ROM serves (R555). -/
def Dev.noImage (d : Dev) : Bool := !d.nor.imageA.valid && !d.nor.imageB.valid

/-- Status a command is refused with in the present start state (R586, R555). -/
def Dev.stateRefusal (d : Dev) (opcode : Nat) : Option Status :=
  match d.start with
  | .starting =>
    if opcode = 0x0101 ∨ opcode = 0x0102 ∨ opcode = 0x0107 ∨ opcode / 256 = 9 ∨ opcode = 0x0A03 then none
    else some St.PGH_NOT_READY
  | .ready => if opcode = 0x0203 ∨ opcode = 0x0205 then some St.PGH_NOT_READY else none
  | .normal => none
  | .recovery =>
    if d.noImage then (if [0x0101, 0x0B01, 0x0B02].contains opcode then none else some St.RSTP_RECOVERY_MODE)
    else if recoveryOps.contains opcode then none else some St.RSTP_RECOVERY_MODE

/-- A failure at check 1 or 2: the response is written and nothing stored (R580). -/
def Dev.rejectFrame (d : Dev) (p : Nat) (st : Status) : Dev :=
  let h := d.hole p
  d.respond p (responseBytes (fld h.request 6 2) (fld h.request 8 4) h.lastSeq false (fail st))

/-- A stored response written again with FLAGS[0] set (R581). -/
def replayOf (stored : Bytes) : Bytes := putAt stored 18 (le 2 (fld stored 18 2 ||| 1))

/-- What R580 makes of a request before check 6: the status of the first failed check from 3 to 5. -/
def PghOp.refusal (op : PghOp) (req : Bytes) (d : Dev) : Option Status :=
  match d.stateRefusal op.opcode with
  | some st => some st
  | none =>
    if op.clean req = false then some St.PGH_RESERVED
    else if op.handles (cut req 32 op.size) d = false then some St.PGH_HANDLE
    else none

/-- The request in pigeonhole p's area is served as a command (R576 steps 2 to 5, R580, R581). -/
def PghOp.serve (op : PghOp) (p : Nat) (m : Mem) (d : Dev) : Dev :=
  let h := d.hole p
  let req := h.request
  if op.framed req = false then d.rejectFrame p St.PGH_FRAME
  else
    match h.verdict (fld req 8 4) (fld req 16 4) with
    | .wrong => d.rejectFrame p St.PGH_SEQ
    | .mismatch => d.rejectFrame p St.PGH_SEQ_MISMATCH
    | .duplicate => d.respond p (replayOf h.stored)
    | .new =>
      match op.refusal req d with
      | some st => d.answer p (fail st)
      | none => op.run p (cut req 32 op.size) m d

/-- A pigeonhole can be rung: its port is trained, its SRAM's die is in service and pigeonholes are open (R575, Table
19.2 step 6, R555). -/
def Dev.holeReachable (d : Dev) (p : Nat) : Bool :=
  decide (p < 128) && decide (6 ≤ d.seqs.step) && d.pins.trained.getD (p / 32) false && d.dieUp (2 * (p / 32)) &&
    (d.start != .recovery || decide (p < 32))

/-- Acceptance of a doorbell: BUSY set and DONE cleared in the same cycle (R576, R611). -/
def Dev.holeTaken (d : Dev) (p : Nat) : Dev := d.onHole p fun h => { h with busy := true, done := false }

/-- A doorbell for a busy pigeonhole (R576). -/
def Dev.doorbellIgnored (d : Dev) (p : Nat) : Dev :=
  { d with pghPorts := d.pghPorts.modify (p / 32) fun x => { x with ignored := satSucc x.ignored } }

/-- The request area after host software wrote a frame into it (R576). -/
def Dev.requestWritten (d : Dev) (p : Nat) (frame : Bytes) : Dev :=
  d.onHole p fun h => { h with request := fit 4096 (frame ++ h.request.drop frame.length) }

/-- Host software writes a request frame into pigeonhole p and rings its doorbell. A frame of another opcode is not this
command, and a pigeonhole that cannot be reached sees nothing (log entry 14). -/
def PghOp.ring (op : PghOp) (p : Nat) (frame : Bytes) (m : Mem) (d : Dev) : Dev :=
  if d.holeReachable p = false ∨ fld frame 6 2 ≠ op.opcode then d
  else if (d.hole p).busy then d.doorbellIgnored p
  else op.serve p m ((d.requestWritten p frame).holeTaken p)

/-- A request whose opcode no table holds (R580 check 1). -/
def pghUnknown (p : Nat) (d : Dev) : Dev :=
  d.rejectFrame p (if requestFramed (d.hole p).request then St.PGH_OPCODE else St.PGH_FRAME)

/-- A host buffer field of a body: (address, length) (R579). -/
def hostBuf (body : Bytes) (off : Nat) : Nat × Nat := (fld body off 8, fld body (off + 8) 8)

/-- Port of a pigeonhole (R575). -/
def portOf (p : Nat) : Nat := p / 32

/-- Bytes of a host buffer through a pigeonhole's own port (R579). -/
def pghRead (m : Mem) (d : Dev) (p : Nat) (buf : Nat × Nat) : Option Bytes := hostRead m d (portOf p) buf.1 buf.2

/-- A result written into a host buffer of a pigeonhole command and the command answered: PGH_BUFFER_SHORT with the length
in DETAIL when it does not fit, PGH_DMA after a refused write (R579, Table 20.8). -/
def Dev.answerBuf (d : Dev) (p : Nat) (buf : Nat × Nat) (data : Bytes) (a : Answer) : Dev :=
  if buf.2 < data.length then d.answer p (fail St.PGH_BUFFER_SHORT data.length)
  else
    let w := d.hostWrite (portOf p) buf.1 buf.2 data
    if w.2 then w.1.answer p a else w.1.answer p (fail St.PGH_DMA)

/-- A handle of a slot and a generation (R587). -/
def handleOf (slot gen : Nat) : Nat := gen % 2 ^ 22 * 1024 + slot

/-- Slot of a handle (R587). -/
def slotOf (h : Nat) : Nat := h % 1024

/-- First slot not in use among n, the slots of the handles given. -/
def freeSlot (n : Nat) (used : List Nat) : Option Nat := (List.range n).find? fun s => !(used.any fun h => slotOf h == s)

end Sys2Proof.Machine
end

