-- ==== Sys2Proof/Machine/CurCmds.lean ====
section
/-! DEFINITION. The courier's pigeonhole commands (11, Table 20.6): regions registered and revoked, connections installed and
removed. -/

namespace Sys2Proof.Machine

open Sys2Proof

/-- Bits of a field that must be 0 are 0. -/
def bitsClear (body : Bytes) (off size used : Nat) : Bool := fld body off size / 2 ^ used == 0

/-- A field holds all ones, the mark of a default (R579). -/
def orDefault (body : Bytes) (off size dflt : Nat) : Nat :=
  if fld body off size = ones (8 * size) then dflt else fld body off size

/-! ### CUR_REGISTER_REGION (R345, R346) -/

/-- Scope a registration asks for; none where it names no connection or is undefined. -/
def Dev.scopeOf (d : Dev) (die scope arg : Nat) : Option Scope :=
  if scope = 0 then (if qpnDie arg = die ∧ (d.conn arg).isSome then some (.conn arg) else none)
  else if scope = 1 then some (.owner (arg + 1))
  else if scope = 2 then some .anyConn
  else none

/-- CUR_REGISTER_REGION (R346): the key of the region, or why there is none. -/
def curRegisterRegionRun (p : Nat) (b : Bytes) (_m : Mem) (d : Dev) : Dev :=
  let die := fld b 0 1
  let perms := fld b 1 1
  let base := fld b 8 8
  let len := fld b 16 8
  match d.scopeOf die (fld b 2 1) (fld b 4 4) with
  | none => d.answer p (fail St.CUR_REGION_BAD)
  | some sc =>
    if d.dieUp die = false ∨ len = 0 ∨ 2 ^ 32 < len ∨ 2 ^ 39 < base + len then d.answer p (fail St.CUR_REGION_BAD)
    else
      match d.register die fun e g =>
          { die := die, entry := e, gen := g, base := base, len := len, read := bit perms 0, write := bit perms 1,
            atomic := bit perms 2, scope := sc, owner := if fld b 2 1 = 1 then fld b 4 4 + 1 else 0 } with
      | none => d.answer p (fail St.CUR_REGION_TABLE_FULL)
      | some (r, d) => d.answer p { body := le 4 r.key }

/-- The command of opcode 0x0601. -/
def curRegisterRegionOp : PghOp where
  opcode := 0x0601
  used := [(0, 1), (1, 1), (2, 1), (4, 4), (8, 8), (16, 8)]
  reserved := fun b => bitsClear b 1 1 3
  handles := fun b d => fld b 2 1 != 1 || (d.job (fld b 4 4)).isSome
  run := curRegisterRegionRun

/-- CUR_REGISTER_REGION: region of device DRAM registered, its key returned. -/
def execCurRegisterRegion (p : Nat) (frame : Bytes) (s : State) : Host.Outcome State Fault Refusal :=
  .next (s.put (curRegisterRegionOp.ring p frame s.mem s.dev))

/-! ### CUR_REVOKE_REGION (R348) -/

/-- CUR_REVOKE_REGION (R348, R349): the key must be current. -/
def curRevokeRegionRun (p : Nat) (b : Bytes) (_m : Mem) (d : Dev) : Dev :=
  let key := fld b 0 4
  match d.region (bits key 31 29) (bits key 28 8) with
  | some r =>
    if r.gen = bits key 7 0 ∧ r.revoking.isNone then d.revoke r.die r.entry (some p)
    else d.answer p (fail St.CUR_KEY_UNKNOWN)
  | none => d.answer p (fail St.CUR_KEY_UNKNOWN)

/-- The command of opcode 0x0602. -/
def curRevokeRegionOp : PghOp where
  opcode := 0x0602
  used := [(0, 4)]
  run := curRevokeRegionRun

/-- CUR_REVOKE_REGION: the generation advances at once, the answer follows the drain. -/
def execCurRevokeRegion (p : Nat) (frame : Bytes) (s : State) : Host.Outcome State Fault Refusal :=
  .next (s.put (curRevokeRegionOp.ring p frame s.mem s.dev))

/-! ### CUR_CONNECT (R328, R329, R343) -/

/-- The connection a CUR_CONNECT body describes, defaults taken (Table 11.2, R579, R590). -/
def connOf (b : Bytes) (order : Nat) : Conn :=
  let f := fld b 12 4
  let w := orDefault b 76 4 1048576
  { kind := fld b 1 1, port := fld b 0 1, ipv6 := bit f 0, relaxed := bit f 1, flagImm := bit f 2,
    localQpn := fld b 4 4, remoteQpn := fld b 8 4, pmtu := orDefault b 64 2 4096,
    dataPrio := fld b 2 1, respPrio := fld b 3 1, dscp := orDefault b 60 1 26,
    remoteIp := cut b 16 16, localIp := cut b 32 16, mac := cut b 48 6, udpSrc := fld b 54 2,
    vlan := orDefault b 56 2 0, pkey := orDefault b 58 2 0xFFFF,
    ackTimeout := orDefault b 61 1 5, retryCount := orDefault b 62 1 7, retriesLeft := orDefault b 62 1 7,
    ord := orDefault b 66 1 16, ird := orDefault b 67 1 16,
    nextPsn := fld b 68 4, unaPsn := fld b 68 4, expPsn := fld b 72 4, sentPsn := fld b 68 4,
    groupPrimary := if fld b 80 4 = 0xFFFFFFFF then none else some (fld b 80 4),
    cwnd := w, windowMax := w, order := order }

/-- Every field lies in its range (Table 11.2). -/
def Conn.inRange (c : Conn) : Bool :=
  decide (c.port ≤ 15) && decide (c.kind ≤ 2) && c.localQpn / 2 ^ 21 == c.port / 2 && decide (c.localQpn % 2 ^ 21 < 131072) &&
  decide (c.remoteQpn < 2 ^ 24) && decide (c.vlan ≤ 4095) && decide (c.dscp ≤ 63) && decide (c.dataPrio ≤ 7) &&
  decide (c.respPrio ≤ 7) && c.dataPrio != c.respPrio && decide (49152 ≤ c.udpSrc) && [1024, 2048, 4096].contains c.pmtu &&
  decide (c.nextPsn < 2 ^ 24) && decide (c.expPsn < 2 ^ 24) && decide (1 ≤ c.ackTimeout ∧ c.ackTimeout ≤ 13) &&
  decide (c.retryCount ≤ 7) && decide (1 ≤ c.ord ∧ c.ord ≤ 128) && decide (1 ≤ c.ird ∧ c.ird ≤ 128) &&
  decide (4 * c.pmtu ≤ c.windowMax ∧ c.windowMax ≤ 4194304)

/-- The fields a group member shares with its primary (R343). -/
def Conn.shared (c : Conn) : List Nat × List Bytes :=
  ([c.kind, c.port, b2n c.ipv6, b2n c.relaxed, b2n c.flagImm, c.pmtu, c.dataPrio, c.respPrio, c.dscp, c.vlan, c.pkey,
    c.ackTimeout, c.retryCount, c.ord, c.ird, c.windowMax], [c.remoteIp, c.localIp, c.mac])

/-- Members of a primary's group, in order of CUR_CONNECT (R343). -/
def Dev.members (d : Dev) (primary : Nat) : List Conn :=
  (d.die (qpnDie primary)).conns.filter fun c => c.groupPrimary == some primary

/-- The group rule of R343: a primary of the same die that is no member, with fewer than 3 members, source ports all different
and every other shared field equal. -/
def Dev.groupOk (d : Dev) (c : Conn) : Bool :=
  match c.groupPrimary with
  | none => true
  | some q =>
    match d.conn q with
    | none => false
    | some g =>
      let ms := d.members q
      decide (qpnDie q = qpnDie c.localQpn) && g.groupPrimary.isNone && decide (ms.length < 3) && c.shared == g.shared &&
        !((g :: ms).any fun x => x.udpSrc == c.udpSrc)

/-- The QPN is held, or was released less than 1 s ago (R329). -/
def Dev.qpnHeld (d : Dev) (qpn : Nat) : Bool :=
  (d.conn qpn).isSome || (d.die (qpnDie qpn)).freedQpns.any fun x => x.1 == qpn && decide (d.now - x.2 < second)

/-- Address of a rank's credit word written with a value (R302). -/
def Dev.setCredit (d : Dev) (job rank value : Nat) : Dev :=
  match d.rank job rank with
  | none => d
  | some r => (d.dramWrite r.creditAddr (le 8 value)).onRank job rank fun r => { r with credit := value }

/-- A barrier message posted to a peer of a job (R387). -/
def Dev.sendBarrier (d : Dev) (job peer : Nat) (msg : Bytes) : Dev :=
  match d.job job with
  | none => d
  | some j => d.post (j.peerQpn peer) { op := .send, bytes := msg, purpose := .barrier job peer }

/-- What the users of a connection do once it is installed: ranks' credit words take their cursor steps and their regions are
tried again (R302, R304), and each barrier edge sends its last message again (R395). -/
def Dev.installed (d : Dev) (qpn : Nat) : Dev :=
  d.jobs.foldl (fun d j =>
    let d := (j.ranks.filter fun r => r.qpn == qpn).foldl (fun d r =>
      (d.setCredit j.handle r.rank r.cursor).onRank j.handle r.rank fun r => { r with refused := false }) d
    let d := if j.barrier.lastUp ≠ [] ∧ j.peerQpn j.parentPeer = qpn then d.sendBarrier j.handle j.parentPeer j.barrier.lastUp else d
    (j.barrier.lastDown.filter fun x => j.peerQpn x.1 == qpn).foldl (fun d x => d.sendBarrier j.handle x.1 x.2) d) d

/-- CUR_CONNECT (R328, R329): ranges, then the QPN, then a context. -/
def curConnectRun (p : Nat) (b : Bytes) (_m : Mem) (d : Dev) : Dev :=
  let die := fld b 0 1 / 2
  let c := connOf b (d.die die).connOrder
  if c.inRange = false ∨ d.groupOk c = false then d.answer p (fail St.CUR_CONNECT_BAD)
  else if d.qpnHeld c.localQpn then d.answer p (fail St.CUR_QPN_IN_USE)
  else if d.dieUp die = false ∨ 131072 ≤ (d.die die).conns.length then d.answer p (fail St.CUR_NO_CONTEXT)
  else
    let d := d.onDie die fun x => { x with
      conns := x.conns ++ [c]
      connOrder := x.connOrder + 1
      freedQpns := x.freedQpns.filter fun y => y.1 != c.localQpn }
    (d.installed c.localQpn).answer p { body := le 4 (c.localQpn % 2 ^ 21) }

/-- The command of opcode 0x0603. -/
def curConnectOp : PghOp where
  opcode := 0x0603
  used := [(0, 4), (4, 4), (8, 4), (12, 4), (16, 16), (32, 16), (48, 6), (54, 2), (56, 2), (58, 2), (60, 3), (64, 2), (66, 2),
    (68, 4), (72, 4), (76, 4), (80, 4)]
  reserved := fun b => bitsClear b 12 4 3
  run := curConnectRun

/-- CUR_CONNECT: a RoCE connection installed. -/
def execCurConnect (p : Nat) (frame : Bytes) (s : State) : Host.Outcome State Fault Refusal :=
  .next (s.put (curConnectOp.ring p frame s.mem s.dev))

/-! ### CUR_DISCONNECT (R351) -/

/-- A connection is named by a bound rank, a peer list, an open stream or a group member (R351). -/
def Dev.connInUse (d : Dev) (qpn : Nat) : Bool :=
  (d.jobs.any fun j => j.peers.contains qpn || j.ranks.any fun r => r.qpn == qpn) ||
    (d.streams.any fun s => s.qpn == qpn) || !(d.members qpn).isEmpty

/-- CUR_DISCONNECT (R351). A connection that is already disconnecting is not installed. -/
def curDisconnectRun (p : Nat) (b : Bytes) (_m : Mem) (d : Dev) : Dev :=
  let qpn := fld b 0 4
  let flags := fld b 4 4
  match d.conn qpn with
  | none => d.answer p (fail St.CUR_NOT_CONNECTED)
  | some c =>
    if c.state = .disconnecting then d.answer p (fail St.CUR_NOT_CONNECTED)
    else if bit flags 1 = false ∧ d.connInUse qpn then d.answer p (fail St.CUR_IN_USE)
    else if bit flags 0 then
      (d.onConn qpn fun c => { c with state := if c.state = .error then .error else .disconnecting, drain := some p }).drainCheck qpn
    else
      let d := (d.onConn qpn fun c => { c with state := .disconnecting, inbound := [] }).flushConn c St.CUR_FLUSHED
      match d.conn qpn with
      | some c => (d.freeConn c).answer p {}
      | none => d.answer p {}

/-- The command of opcode 0x0604. -/
def curDisconnectOp : PghOp where
  opcode := 0x0604
  used := [(0, 4), (4, 4)]
  reserved := fun b => bitsClear b 4 4 2
  run := curDisconnectRun

/-- CUR_DISCONNECT: connection removed, with or without drain. -/
def execCurDisconnect (p : Nat) (frame : Bytes) (s : State) : Host.Outcome State Fault Refusal :=
  .next (s.put (curDisconnectOp.ring p frame s.mem s.dev))

end Sys2Proof.Machine
end

