-- ==== Sys2Proof/Machine/Egress.lean ====
section
/-! DEFINITION. Dispatch (12): nodes, shapers, gates and deficit round robin; frames sent; ingress policing and pause; the
dispatch pigeonhole commands. -/

namespace Sys2Proof.Machine

open Sys2Proof

/-! ### Shapers (R356, R360) -/

/-- Counted length of a frame (R356). -/
def EthPort.counted (p : EthPort) (len : Nat) : Nat := ((len : Int) + p.overhead).toNat

/-- Refill of a rate in Mb/s between two instants, in units of 2^-16 B, kept exactly: 1 Mb/s is 1024/125 units per ns
(R360, R367). -/
def refillOf (rate from_ to_ : Nat) : Nat := to_ * rate * 1024 / 125 - from_ * rate * 1024 / 125

/-- A node's bucket brought to an instant (R360). -/
def Node.refill (n : Node) (now : Nat) : Node :=
  { n with bucket := min ((n.burst : Int) * 65536) (n.bucket + (refillOf n.rate n.refilled now : Nat)), refilled := max n.refilled now }

/-- The node's shaper lets it send (R360). -/
def Node.shaperOk (n : Node) : Bool := n.rate == 0 || decide (0 ≤ n.bucket)

/-- Accounting of a frame at a node of its path (R360, R371). -/
def Node.sent (n : Node) (counted : Nat) : Node :=
  { n with
    bucket := if n.rate = 0 then n.bucket else n.bucket - (counted : Int) * 65536
    txCounted := n.txCounted + counted }

/-! ### Gates (R363 to R365) -/

/-- Entries of a schedule reached within a tick of len ns (R365). -/
def reached (g : Gates) (len : Nat) : Gates := g.filter fun e => decide (e.1 * 10 < len)

/-- A class is open in some reached entry: bit 0 PARCEL, bit 1 FETCH. -/
def everOpen (g : Gates) (len k : Nat) : Bool := (reached g len).any fun e => bit e.2 k

/-- The schedule in force over a tick of len ns, reverted when a class is never open (R365). -/
def Gates.beyond (g : Gates) (len : Nat) : Gates := if everOpen g len 0 && everOpen g len 1 then reached g len else [(0, 3)]

/-- First instant, from the start of a tick, at which a class closes among entries after an offset. -/
def closeAfter (g : Gates) (off k : Nat) : Option Nat :=
  (g.find? fun e => decide (off < e.1 * 10) && !bit e.2 k).map fun e => e.1 * 10

/-- First instant of a tick at which a class is closed. -/
def firstClosed (g : Gates) (k : Nat) : Option Nat := (g.find? fun e => !bit e.2 k).map fun e => e.1 * 10

/-- Schedule of a port over the tick that follows. -/
def Dev.nextGatesOf (d : Dev) (port : Nat) : Gates :=
  let p := d.port port
  let len := match d.clk.pending with
    | some (t, per, _) => if t = d.clk.tick + 1 then per * 10 else d.clk.period * 10
    | none => d.clk.period * 10
  match p.nextGates with
  | some (t, g) => if t ≤ d.clk.tick + 1 then g.beyond len else p.gates.beyond len
  | none => p.gates.beyond len

/-- PTP time at which the open window of a class closes; none where it never does (R364). -/
def Dev.windowClose (d : Dev) (port k : Nat) : Option Nat :=
  let len := d.clk.period * 10
  let p := d.port port
  match closeAfter (p.gates.beyond len) (d.now - d.clk.tickStart) k with
  | some t => some (d.clk.tickStart + t)
  | none => (firstClosed (d.nextGatesOf port) k).map fun t => d.clk.tickStart + len + t

/-- The class of a packet is open and the packet's transmission ends no later than its window (R364). -/
def Dev.fits (d : Dev) (port : Nat) (k : Pkt) : Bool :=
  let p := d.port port
  if k.cls < 2 then true
  else bit p.open_ (k.cls - 2) &&
    match d.windowClose port (k.cls - 2) with
    | some t => decide (100 * d.now + p.counted k.len ≤ 100 * t)
    | none => true

/-! ### Eligibility (R361) -/

/-- The priority of a packet is not paused by the link partner (R338, R361). -/
def EthPort.unpaused (p : EthPort) (prio : Nat) : Bool := (p.paused.getD prio none).isNone

/-- The connection window and the link partner let a packet go (R339, R361). -/
def Dev.mayGo (d : Dev) (port : Nat) (k : Pkt) : Bool :=
  (d.port port).unpaused k.prio && match d.conn k.qpn with
    | some c => c.windowAllows k.window
    | none => false

/-- Node of a key. -/
def EthPort.node (p : EthPort) (key : NodeKey) : Option Node := p.nodes.find? fun n => n.key == key

/-- p with one node changed. -/
def EthPort.onNode (p : EthPort) (key : NodeKey) (f : Node → Node) : EthPort :=
  { p with nodes := updWhere p.nodes (fun n => n.key == key) f }

/-- A node of a job's ring. -/
def NodeKey.isRankOf (k : NodeKey) (job : Nat) : Bool := match k with
  | .rank j _ => j == job
  | _ => false

/-- A node of the port's ring. -/
def NodeKey.isPortChild : NodeKey → Bool
  | .job _ | .fetch => true
  | _ => false

/-- Ring of the port node, or of a job node (R357, R359). -/
def EthPort.ring (p : EthPort) (parent : NodeKey) : List NodeKey :=
  (p.nodes.map (·.key)).filter fun k => match parent with
    | .job j => k.isRankOf j
    | .port => k.isPortChild
    | _ => false

/-- A leaf node is eligible (R361). -/
def EthPort.leafOk (p : EthPort) (ok : Pkt → Bool) (key : NodeKey) : Bool := match p.node key with
  | some n => n.shaperOk && match n.queue.head? with
    | some k => ok k
    | none => false
  | none => false

/-- A node's turn is lost to its negative bucket alone (R371). -/
def EthPort.heldBack (p : EthPort) (ok : Pkt → Bool) (key : NodeKey) : Bool :=
  match p.node key with
  | none => false
  | some n => !n.shaperOk && match key with
    | .job _ => (p.ring key).any fun c => p.leafOk ok c
    | _ => match n.queue.head? with
      | some k => ok k
      | none => false

/-! ### Deficit round robin (R359) -/

/-- A packet chosen: the packet and the leaf it leaves. -/
abbrev Chosen := Pkt × NodeKey

/-- A leaf offers its head packet. -/
def EthPort.offerLeaf (ok : Pkt → Bool) (p : EthPort) (key : NodeKey) : Option (Chosen × EthPort) :=
  if p.leafOk ok key then
    match (p.node key).bind fun n => n.queue.head? with
    | some k => some ((k, key), p.onNode key fun n => { n with queue := n.queue.tail })
    | none => none
  else none

/-- The cursor of a parent moves on, and the child's grant ends. -/
def EthPort.passOver (p : EthPort) (parent key : NodeKey) (kids : Nat) : EthPort :=
  (p.onNode key fun n => { n with granted := false }).onNode parent fun n => { n with cursor := (n.cursor + 1) % kids }

/-- A quantum of WEIGHT × 4,096, once a turn. -/
def Node.grant (n : Node) : Node :=
  if n.granted then n else { n with deficit := n.deficit + n.weight * 4096, granted := true }

/-- Turns of a parent's ring, at most fuel of them, until a child is served (R359). offer is what a child would send, with the
port after that. -/
def EthPort.serve (ok : Pkt → Bool) (parent : NodeKey) (kids : List NodeKey)
    (offer : EthPort → NodeKey → Option (Chosen × EthPort)) : Nat → EthPort → Option Chosen × EthPort
  | 0, p => (none, p)
  | fuel + 1, p =>
    match kids[((p.node parent).getD {key := parent}).cursor % max 1 kids.length]? with
    | none => (none, p)
    | some key =>
      let p := if p.heldBack ok key then p.onNode key fun n => { n with shaperHolds := n.shaperHolds + 1 } else p
      match offer p key with
      | none => serve ok parent kids offer fuel (p.passOver parent key kids.length)
      | some (c, p') =>
        let len : Int := p.counted c.1.len
        match (p.node key).map Node.grant with
        | none => (none, p)
        | some n =>
          if len ≤ n.deficit then
            (some c, p'.onNode key fun m => let m := m.grant; { m with deficit := m.deficit - len })
          else serve ok parent kids offer fuel ((p.onNode key Node.grant).passOver parent key kids.length)

/-- Turns enough to serve one packet where any child is eligible: a counted length is below three quanta of weight 1. -/
def EthPort.turns (kids : List NodeKey) (any : Bool) : Nat := if any then 3 * kids.length else kids.length

/-- A job node offers what its ring would serve. -/
def EthPort.offerJob (ok : Pkt → Bool) (p : EthPort) (key : NodeKey) : Option (Chosen × EthPort) :=
  let kids := p.ring key
  if ((p.node key).getD {key := key}).shaperOk && kids.any fun c => p.leafOk ok c then
    match p.serve ok key kids (EthPort.offerLeaf ok) (EthPort.turns kids true) with
    | (some c, p) => some (c, p)
    | (none, _) => none
  else none

/-- A child of the port node offers a packet. -/
def EthPort.offerChild (ok : Pkt → Bool) (p : EthPort) (key : NodeKey) : Option (Chosen × EthPort) := match key with
  | .job _ => p.offerJob ok key
  | _ => p.offerLeaf ok key

/-- Deficits of nodes with nothing queued are 0 (R359). -/
def EthPort.settle (p : EthPort) : EthPort :=
  { p with nodes := p.nodes.map fun n => match n.key with
      | .job j => if p.nodes.any fun c => c.key.isRankOf j && !c.queue.isEmpty then n else { n with deficit := 0 }
      | .port => n
      | _ => n.settle }

/-- The packet of the PARCEL and FETCH classes to send next, with the port after that (R354, R359, R361). -/
def EthPort.chooseShared (p : EthPort) (ok : Pkt → Bool) : Option Chosen × EthPort :=
  match p.node .port with
  | none => (none, p)
  | some n =>
    if n.shaperOk = false then
      (none, if (p.ring .port).any fun c => (p.offerChild ok c).isSome
        then p.onNode .port fun n => { n with shaperHolds := n.shaperHolds + 1 } else p)
    else
      let kids := p.ring .port
      p.serve ok .port kids (EthPort.offerChild ok) (EthPort.turns kids (kids.any fun c => (p.offerChild ok c).isSome))

/-- The first packet of the STREAM queue that may go, none of its connection being before it. -/
def firstOfConn (ok : Pkt → Bool) : List Nat → List Pkt → Option Pkt
  | _, [] => none
  | seen, k :: r => if seen.contains k.qpn = false ∧ ok k then some k else firstOfConn ok (k.qpn :: seen) r

/-- The packet of the STREAM class to send next (R354). -/
def EthPort.chooseStream (p : EthPort) (ok : Pkt → Bool) : Option Chosen × EthPort :=
  match p.node .stream with
  | none => (none, p)
  | some n =>
    match firstOfConn ok [] n.queue with
    | none => (none, p)
    | some k =>
      if n.shaperOk then (some (k, .stream), p.onNode .stream fun n => { n with queue := n.queue.erase k })
      else (none, p.onNode .stream fun n => { n with shaperHolds := n.shaperHolds + 1 })

/-- Head packets that would go but for the window they do not fit are marked and counted, once each (R364). -/
def Dev.countGateWaits (d : Dev) (port : Nat) : Dev :=
  let defer := fun (k : Pkt) => !k.waited && d.mayGo port k && bit (d.port port).open_ (k.cls - 2) && !d.fits port k
  d.onPort port fun p =>
    let n := (p.nodes.filter fun n => n.shaperOk && match n.queue.head? with
      | some k => decide (2 ≤ k.cls) && defer k
      | none => false).length
    { p with
      gateWaits := p.gateWaits + n
      nodes := if n = 0 then p.nodes else p.nodes.map fun m => match m.queue with
        | k :: r => if m.shaperOk && decide (2 ≤ k.cls) && defer k then { m with queue := { k with waited := true } :: r } else m
        | [] => m }

/-! ### A frame leaves (R332, R334, R339, R341, R387) -/

/-- Keys of the nodes a packet of a leaf passes (R357). -/
def NodeKey.path : NodeKey → List NodeKey
  | .rank j r => [.rank j r, .job j, .port]
  | .fetch => [.fetch, .port]
  | k => [k]

/-- Payload of a packet of a work request; a barrier message takes its sending time (R387). -/
def Wr.payloadAt (w : Wr) (pmtu psn len now : Nat) : Bytes :=
  let b := cut w.bytes (psnSub psn w.firstPsn * pmtu) len
  match w.purpose with
  | .barrier .. => putAt b 72 (le 8 now)
  | _ => b

/-- What a request packet's sending does to its connection (R332, R334, R339, R352): outstanding bytes, the timer, first
transmission, and RETRANSMITS for a packet sent before. -/
def Conn.sentRequest (c : Conn) (k : Pkt) (now : Nat) : Conn :=
  let w := c.wrAt k.psn
  let next := match w with
    | some w => if w.op = .read then psnAdd w.lastPsn 1 else psnAdd k.psn 1
    | none => psnAdd k.psn 1
  let again := decide (psnSub k.psn c.unaPsn < psnSub c.sentPsn c.unaPsn)
  let queue := c.queue.map fun x => if some x = w ∧ x.txAt.isNone then { x with txAt := some now } else x
  let c := { c with
    queue := queue
    outstanding := c.outstanding + k.window
    bytesTx := c.bytesTx + k.payload
    deadline := if c.deadline = 0 then now + c.timeout else c.deadline
    retransmits := c.retransmits + b2n again
    sentPsn := if psnSub c.sentPsn c.unaPsn < psnSub next c.unaPsn then next else c.sentPsn }
  { c with firstTx := c.headTx }

/-- A READ response sent: the message's place moves on, and ends with its last packet (R341, R348). -/
def Conn.sentResponse (c : Conn) (entry addr len : Nat) (last : Bool) : Conn :=
  match c.inbound.find? fun x => !x.write && x.entry == entry && x.addr == addr with
  | none => c
  | some x =>
    let x' := { x with addr := x.addr + len, left := x.left - len }
    { c with
      bytesTx := c.bytesTx + len
      inbound := if last then c.inbound.erase x else c.inbound.map fun y => if y = x then x' else y }

/-- The final write of a stream response leaves the port: a response beyond its bound counts in LATE_MASKS (R276). -/
def Dev.maskSent (d : Dev) (k : Pkt) : Dev :=
  match (d.conn k.qpn).bind fun c => c.wrAt k.psn with
  | none => d
  | some w =>
    match w.purpose with
    | .streamHeader n q =>
      if k.psn ≠ w.lastPsn then d
      else d.onStream n fun s => match s.due with
        | some (sq, t) => if sq = q then { s with due := none, lateMasks := s.lateMasks + b2n (decide (t < d.now)) } else s
        | none => s
    | _ => d

/-- A frame goes on the wire of a port: its time, its class counter, and what its connection records. -/
def Dev.sendFrame (d : Dev) (m : Mem) (port : Nat) (k : Pkt) : Dev :=
  let payload := match k.ctl with
    | some (.readResp _ _ _ a l _) => cellsRead m.dram a l
    | some _ => []
    | none => match (d.conn k.qpn).bind fun c => c.wrAt k.psn with
      | some w => w.payloadAt ((d.conn k.qpn).map (·.pmtu) |>.getD 4096) k.psn k.payload d.now
      | none => []
  let d := match k.ctl with
    | none => (d.maskSent k).onConn k.qpn fun c => c.sentRequest k d.now
    | some (.readResp q _ e a l z) => d.onConn q fun c => c.sentResponse e a l z
    | some _ => d
  d.onPort port fun p =>
    let n := p.counted k.len
    { p with
      txUntil := (100 * d.now + n + 99) / 100
      txByClass := p.txByClass.modify k.cls (· + n)
      wire := p.wire ++ [{ qpn := k.qpn, psn := k.psn, cls := k.cls, prio := k.prio, ctl := k.ctl, payload := payload }] }

/-- FRAME_TRANSMIT (R354 to R362, R364): once the frame being sent has ended, the lowest class with an eligible packet
sends. -/
def frameTransmitEffect (port : Nat) (m : Mem) (d : Dev) : Dev :=
  if 16 ≤ port ∨ d.ethUp port = false then d
  else
    let d := d.until (d.port port).txUntil
    let d := d.onPort port fun p => { p with nodes := p.nodes.map fun n => n.refill d.now }
    match (d.port port).control.find? fun k => (d.port port).unpaused k.prio with
    | some k => (d.onPort port fun p => { p with control := p.control.erase k }).sendFrame m port k
    | none =>
      match (d.port port).chooseStream (d.mayGo port) with
      | (some (k, key), p) =>
        let d := d.onPort port fun _ => (p.settle).onNode key fun n => n.sent (p.counted k.len)
        d.sendFrame m port k
      | (none, p) =>
        let d := d.onPort port fun _ => p
        match (d.port port).chooseShared fun k => d.mayGo port k && d.fits port k with
        | (some (k, key), p) =>
          let d := d.onPort port fun _ => key.path.foldl (fun p key => p.onNode key fun n => n.sent (p.counted k.len)) p.settle
          d.sendFrame m port k
        | (none, p) => (d.onPort port fun _ => p).countGateWaits port

/-- The dispatch unit sending the next eligible frame of a port. -/
def execFrameTransmit (port : Nat) (s : State) : Host.Outcome State Fault Refusal :=
  .next (s.put (frameTransmitEffect port s.mem s.dev))

/-! ### Ingress (R366 to R369) -/

/-- A meter's buckets brought to an instant (R367). -/
def Meter.refill (m : Meter) (now : Nat) : Meter :=
  { m with
    tc := min (m.cbs * 65536) (m.tc + refillOf m.cir m.refilled now)
    tp := min (m.pbs * 65536) (m.tp + refillOf m.pir m.refilled now)
    refilled := max m.refilled now }

/-- A frame metered: the meter after it, whether it is dropped, and whether it is marked CE (R366, R367). -/
def Meter.take (m : Meter) (len : Nat) : Meter × Bool × Bool :=
  let l := len * 65536
  if m.tp < l then
    ({ m with red := m.red + len, dropped := m.dropped + b2n (!m.redMarks) }, !m.redMarks, m.redMarks)
  else if m.tc < l then ({ m with tp := m.tp - l, yellow := m.yellow + len }, false, m.yellowMarks)
  else ({ m with tp := m.tp - l, tc := m.tc - l, green := m.green + len }, false, false)

/-- The meter of a frame: its connection's, else its port and priority's (R368). -/
def Die.meterOf (x : Die) (qpn port prio : Nat) : Option Meter :=
  match x.meters.find? fun m => m.byConn && m.qpn == qpn with
  | some m => some m
  | none => x.meters.find? fun m => !m.byConn && m.port == port && m.prio == prio

/-- A priority is the RESP_PRIO of a connection of the port. -/
def Dev.isRespPrio (d : Dev) (port prio : Nat) : Bool :=
  (d.die (port / 2)).conns.any fun c => c.port == port && c.respPrio == prio

/-- INGRESS_FRAME (R366 to R369): a DATA_PRIO frame is metered, dropped or marked, and enters the ingress buffer; a RESP_PRIO
frame passes. A frame the shared buffer has no room for leaves a gap. -/
def ingressFrameEffect (port len pcp : Nat) (hdr : RoceHdr) (isResponse : Bool) (_m : Mem) (d : Dev) : Dev :=
  let die := port / 2
  if 16 ≤ port ∨ d.ethUp port = false ∨ isResponse ∨ d.isRespPrio port pcp then d
  else
    let n := (d.port port).counted len
    let r := match (d.die die).meterOf hdr.qpn port pcp with
      | none => (d, false, false)
      | some m =>
        let x := (m.refill d.now).take n
        (d.onDie die fun y => { y with meters := updWhere y.meters (fun z => z.number == m.number) fun _ => x.1 }, x.2.1, x.2.2)
    let d := r.1
    if r.2.1 ∨ (d.port port).ingressFree < len then d
    else d.onPort port fun p => ({ p with
      ingress := p.ingress ++ [{ qpn := hdr.qpn, psn := hdr.psn, len := len, prio := pcp, ce := hdr.ce || r.2.2 }] } : EthPort).pause

/-- A request frame arriving on a data priority, metered, dropped or marked, and admitted. -/
def execIngressFrame (port len pcp : Nat) (hdr : RoceHdr) (isResponse : Bool) (s : State) : Host.Outcome State Fault Refusal :=
  .next (s.put (ingressFrameEffect port len pcp hdr isResponse s.mem s.dev))

/-- PAUSE_FRAME (R338, R361, R371): the priority is paused for quanta × 512 bit times at 800 Gb/s, or released by 0. -/
def pauseFrameEffect (port prio quanta : Nat) (_m : Mem) (d : Dev) : Dev :=
  if 16 ≤ port ∨ 8 ≤ prio ∨ d.ethUp port = false then d
  else d.onPort port fun p => { p with
    pauseRx := p.pauseRx.modify prio (· + 1)
    paused := p.paused.set prio (if quanta = 0 then none else some (d.now + (quanta * 64 + 99) / 100)) }

/-- A pause frame received from the link partner. -/
def execPauseFrame (port prio quanta : Nat) (s : State) : Host.Outcome State Fault Refusal :=
  .next (s.put (pauseFrameEffect port prio quanta s.mem s.dev))

/-- PAUSE_EXPIRY: the pause time of a priority has run out (R338). -/
def pauseExpiryEffect (port prio : Nat) (_m : Mem) (d : Dev) : Dev :=
  match (d.port port).paused.getD prio none with
  | some t => (d.until t).onPort port fun p => { p with paused := p.paused.set prio none }
  | none => d

/-- A received pause of a priority reaching its end. -/
def execPauseExpiry (port prio : Nat) (s : State) : Host.Outcome State Fault Refusal :=
  .next (s.put (pauseExpiryEffect port prio s.mem s.dev))

/-! ### Gate events -/

/-- GATE_ENTRY: an entry of the schedule in force takes effect (R363). -/
def gateEntryEffect (port entry : Nat) (_m : Mem) (d : Dev) : Dev :=
  match ((d.port port).gates.beyond (d.clk.period * 10))[entry]? with
  | some e => (d.until (d.clk.tickStart + e.1 * 10)).onPort port fun p => { p with open_ := e.2 }
  | none => d

/-- A gate schedule entry taking effect within a tick. -/
def execGateEntry (port entry : Nat) (s : State) : Host.Outcome State Fault Refusal :=
  .next (s.put (gateEntryEffect port entry s.mem s.dev))

/-- GATE_SCHEDULE_CHANGE: a schedule whose EFFECTIVE_TICK has come is in force (R363). -/
def gateScheduleChangeEffect (port : Nat) (_m : Mem) (d : Dev) : Dev :=
  match (d.port port).nextGates with
  | some (t, g) =>
    if d.clk.dieTick.getD (port / 2) 0 < t then d
    else d.onPort port fun p => { p with gates := g, nextGates := none, open_ := ((g.head?).getD (0, 3)).2 }
  | none => d

/-- A new gate schedule of a port taking effect at its tick. -/
def execGateScheduleChange (port : Nat) (s : State) : Host.Outcome State Fault Refusal :=
  .next (s.put (gateScheduleChangeEffect port s.mem s.dev))

/-- Node settings accepted take effect at a tick boundary (R358): the deficit is kept and the bucket clamped; a shaper that
was off starts full (R360). -/
def Node.boundary (n : Node) (now : Nat) : Node :=
  match n.next with
  | none => n
  | some (w, r, b) =>
    let n := n.refill now
    { n with
      weight := w, rate := r, burst := b, next := none
      bucket := if n.rate = 0 then (b : Int) * 65536 else min n.bucket ((b : Int) * 65536) }

/-- A port at a tick boundary: settings taken, and the first gate entry open (R358, R363). -/
def EthPort.boundary (p : EthPort) (now tickLen : Nat) : EthPort :=
  { p with
    nodes := p.nodes.map fun n => n.boundary now
    overhead := (p.nextPort.getD (p.overhead, p.headroom)).1
    headroom := (p.nextPort.getD (p.overhead, p.headroom)).2
    nextPort := none
    open_ := (((p.gates.beyond tickLen).head?).getD (0, 3)).2 }

/-- A change of tick period leaves a class of a port's schedule never open: the port reverts to all open, and the collector
hears of it (R365). -/
def Dev.revertGates (d : Dev) (tickLen : Nat) : Dev :=
  (List.range 16).foldl (fun d i =>
    let p := d.port i
    if everOpen p.gates tickLen 0 && everOpen p.gates tickLen 1 then d
    else (d.onPort i fun p => { p with gates := [(0, 3)], open_ := 3 }).report St.DSP_GATES_REVERTED
      { kind := 0x09, die := i / 2, slot := i % 2 } (BitVec.ofNat 64 i)) d

/-! ### Nodes made and removed (R357, R109) -/

/-- The parent of a node. -/
def NodeKey.parent : NodeKey → NodeKey
  | .rank j _ => .job j
  | _ => .port

/-- A new child joins its ring before the cursor (R359). -/
def insertBefore (n : Node) (key : NodeKey) : List Node → List Node
  | [] => [n]
  | x :: r => if x.key = key then n :: x :: r else x :: insertBefore n key r

/-- A node joins its port. -/
def EthPort.addNode (p : EthPort) (n : Node) : EthPort :=
  if (p.node n.key).isSome then p
  else
    let parent := n.key.parent
    match (p.ring parent)[((p.node parent).getD {key := parent}).cursor]? with
    | none => { p with nodes := p.nodes ++ [n] }
    | some key => ({ p with nodes := insertBefore n key p.nodes } : EthPort).onNode parent fun m => { m with cursor := m.cursor + 1 }

/-- A node leaves its ring; the cursor stays at the child it named. -/
def EthPort.dropNode (p : EthPort) (key : NodeKey) : EthPort :=
  let parent := key.parent
  let ring := p.ring parent
  match ring.findIdx? (· == key) with
  | none => p
  | some i =>
    let left := ring.length - 1
    ({ p with nodes := p.nodes.filter fun n => n.key != key } : EthPort).onNode parent fun m =>
      { m with cursor := if left = 0 then 0 else (if i < m.cursor then m.cursor - 1 else m.cursor) % left }

/-- Nodes of a rank on a port: the job's, made with the first rank, and the rank's own (R357). -/
def Dev.addRankNode (d : Dev) (port job rank : Nat) (n : Node) : Dev :=
  d.onPort port fun p => (p.addNode { key := .job job, refilled := d.now }).addNode { n with key := .rank job rank }

/-- All nodes of a job are removed (R357). -/
def Dev.dropJobNodes (d : Dev) (job : Nat) : Dev :=
  { d with ports := d.ports.map fun p =>
      (((p.ring (.job job)).foldl EthPort.dropNode p).dropNode (.job job)) }

/-! ### DSP_SET_NODE (R358) -/

/-- Node a level names. -/
def levelKey (level job rank : Nat) : NodeKey :=
  if level = 0 then .port else if level = 1 then .job job else if level = 2 then .rank job rank
  else if level = 3 then .fetch else .stream

/-- DSP_SET_NODE (R358, Table 12.2): ranges, then the node. -/
def dspSetNodeRun (p : Nat) (b : Bytes) (_m : Mem) (d : Dev) : Dev :=
  let level := fld b 0 1
  let port := fld b 1 1
  let weight := orDefault b 2 1 (if level = 3 then 16 else 1)
  let rate := orDefault b 12 4 0
  let burst := orDefault b 16 4 1048576
  let overhead := if fld b 20 2 = 0xFFFF then (20 : Int) else signed 16 (fld b 20 2)
  let headroom := orDefault b 24 4 262144
  let key := levelKey level (fld b 4 4) (fld b 8 4)
  if 4 < level ∨ 15 < port ∨ (weight = 0 ∧ level ≠ 0 ∧ level ≠ 4) ∨ 800000 < rate ∨ burst < 4325 ∨ 16777216 < burst ∨
      (level = 0 ∧ (overhead < -32 ∨ 127 < overhead ∨ headroom < 32768 ∨ 1048576 < headroom)) then
    d.answer p (fail St.DSP_NODE_BAD)
  else if ((d.port port).node key).isNone then d.answer p (fail St.DSP_NODE_UNKNOWN)
  else
    let d := d.onPort port fun x =>
      let x := x.onNode key fun n => { n with next := some (if level = 0 ∨ level = 4 then n.weight else weight, rate, burst) }
      if level = 0 then { x with nextPort := some (overhead, headroom) } else x
    d.answer p {}

/-- The command of opcode 0x0701. -/
def dspSetNodeOp : PghOp where
  opcode := 0x0701
  used := [(0, 3), (4, 4), (8, 4), (12, 4), (16, 4), (20, 2), (24, 4)]
  handles := fun b d => !(fld b 0 1 == 1 || fld b 0 1 == 2) || (d.job (fld b 4 4)).isSome
  run := dspSetNodeRun

/-- DSP_SET_NODE: weight, rate, burst, overhead and headroom of one dispatch node set. -/
def execDspSetNode (p : Nat) (frame : Bytes) (s : State) : Host.Outcome State Fault Refusal :=
  .next (s.put (dspSetNodeOp.ring p frame s.mem s.dev))

/-! ### DSP_SET_METER (R366) -/

/-- Meter values lie in their ranges. -/
def meterValuesOk (b : Bytes) : Bool :=
  let cir := fld b 12 4
  let pir := fld b 16 4
  let cbs := fld b 20 4
  let pbs := fld b 24 4
  decide (1 ≤ cir ∧ cir ≤ pir ∧ pir ≤ 800000) && decide (4325 ≤ cbs ∧ cbs ≤ pbs ∧ pbs ≤ 16777216)

/-- The binding of a body: by connection, QPN, port, priority. -/
structure Binding where
  byConn : Bool
  qpn : Nat
  port : Nat
  prio : Nat
  deriving DecidableEq, Repr

/-- The binding a body names; none where it names no connection or a RESP_PRIO (R366). -/
def Dev.bindingOf (d : Dev) (b : Bytes) : Option Binding :=
  if fld b 4 1 = 0 then
    (if (d.conn (fld b 8 4)).isSome then some { byConn := true, qpn := fld b 8 4, port := 0, prio := 0 } else none)
  else if fld b 4 1 = 1 ∧ fld b 5 1 ≤ 15 ∧ fld b 6 1 ≤ 7 ∧ d.isRespPrio (fld b 5 1) (fld b 6 1) = false then
    some { byConn := false, qpn := 0, port := fld b 5 1, prio := fld b 6 1 }
  else none

/-- Die of a binding's port (R366). -/
def Binding.die (x : Binding) : Nat := if x.byConn then qpnDie x.qpn else x.port / 2

/-- Binding of a meter. -/
def Meter.binding (m : Meter) : Binding := { byConn := m.byConn, qpn := m.qpn, port := m.port, prio := m.prio }

/-- DSP_SET_METER (R366). -/
def dspSetMeterRun (p : Nat) (b : Bytes) (_m : Mem) (d : Dev) : Dev :=
  let n := fld b 0 4
  match d.bindingOf b with
  | none => d.answer p (fail St.DSP_METER_BAD)
  | some x =>
    let ms := (d.die x.die).meters
    let bound := ms.find? fun m => m.binding == x
    if n = 0xFFFFFFFF then
      match bound with
      | some m => (d.onDie x.die fun y => { y with meters := y.meters.filter fun z => z.number != m.number }).answer p { body := le 4 m.number }
      | none => d.answer p (fail St.DSP_METER_BAD)
    else if meterValuesOk b = false then d.answer p (fail St.DSP_METER_BAD)
    else if n = 0 then
      if bound.isSome then d.answer p (fail St.DSP_METER_BAD)
      else match (List.range 4096).find? fun i => !(ms.any fun m => m.number == i + 1) with
        | none => d.answer p (fail St.DSP_METER_TABLE_FULL)
        | some i =>
          let m : Meter :=
            { number := i + 1, byConn := x.byConn, qpn := x.qpn, port := x.port, prio := x.prio, cir := fld b 12 4, pir := fld b 16 4,
              cbs := fld b 20 4, pbs := fld b 24 4, yellowMarks := bit (fld b 7 1) 0, redMarks := bit (fld b 7 1) 1,
              tc := fld b 20 4 * 65536, tp := fld b 24 4 * 65536, refilled := d.now }
          (d.onDie x.die fun y => { y with meters := y.meters ++ [m] }).answer p { body := le 4 (i + 1) }
    else match ms.find? fun m => m.number == n with
      | none => d.answer p (fail St.DSP_METER_BAD)
      | some m =>
        if m.binding ≠ x then d.answer p (fail St.DSP_METER_BAD)
        else
          let m' := m.refill d.now
          let m' := { m' with
            cir := fld b 12 4, pir := fld b 16 4, cbs := fld b 20 4, pbs := fld b 24 4
            yellowMarks := bit (fld b 7 1) 0
            redMarks := bit (fld b 7 1) 1
            tc := min m'.tc (fld b 20 4 * 65536)
            tp := min m'.tp (fld b 24 4 * 65536) }
          (d.onDie x.die fun y => { y with meters := updWhere y.meters (fun z => z.number == n) fun _ => m' }).answer p { body := le 4 n }

/-- The command of opcode 0x0702. -/
def dspSetMeterOp : PghOp where
  opcode := 0x0702
  used := [(0, 4), (4, 4), (8, 4), (12, 4), (16, 4), (20, 4), (24, 4)]
  reserved := fun b => bitsClear b 7 1 2
  run := dspSetMeterRun

/-- DSP_SET_METER: an ingress meter created, changed or removed. -/
def execDspSetMeter (p : Nat) (frame : Bytes) (s : State) : Host.Outcome State Fault Refusal :=
  .next (s.put (dspSetMeterOp.ring p frame s.mem s.dev))

/-! ### DSP_SET_GATES (R363) -/

/-- Entries a body gives. -/
def gatesOf (b : Bytes) : Gates := (List.range (fld b 1 1)).map fun i => (fld b (16 + 8 * i) 4, fld b (20 + 8 * i) 1)

/-- Offsets ascend strictly. -/
def ascending : List Nat → Bool
  | a :: b :: r => decide (a < b) && ascending (b :: r)
  | _ => true

/-- Count, first offset, order and mask bits hold. -/
def gatesWellFormed (b : Bytes) : Bool :=
  let g := gatesOf b
  decide (fld b 0 1 ≤ 15) && decide (1 ≤ fld b 1 1 ∧ fld b 1 1 ≤ 16) && ascending (g.map (·.1)) &&
    (g.head?.map (·.1)) == some 0 && g.all fun e => decide (e.2 < 4)

/-- Lengths of the open windows of a class within a tick of len ns: (start, length) of each run. -/
def openRuns (k len : Nat) : Gates → List (Nat × Nat)
  | [] => []
  | [e] => if bit e.2 k then [(e.1 * 10, len - e.1 * 10)] else []
  | e :: f :: r =>
    let rest := openRuns k len (f :: r)
    if bit e.2 k = false then rest
    else match rest with
      | (s, n) :: t => if s = f.1 * 10 then (e.1 * 10, f.1 * 10 - e.1 * 10 + n) :: t else (e.1 * 10, f.1 * 10 - e.1 * 10) :: rest
      | [] => [(e.1 * 10, f.1 * 10 - e.1 * 10)]

/-- Windows of a class, the last joined to the first across the boundary (R364). -/
def windowsOf (k len : Nat) (g : Gates) : List Nat :=
  let rs := openRuns k len (reached g len)
  match rs, rs.getLast? with
  | (0, n) :: t, some (s, m) => if t ≠ [] ∧ s + m = len then (n + m) :: (t.dropLast.map (·.2)) else rs.map (·.2)
  | _, _ => rs.map (·.2)

/-- Every window is at least 100 ns and both classes open somewhere (R363). -/
def windowsOk (len : Nat) (g : Gates) : Bool :=
  [0, 1].all fun k => let ws := windowsOf k len g; !ws.isEmpty && ws.all fun w => decide (100 ≤ w)

/-- Tick length in ns at a tick number (R29). -/
def Dev.tickLenAt (d : Dev) (t : Nat) : Nat := match d.clk.pending with
  | some (t0, per, _) => if t0 ≤ t then per * 10 else d.clk.period * 10
  | none => d.clk.period * 10

/-- DSP_SET_GATES (R363). -/
def dspSetGatesRun (p : Nat) (b : Bytes) (_m : Mem) (d : Dev) : Dev :=
  let eff := fld b 8 8
  let g := gatesOf b
  if gatesWellFormed b = false then d.answer p (fail St.DSP_GATES_BAD)
  else if windowsOk (d.tickLenAt eff) g = false then d.answer p (fail St.DSP_GATES_WINDOW)
  else if eff < d.clk.tick + 2 then d.answer p (fail St.DSP_GATES_TICK)
  else (d.onPort (fld b 0 1) fun x => { x with nextGates := some (eff, g) }).answer p {}

/-- The command of opcode 0x0703. -/
def dspSetGatesOp : PghOp where
  opcode := 0x0703
  used := [(0, 2), (8, 8)] ++ (List.range 16).map fun i => (16 + 8 * i, 5)
  run := dspSetGatesRun

/-- DSP_SET_GATES: gate schedule of a port set from a tick. -/
def execDspSetGates (p : Nat) (frame : Bytes) (s : State) : Host.Outcome State Fault Refusal :=
  .next (s.put (dspSetGatesOp.ring p frame s.mem s.dev))

end Sys2Proof.Machine
end

