-- ==== Sys2Proof/Machine/FlagWrite.lean ====
section
/-! DEFINITION. The flagged final write of parcels and stream responses (R301, R342 to R344). -/

namespace Sys2Proof.Machine

open Sys2Proof

/-- A parcel or response to write: data at an address, then the flag at another, under one region key. -/
structure FlagWrite where
  addr : Nat
  rkey : Nat
  data : Bytes
  dataFor : Purpose
  flagAddr : Nat
  flag : Bytes
  flagFor : Purpose
  /-- immediate value of the flag on a FLAG_IMM connection (R343) -/
  imm : Nat

/-- Pieces of at most n bytes with their offsets, at most fuel of them. -/
def piecesFrom (n : Nat) : Nat → Nat → Bytes → List (Nat × Bytes)
  | 0, _, _ => []
  | f + 1, off, b => if b.isEmpty then [] else (off, b.take n) :: piecesFrom n f (off + n) (b.drop n)

/-- Bytes cut into pieces of n. -/
def piecesOfBytes (n : Nat) (b : Bytes) : List (Nat × Bytes) := piecesFrom n (b.length / n + 1) 0 b

/-- Largest payload of one WRITE, and of one chunk of the relaxed mode (R325, R343). -/
def writeMax : Nat := 2 ^ 31
def chunkBytes : Nat := 262144

/-- The queues of a flagged write: the connection alone, or with ORDER 1 the primary and its members (R342, R343). -/
def Dev.group (d : Dev) (c : Conn) : List Conn := if c.relaxed then c :: d.members c.localQpn else [c]

/-- Every connection a flagged write needs is in service (R304). -/
def Dev.groupUp (d : Dev) (qpn : Nat) : Bool := match d.conn qpn with
  | some c => (d.group c).all fun x => x.state == .connected
  | none => false

/-- One data WRITE. -/
def FlagWrite.piece (w : FlagWrite) (p : Nat × Bytes) : Wr :=
  { op := .write, addr := w.addr + p.1, rkey := w.rkey, bytes := p.2, purpose := w.dataFor }

/-- Completion targets the flag waits for in relaxed mode: on every queue that carries data, all posted so far (R343, R344). -/
def Dev.flagWaits (d : Dev) (c : Conn) (n : Nat) : List (Nat × Nat) :=
  if c.relaxed then ((d.group c).take n).filterMap fun x => (d.conn x.localQpn).map fun y => (y.localQpn, y.completed + y.queue.length)
  else []

/-- The data WRITEs and then the flag are posted (R342 to R344). -/
def Dev.postFlagged (d : Dev) (qpn : Nat) (w : FlagWrite) : Dev :=
  match d.conn qpn with
  | none => d
  | some c =>
    let g := d.group c
    let ps := piecesOfBytes (if c.relaxed then chunkBytes else writeMax) w.data
    let d := (ps.zipIdx).foldl (fun (d : Dev) (p : (Nat × Bytes) × Nat) =>
      d.post ((g.getD (p.2 % g.length) c).localQpn) (w.piece p.1)) d
    let flag : Wr :=
      { op := if c.flagImm then .writeImm else .write, addr := w.flagAddr, rkey := w.rkey, imm := w.imm, bytes := w.flag,
        purpose := w.flagFor, waits := d.flagWaits c ps.length }
    d.post qpn flag

end Sys2Proof.Machine
end

