-- ==== Sys2Proof/Machine/Float.lean ====
section
/-! DEFINITION. Exact numbers, the fifteen number formats (R229), rounding (R230 to R232), FP32 arithmetic (R205), and
correctly rounded cosine, sine, logarithm and exponential through fixed-point numbers of 320 fraction bits. -/

namespace Sys2Proof.Machine

open Sys2Proof

/-! ### Exact values -/

/-- An element's exact value: NaN, an infinity, or (−1)^neg × m × 2^e. -/
inductive Val where
  | nan
  | inf (neg : Bool)
  | fin (neg : Bool) (m : Nat) (e : Int)
  deriving Repr, DecidableEq, Inhabited

/-- The value of an integer. -/
def valInt (i : Int) : Val := .fin (i < 0) i.natAbs 0

/-- The value of a signed mantissa; zero takes the sign given. -/
def valSigned (i : Int) (e : Int) (zeroNeg : Bool) : Val := if i = 0 then .fin zeroNeg 0 e else .fin (i < 0) i.natAbs e

/-- Mantissa with its sign. -/
def smant (neg : Bool) (m : Nat) : Int := if neg then -(m : Int) else m

/-- Exact sum of two finite values; a zero sum is −0 only when both are negative. -/
def addFin (n1 : Bool) (m1 : Nat) (e1 : Int) (n2 : Bool) (m2 : Nat) (e2 : Int) : Val :=
  let e := min e1 e2
  let s := smant n1 m1 * 2 ^ (e1 - e).toNat + smant n2 m2 * 2 ^ (e2 - e).toNat
  valSigned s e (n1 && n2)

/-- Exact sum. -/
def Val.add : Val → Val → Val
  | .nan, _ => .nan
  | _, .nan => .nan
  | .inf a, .inf b => if a = b then .inf a else .nan
  | .inf a, _ => .inf a
  | _, .inf b => .inf b
  | .fin a m e, .fin b k f => addFin a m e b k f

/-- Negation. -/
def Val.neg : Val → Val
  | .nan => .nan
  | .inf a => .inf (!a)
  | .fin a m e => .fin (!a) m e

/-- Exact product. -/
def Val.mul : Val → Val → Val
  | .nan, _ => .nan
  | _, .nan => .nan
  | .inf a, .inf b => .inf (a != b)
  | .inf a, .fin b m _ => if m = 0 then .nan else .inf (a != b)
  | .fin a m _, .inf b => if m = 0 then .nan else .inf (a != b)
  | .fin a m e, .fin b k f => .fin (a != b) (m * k) (e + f)

/-- A quotient with 64 extra bits and a sticky bit below them: enough for every rounding of R231. -/
def divSticky (m k : Nat) : Nat × Int :=
  let s := k.log2 + 64
  let q := m * 2 ^ s / k
  (2 * q + (if m * 2 ^ s % k = 0 then 0 else 1), -((s : Int) + 1))

/-- Quotient, exact to rounding. -/
def Val.div : Val → Val → Val
  | .nan, _ => .nan
  | _, .nan => .nan
  | .inf _, .inf _ => .nan
  | .inf a, .fin b _ _ => .inf (a != b)
  | .fin a _ _, .inf b => .fin (a != b) 0 0
  | .fin a m e, .fin b k f =>
    if k = 0 then (if m = 0 then .nan else .inf (a != b))
    else let (q, s) := divSticky m k; .fin (a != b) q (e - f + s)

/-- Square root, exact to rounding. -/
def Val.sqrt : Val → Val
  | .fin a m e =>
    if m = 0 then .fin a 0 0
    else if a then .nan
    else
      let (m, e) := if e % 2 = 0 then (m, e) else (2 * m, e - 1)
      let k := m * 2 ^ 128
      let r := Nat.sqrt k
      .fin false (2 * r + (if r * r = k then 0 else 1)) (e / 2 - 65)
  | .inf false => .inf false
  | _ => .nan

/-- a ≤ b for values that are not NaN. -/
def Val.le : Val → Val → Bool
  | .nan, _ => false
  | _, .nan => false
  | .inf a, .inf b => a || !b
  | .inf a, _ => a
  | _, .inf b => !b
  | .fin a m e, .fin b k f =>
    let g := min e f
    decide (smant a m * 2 ^ (e - g).toNat ≤ smant b k * 2 ^ (f - g).toNat)

/-! ### Number formats (Table 7.6) -/

/-- A floating-point element format. -/
structure FFmt where
  ebits : Nat
  mbits : Nat
  bias : Nat
  /-- code of the largest finite value, sign 0 -/
  maxCode : Nat
  hasInf : Bool
  nanCode : Nat
  deriving Repr, DecidableEq, Inhabited

/-- FP32. -/
def fmtF32 : FFmt := ⟨8, 23, 127, 0x7F7FFFFF, true, 0x7FC00000⟩
/-- BF16. -/
def fmtBf16 : FFmt := ⟨8, 7, 127, 0x7F7F, true, 0x7FC0⟩
/-- FP16. -/
def fmtF16 : FFmt := ⟨5, 10, 15, 0x7BFF, true, 0x7E00⟩
/-- FP8-E4M3: no infinity, only S.1111.111 is NaN. -/
def fmtE4M3 : FFmt := ⟨4, 3, 7, 0x7E, false, 0x7F⟩
/-- FP8-E5M2. -/
def fmtE5M2 : FFmt := ⟨5, 2, 15, 0x7B, true, 0x7E⟩
/-- MXFP6-E3M2 element. -/
def fmtE3M2 : FFmt := ⟨3, 2, 3, 0x1F, false, 0⟩
/-- MXFP6-E2M3 element. -/
def fmtE2M3 : FFmt := ⟨2, 3, 1, 0x1F, false, 0⟩
/-- MXFP4-E2M1 element. -/
def fmtE2M1 : FFmt := ⟨2, 1, 1, 0x07, false, 0⟩

/-- Width of a floating-point format. -/
def FFmt.width (f : FFmt) : Nat := 1 + f.ebits + f.mbits

/-- The value of a code. Element formats of MX have neither NaN nor infinity. -/
def FFmt.val (f : FFmt) (c : Nat) : Val :=
  let neg := bit c (f.ebits + f.mbits)
  let mag := c % 2 ^ (f.ebits + f.mbits)
  let e := mag / 2 ^ f.mbits
  let m := mag % 2 ^ f.mbits
  if f.maxCode < mag then
    if f.hasInf ∧ m = 0 then .inf neg else .nan
  else if e = 0 then .fin neg m (1 - (f.bias : Int) - f.mbits)
  else .fin neg (2 ^ f.mbits + m) ((e : Int) - f.bias - f.mbits)

/-- Rounding modes of R230: nearest even, toward zero, deterministic stochastic with its generator word (R235). -/
inductive Round where
  | nearest
  | zero
  | stochastic (r : Nat)
  deriving Repr, DecidableEq, Inhabited

/-- m × 2^−s rounded to an integer (R231, R235). -/
def roundShift (md : Round) (m s : Nat) : Nat :=
  let n := m / 2 ^ s
  let rem := m % 2 ^ s
  match md with
  | .zero => n
  | .nearest => if 2 ^ s < 2 * rem ∨ (2 * rem = 2 ^ s ∧ n % 2 = 1) then n + 1 else n
  | .stochastic r => if 2 ^ 32 ≤ rem * 2 ^ 32 / 2 ^ s + r then n + 1 else n

/-- |v| / ulp rounded, with the exponent of ulp (R231). -/
def FFmt.quantise (f : FFmt) (md : Round) (m : Nat) (e : Int) : Nat × Int :=
  let lg : Int := m.log2 + e
  let u := max lg (1 - (f.bias : Int)) - f.mbits
  (if u ≤ e then m * 2 ^ (e - u).toNat else roundShift md m (u - e).toNat, u)

/-- Code of magnitude n × 2^u (R231): the hidden bit carries into the exponent. -/
def FFmt.magCode (f : FFmt) (n : Nat) (u : Int) : Nat :=
  (u + f.mbits + f.bias - 1).toNat * 2 ^ f.mbits + n

/-- Sign bit placed above a magnitude code. -/
def FFmt.signed (f : FFmt) (neg : Bool) (c : Nat) : Nat := c + b2n neg * 2 ^ (f.ebits + f.mbits)

/-- Outcome of a conversion: the code, and which counter of Table 7.8 it moves. -/
structure Conv where
  code : Nat
  saturated : Bool := false
  overInf : Bool := false
  nanInt : Bool := false
  deriving Repr, DecidableEq, Inhabited

/-- Conversion to a floating-point element format (R231, Table 7.7). sat is SAT 1. -/
def FFmt.conv (f : FFmt) (md : Round) (sat : Bool) (v : Val) : Conv :=
  let beyond (neg : Bool) : Nat := if f.hasInf then f.signed neg (f.maxCode + 1) else f.nanCode
  match v with
  | .nan => { code := f.nanCode }
  | .inf neg => if sat then { code := f.signed neg f.maxCode, saturated := true }
      else { code := if f.hasInf then f.signed neg (infMag f) else f.nanCode }
  | .fin neg m e =>
    if m = 0 then { code := f.signed neg 0 }
    else
      let (n, u) := f.quantise md m e
      let c := f.magCode n u
      if c ≤ f.maxCode then { code := f.signed neg c }
      else if sat then { code := f.signed neg f.maxCode, saturated := true }
      else { code := beyond neg, overInf := true }
where
  /-- Magnitude code of infinity. -/
  infMag (f : FFmt) : Nat := f.maxCode + 1

/-- Conversion to an integer format of w bits, ulp 1 (R231, R232). -/
def convInt (w : Nat) (isSigned : Bool) (md : Round) (v : Val) : Conv :=
  let hi : Int := if isSigned then 2 ^ (w - 1) - 1 else 2 ^ w - 1
  let lo : Int := if isSigned then -(2 ^ (w - 1)) else 0
  let clampI (i : Int) : Conv :=
    if hi < i then { code := toBits w hi, saturated := true }
    else if i < lo then { code := toBits w lo, saturated := true }
    else { code := toBits w i }
  match v with
  | .nan => { code := 0, nanInt := true }
  | .inf neg => { code := toBits w (if neg then lo else hi), saturated := true }
  | .fin neg m e =>
    if m = 0 then { code := 0 }
    else clampI (smant neg (if 0 ≤ e then m * 2 ^ e.toNat else roundShift md m (-e).toNat))

/-! ### Formats by code (Table 7.6) -/

/-- Element format of a floating-point or MX code. -/
def ffmtOf (c : Nat) : Option FFmt :=
  match c with
  | 1 => some fmtF32
  | 2 => some fmtBf16
  | 3 => some fmtF16
  | 4 => some fmtE4M3
  | 5 => some fmtE5M2
  | 6 => some fmtE4M3
  | 7 => some fmtE3M2
  | 8 => some fmtE2M3
  | 9 => some fmtE2M1
  | _ => none

/-- An MX code. -/
def isMx (c : Nat) : Bool := 6 ≤ c && c ≤ 9

/-- A code of Table 7.6. -/
def fmtDefined (c : Nat) : Bool := 1 ≤ c && c ≤ 15

/-- (width, signed) of an integer code. -/
def intFmt (c : Nat) : Option (Nat × Bool) :=
  match c with
  | 10 => some (8, true)
  | 11 => some (8, false)
  | 12 => some (16, true)
  | 13 => some (16, false)
  | 14 => some (32, true)
  | 15 => some (32, false)
  | _ => none

/-- Bits of an element. -/
def elemBits (c : Nat) : Nat :=
  match ffmtOf c with
  | some f => f.width
  | none => ((intFmt c).map (·.1)).getD 0

/-- Bytes of an element of a format that is not MX. -/
def elemBytes (c : Nat) : Nat := elemBits c / 8

/-- Value of an element of a format that is not MX. -/
def elemVal (c code : Nat) : Val :=
  match ffmtOf c with
  | some f => f.val code
  | none => match intFmt c with
    | some (w, true) => valInt (signed w code)
    | some (w, false) => valInt (code % 2 ^ w : Nat)
    | none => .nan

/-- Conversion to an element of a format that is not MX (R230). -/
def elemConv (c : Nat) (md : Round) (sat : Bool) (v : Val) : Conv :=
  match ffmtOf c with
  | some f => f.conv md sat v
  | none => match intFmt c with
    | some (w, s) => convInt w s md v
    | none => { code := 0 }

/-! ### FP32 arithmetic on codes (R205) -/

/-- Value of an FP32 code. -/
def fv (a : Nat) : Val := fmtF32.val a
/-- FP32 code of an exact value, round to nearest even. -/
def fr (v : Val) : Nat := (fmtF32.conv .nearest false v).code
/-- Sum. -/
def fadd (a b : Nat) : Nat := fr ((fv a).add (fv b))
/-- Difference. -/
def fsub (a b : Nat) : Nat := fr ((fv a).add (fv b).neg)
/-- Product. -/
def fmul (a b : Nat) : Nat := fr ((fv a).mul (fv b))
/-- Quotient. -/
def fdiv (a b : Nat) : Nat := fr ((fv a).div (fv b))
/-- a × b + c with one rounding. -/
def ffma (a b c : Nat) : Nat := fr (((fv a).mul (fv b)).add (fv c))
/-- Negation. -/
def fneg (a : Nat) : Nat := fr (fv a).neg
/-- Square root. -/
def fsqrt (a : Nat) : Nat := fr (fv a).sqrt
/-- FP32 of an integer. -/
def fint (i : Int) : Nat := fr (valInt i)
/-- FP32 of p/q, correctly rounded. -/
def fratio (p : Int) (q : Nat) : Nat := fr ((valInt p).div (valInt q))
/-- The code is a NaN. -/
def fisNan (a : Nat) : Bool := fv a == .nan
/-- clamp(x, lo, hi), NaN for a NaN. -/
def fclamp (x lo hi : Nat) : Nat :=
  if fisNan x then 0x7FC00000
  else if (fv x).le (fv lo) ∧ ¬(fv lo).le (fv x) then lo
  else if (fv hi).le (fv x) ∧ ¬(fv x).le (fv hi) then hi else x
/-- One. -/
def fOne : Nat := 0x3F800000

/-! ### Fixed point with 320 fraction bits -/

/-- Fraction bits of a fixed-point number. -/
def fxBits : Nat := 320
/-- One in fixed point. -/
def fxOne : Int := 2 ^ fxBits
/-- Product. -/
def fxMul (a b : Int) : Int := a * b / 2 ^ fxBits
/-- Quotient. -/
def fxDiv (a b : Int) : Int := a * 2 ^ fxBits / b

/-- Terms of arctan(1/k): n terms from power t = 2^320 / k^(2i + 1). -/
def atanTerms (k : Nat) : Nat → Nat → Int → Int
  | 0, _, _ => 0
  | n + 1, i, t => (if i % 2 = 0 then t else -t) / (2 * i + 1 : Nat) + atanTerms k n (i + 1) (t / (k * k : Nat))

/-- π by Machin's formula. -/
def fxPi : Int := 16 * atanTerms 5 80 0 (fxOne / 5) - 4 * atanTerms 239 30 0 (fxOne / 239)

/-- Terms of the cosine or sine series: next power is multiplied by −x² / ((i + 1)(i + 2)). -/
def trigTerms (x2 : Int) : Nat → Nat → Int → Int
  | 0, _, _ => 0
  | n + 1, i, t => t + trigTerms x2 n (i + 2) (-(fxMul t x2) / ((i + 1) * (i + 2) : Nat))

/-- cos x for x in [0, π/4]. -/
def fxCosSmall (x : Int) : Int := trigTerms (fxMul x x) 40 0 fxOne
/-- sin x for x in [0, π/4]. -/
def fxSinSmall (x : Int) : Int := trigTerms (fxMul x x) 40 1 x

/-- cos(2π p / q) for 0 ≤ p ≤ q, exact at the eighths where it is 0 or ±1. -/
def fxCosTurn (p q : Nat) : Int :=
  let p := p % q
  let p := if q < 2 * p then q - p else p
  if p = 0 then fxOne
  else if 4 * p = q then 0
  else if 2 * p = q then -fxOne
  else
    let flip : Bool := decide (q < 4 * p)
    let p2 := if flip then q - 2 * p else 2 * p
    let c := if 4 * p2 ≤ q then fxCosSmall (fxPi * p2 / q) else fxSinSmall (fxPi * ((q : Int) - 2 * p2) / (2 * q : Nat))
    if flip then -c else c

/-- sin(2π p / q). -/
def fxSinTurn (p q : Nat) : Int := fxCosTurn (4 * p + 3 * q) (4 * q)

/-- Terms of 2 artanh z. -/
def artanhTerms (z2 : Int) : Nat → Nat → Int → Int
  | 0, _, _ => 0
  | n + 1, i, t => t / (2 * i + 1 : Nat) + artanhTerms z2 n (i + 1) (fxMul t z2)

/-- ln of a fixed-point number in [1, 2]. -/
def fxLnUnit (x : Int) : Int :=
  let z := fxDiv (x - fxOne) (x + fxOne)
  2 * artanhTerms (fxMul z z) 110 0 z

/-- ln 2. -/
def fxLn2 : Int := fxLnUnit (2 * fxOne)

/-- ln(m × 2^e) for m > 0. -/
def fxLn (m : Nat) (e : Int) : Int :=
  let l := m.log2
  fxLnUnit (((m * 2 ^ fxBits : Nat) : Int) / ((2 ^ l : Nat) : Int)) + ((l : Int) + e) * fxLn2

/-- Terms of the exponential. -/
def expTerms (x : Int) : Nat → Nat → Int → Int
  | 0, _, _ => 0
  | n + 1, i, t => t + expTerms x n (i + 1) (fxMul t x / (i + 1 : Nat))

/-- exp of a fixed-point number at or above 0. -/
def fxExp (x : Int) : Int :=
  let k := x / fxLn2
  expTerms (x - k * fxLn2) 80 0 fxOne * 2 ^ k.toNat

/-- FP32 nearest to a fixed-point number; values are first brought to 200 fraction bits, where a tie is exact. -/
def fxToF32 (x : Int) : Nat :=
  let y := (x + 2 ^ 119) / 2 ^ 120
  if y = 0 then 0 else fr (.fin (y < 0) y.natAbs (-200))

/-- Fixed-point number of a finite FP32 code. -/
def fxOfF32 (a : Nat) : Int :=
  match fv a with
  | .fin n m e => if 0 ≤ (fxBits : Int) + e then smant n m * 2 ^ ((fxBits : Int) + e).toNat
      else smant n m / 2 ^ (-((fxBits : Int) + e)).toNat
  | _ => 0

/-- Correctly rounded natural logarithm. -/
def fln (a : Nat) : Nat :=
  match fv a with
  | .fin n m e => if m = 0 then fr (.inf true) else if n then 0x7FC00000 else fxToF32 (fxLn m e)
  | .inf false => fr (.inf false)
  | _ => 0x7FC00000

end Sys2Proof.Machine
end

