-- ==== Sys2Proof/Machine/Inflate.lean ====
section
/-! DEFINITION. Decoding of DEFLATE, zlib and gzip (R143 to R151, Table 5.6): pure functions of the input bytes. -/

namespace Sys2Proof.Machine

open Sys2Proof

/-- Why a stage fails: its status, the computed CRC-32C where R150 keeps it (Table 18.6), and other DETAIL. -/
structure StageErr where
  status : Status
  crc : Option Nat := none
  detail : Nat := 0
  /-- output of a decode that stopped on purpose at its last needed byte (R182) -/
  out : Bytes := []
  deriving DecidableEq, Repr, Inhabited

/-- Outcome of a stage or of one of its parts. -/
abbrev Res := Except StageErr

/-- Failure with a status alone. -/
def err {α : Type} (s : Status) : Res α := .error { status := s }

/-! ### Output with its two limits (R148, R151, RTE_BUFFER_OVERFLOW) -/

/-- Output of a decode: history (dictionary, then output), the dictionary's length, expected length and buffer bound. -/
structure Out where
  hist : Array Byte
  base : Nat
  expect : Option Nat
  bound : Nat
  /-- bytes after which the decode stops on purpose (R182) -/
  stop : Option Nat := none
  deriving Repr

/-- Bytes output so far. -/
def Out.size (o : Out) : Nat := o.hist.size - o.base

/-- One byte output: past the expected length, then past the buffer, stops the stage (R151). -/
def Out.push (o : Out) (b : Byte) : Res Out :=
  if o.expect.any fun l => decide (l ≤ o.size) then err St.INFL_LENGTH_OVER
  else if o.bound ≤ o.size then err St.RTE_BUFFER_OVERFLOW
  else
    let o := { o with hist := o.hist.push b }
    if o.stop == some o.size then .error { status := St.SUCCESS, out := o.hist.toList.drop o.base } else .ok o

/-- Bytes output. -/
def Out.pushAll (o : Out) : Bytes → Res Out
  | [] => .ok o
  | b :: bs => do (← o.push b).pushAll bs

/-- n bytes copied from dist back, the distance already checked. -/
def Out.copyBack (o : Out) (dist : Nat) : Nat → Res Out
  | 0 => .ok o
  | n + 1 => do (← o.push (o.hist.getD (o.hist.size - dist) 0)).copyBack dist n

/-- A back-reference (R148): reach is the output so far and the dictionary when in use, limited by the window. -/
def Out.backRef (o : Out) (useDict : Bool) (window dist len : Nat) : Res Out :=
  let reach := if useDict then o.hist.size else o.size
  if dist = 0 ∨ reach < dist ∨ window < dist then err St.INFL_DISTANCE else o.copyBack dist len

/-- The bytes output. -/
def Out.bytes (o : Out) : Bytes := o.hist.toList.drop o.base

/-! ### Bits, least significant first -/

/-- A bit reader: bytes not yet taken, and the bits of the byte in hand. -/
structure BitsL where
  rest : Bytes
  acc : Nat := 0
  n : Nat := 0
  deriving Repr, DecidableEq, Inhabited

/-- One bit. -/
def BitsL.one (r : BitsL) : Res (Nat × BitsL) :=
  if r.n = 0 then
    match r.rest with
    | [] => err St.INFL_TRUNCATED
    | b :: bs => .ok (b.toNat % 2, { rest := bs, acc := b.toNat / 2, n := 7 })
  else .ok (r.acc % 2, { r with acc := r.acc / 2, n := r.n - 1 })

/-- k bits, least significant first. -/
def BitsL.take (r : BitsL) : Nat → Res (Nat × BitsL)
  | 0 => .ok (0, r)
  | k + 1 => do
    let (b, r) ← r.one
    let (v, r) ← r.take k
    return (b + 2 * v, r)

/-- The rest of the byte in hand dropped. -/
def BitsL.align (r : BitsL) : BitsL := { r with acc := 0, n := 0 }

/-! ### Canonical Huffman codes -/

/-- A canonical code: number of codes of each length 1 to max, and symbols in code order. -/
structure Huff where
  counts : List Nat
  syms : Array Nat
  deriving Repr, Inhabited

/-- Kraft slack left by the counts of lengths 1 to 15; none when over-subscribed. -/
def huffLeft : List Nat → Nat → Option Nat
  | [], left => some left
  | c :: cs, left => if 2 * left < c then none else huffLeft cs (2 * left - c)

/-- The code of a list of lengths. -/
def huffOf (max : Nat) (lens : List Nat) : Huff :=
  let idx := lens.zipIdx
  { counts := (List.range max).map fun l => lens.countP (· == l + 1)
    syms := ((List.range max).flatMap fun l => (idx.filter fun p => p.1 == l + 1).map (·.2)).toArray }

/-- A symbol, code bits most significant first; none when no code matches. -/
def huffRead (syms : Array Nat) : List Nat → Nat → Nat → Nat → BitsL → Res (Option Nat × BitsL)
  | [], _, _, _, r => .ok (none, r)
  | c :: cs, code, first, index, r => do
    let (b, r) ← r.one
    let code := code + b
    if code < first + c then return (syms[index + (code - first)]?, r)
    else huffRead syms cs (2 * code) (2 * (first + c)) (index + c) r

/-- A symbol of a code; a bit pattern without a code is INFL_CODE_INVALID. -/
def Huff.next (h : Huff) (r : BitsL) : Res (Nat × BitsL) := do
  match ← huffRead h.syms h.counts 0 0 0 r with
  | (some s, r) => return (s, r)
  | (none, _) => err St.INFL_CODE_INVALID

/-- The code of lengths, checked: over-subscribed or incomplete is INFL_CODE_INVALID; single says whether the single-code
case of RFC 1951 (a distance code of one or no code) is allowed. -/
def huffChecked (max : Nat) (single : Bool) (lens : List Nat) : Res Huff :=
  let h := huffOf max lens
  match huffLeft h.counts 1 with
  | none => err St.INFL_CODE_INVALID
  | some left =>
    if left = 0 then .ok h
    else if single ∧ (h.syms.size = 0 ∨ (h.syms.size = 1 ∧ h.counts.head? = some 1)) then .ok h
    else err St.INFL_CODE_INVALID

/-! ### DEFLATE blocks (RFC 1951) -/

/-- (base, extra bits) of length symbols 257 to 285. -/
def lenBase : List (Nat × Nat) :=
  [(3, 0), (4, 0), (5, 0), (6, 0), (7, 0), (8, 0), (9, 0), (10, 0), (11, 1), (13, 1), (15, 1), (17, 1), (19, 2),
   (23, 2), (27, 2), (31, 2), (35, 3), (43, 3), (51, 3), (59, 3), (67, 4), (83, 4), (99, 4), (115, 4), (131, 5),
   (163, 5), (195, 5), (227, 5), (258, 0)]

/-- (base, extra bits) of distance symbols 0 to 29. -/
def distBase : List (Nat × Nat) :=
  [(1, 0), (2, 0), (3, 0), (4, 0), (5, 1), (7, 1), (9, 2), (13, 2), (17, 3), (25, 3), (33, 4), (49, 4), (65, 5),
   (97, 5), (129, 6), (193, 6), (257, 7), (385, 7), (513, 8), (769, 8), (1025, 9), (1537, 9), (2049, 10), (3073, 10),
   (4097, 11), (6145, 11), (8193, 12), (12289, 12), (16385, 13), (24577, 13)]

/-- Lengths of the fixed literal/length code. -/
def fixedLit : List Nat :=
  List.replicate 144 8 ++ List.replicate 112 9 ++ List.replicate 24 7 ++ List.replicate 8 8

/-- Order of code-length code lengths. -/
def clOrder : List Nat := [16, 17, 18, 0, 8, 7, 9, 6, 10, 5, 11, 4, 12, 3, 13, 2, 14, 1, 15]

/-- Symbols of one compressed block, to its end code. -/
def blockSyms (lit dist : Huff) (useDict : Bool) : Nat → BitsL → Out → Res (BitsL × Out)
  | 0, _, _ => err St.INFL_TRUNCATED
  | fuel + 1, r, o => do
    let (s, r) ← lit.next r
    if s < 256 then blockSyms lit dist useDict fuel r (← o.push (BitVec.ofNat 8 s))
    else if s = 256 then return (r, o)
    else
      match lenBase[s - 257]? with
      | none => err St.INFL_ILLEGAL_CODE
      | some (lb, lx) =>
        let (x, r) ← r.take lx
        let (ds, r) ← dist.next r
        match distBase[ds]? with
        | none => err St.INFL_ILLEGAL_CODE
        | some (db, dx) =>
          let (y, r) ← r.take dx
          blockSyms lit dist useDict fuel r (← o.backRef useDict 32768 (db + y) (lb + x))

/-- The HLIT + HDIST code lengths of a dynamic block, newest first in the accumulator. -/
def readLens (cl : Huff) (total : Nat) : Nat → BitsL → List Nat → Res (List Nat × BitsL)
  | 0, _, _ => err St.INFL_TRUNCATED
  | fuel + 1, r, acc =>
    if total ≤ acc.length then .ok (acc.reverse, r)
    else do
      let (s, r) ← cl.next r
      if s < 16 then readLens cl total fuel r (s :: acc)
      else
        let (v, n, x) ← (if s = 16 then
            match acc with
            | [] => err St.INFL_CODE_LENGTHS
            | p :: _ => .ok (p, 3, 2)
          else if s = 17 then .ok (0, 3, 3) else .ok (0, 11, 7) : Res (Nat × Nat × Nat))
        let (k, r) ← r.take x
        if total < acc.length + n + k then err St.INFL_CODE_LENGTHS
        else readLens cl total fuel r (List.replicate (n + k) v ++ acc)

/-- k three-bit numbers. -/
def take3 : Nat → BitsL → Res (List Nat × BitsL)
  | 0, r => .ok ([], r)
  | k + 1, r => do
    let (v, r) ← r.take 3
    let (l, r) ← take3 k r
    return (v :: l, r)

/-- The two codes of a dynamic block. -/
def readDynamic (r : BitsL) : Res (Huff × Huff × BitsL) := do
  let (hl, r) ← r.take 5
  let (hd, r) ← r.take 5
  let (hc, r) ← r.take 4
  if 286 < hl + 257 ∨ 30 < hd + 1 then err St.INFL_CODE_LENGTHS
  else
    let (cls, r) ← take3 (hc + 4) r
    let clLens := (List.range 19).map fun i => ((clOrder.zip cls).find? (·.1 == i)).elim 0 (·.2)
    let cl ← huffChecked 7 false clLens
    let (lens, r) ← readLens cl (hl + hd + 258) 400 r []
    if lens.getD 256 0 = 0 then err St.INFL_CODE_LENGTHS
    else
      let lit ← huffChecked 15 false (lens.take (hl + 257))
      let dist ← huffChecked 15 true (lens.drop (hl + 257))
      return (lit, dist, r)

/-- The blocks of a DEFLATE stream, to the end of its final block. fuel counts input bits. -/
def deflateBlocks (useDict : Bool) : Nat → BitsL → Out → Res (BitsL × Out)
  | 0, _, _ => err St.INFL_TRUNCATED
  | fuel + 1, r, o => do
    let (bfinal, r) ← r.one
    let (bt, r) ← r.take 2
    let (r, o) ← (if bt = 0 then do
        let r := r.align
        if r.rest.length < 4 then err St.INFL_TRUNCATED
        else
          let len := fld r.rest 0 2
          if len + fld r.rest 2 2 ≠ 65535 then err St.INFL_STORED_LEN
          else
            let data := (r.rest.drop 4).take len
            let o ← o.pushAll data
            if data.length < len then err St.INFL_TRUNCATED
            else .ok ({ rest := r.rest.drop (4 + len) }, o)
      else if bt = 1 then
        blockSyms (huffOf 15 fixedLit) (huffOf 15 (List.replicate 32 5)) useDict (8 * r.rest.length + 16) r o
      else if bt = 2 then do
        let (lit, dist, r) ← readDynamic r
        blockSyms lit dist useDict (8 * r.rest.length + 16) r o
      else err St.INFL_BLOCK_TYPE : Res (BitsL × Out))
    if bfinal = 1 then return (r, o) else deflateBlocks useDict fuel r o

/-- A DEFLATE stream from whole bytes: the bytes after its final block, and the output. -/
def inflate (useDict : Bool) (b : Bytes) (o : Out) : Res (Bytes × Out) := do
  let (r, o) ← deflateBlocks useDict (8 * b.length + 1) { rest := b } o
  return (r.align.rest, o)

/-! ### zlib and gzip wrappers -/

/-- At least n bytes are left. -/
def need (b : Bytes) (n : Nat) : Res Unit := if b.length < n then err St.INFL_TRUNCATED else .ok ()

/-- The byte at i. -/
def byteAt (b : Bytes) (i : Nat) : Nat := (b.getD i 0).toNat

/-- One zlib stream (RFC 1950, R148, R151 check 1). -/
def inflateZ (dict : Option Bytes) (b : Bytes) (o : Out) : Res (Bytes × Out) := do
  need b 2
  let cmf := byteAt b 0
  let flg := byteAt b 1
  if cmf % 16 ≠ 8 ∨ 7 < cmf / 16 ∨ (cmf * 256 + flg) % 31 ≠ 0 then err St.INFL_HEADER
  else
    let start := o.hist.size
    let fdict := bit flg 5
    let b := b.drop 2
    let b ← (if fdict then do
        need b 4
        if dict.map adler32 = some (beNat (b.take 4)) then return b.drop 4 else err St.INFL_DICT_MISSING
      else return b : Res Bytes)
    let (b, o) ← inflate fdict b o
    need b 4
    if beNat (b.take 4) ≠ adler32 (o.hist.toList.drop start) then err St.INFL_ADLER
    else return (b.drop 4, o)

/-- A zero-terminated field skipped. -/
def skipZero : Bytes → Res Bytes
  | [] => err St.INFL_TRUNCATED
  | b :: bs => if b = 0 then .ok bs else skipZero bs

/-- A gzip member header (RFC 1952): the bytes after it. -/
def gzipHeader (b : Bytes) : Res Bytes := do
  need b 1
  if byteAt b 0 ≠ 0x1F then err St.INFL_HEADER
  else
    need b 2
    if byteAt b 1 ≠ 0x8B then err St.INFL_HEADER
    else
      need b 4
      let flg := byteAt b 3
      if byteAt b 2 ≠ 8 ∨ 32 ≤ flg then err St.INFL_HEADER
      else
        need b 10
        let r := b.drop 10
        let r ← (if bit flg 2 then do
            need r 2
            let n := fld r 0 2
            need r (2 + n)
            return r.drop (2 + n) else return r : Res Bytes)
        let r ← if bit flg 3 then skipZero r else .ok r
        let r ← if bit flg 4 then skipZero r else .ok r
        if bit flg 1 then do
          need r 2
          if fld r 0 2 ≠ crc32 (b.take (b.length - r.length)) % 65536 then err St.INFL_HEADER_CRC
          else return r.drop 2
        else return r

/-- One gzip member with its trailer checks (R151 check 1). -/
def gunzipMember (b : Bytes) (o : Out) : Res (Bytes × Out) := do
  let start := o.hist.size
  let (b, o) ← inflate false (← gzipHeader b) o
  need b 8
  let member := o.hist.toList.drop start
  if fld b 0 4 ≠ crc32 member then err St.INFL_GZIP_CRC
  else if fld b 4 4 ≠ member.length % 2 ^ 32 then err St.INFL_GZIP_SIZE
  else return (b.drop 8, o)

/-- Members one after another while MULTI allows (R146, R151 check 5). -/
def gunzip (multi : Bool) : Nat → Bytes → Out → Res (Bytes × Out)
  | 0, b, o => .ok (b, o)
  | fuel + 1, b, o => do
    let (b, o) ← gunzipMember b o
    if multi ∧ b.take 2 = [0x1F, 0x8B] then gunzip multi fuel b o else return (b, o)

/-! ### The checks after the last member or frame (R151 checks 3 to 5) -/

/-- Decode flags of PARAM1 and the expected values in force (R146, R147). -/
structure DecodeOpts where
  multi : Bool := false
  zeroPad : Bool := false
  expectLen : Option Nat := none
  expectCrc : Option Nat := none
  bound : Nat
  deriving Repr, DecidableEq, Inhabited

/-- Checks 3 to 5 of R151 and the output. -/
def finishDecode (p : DecodeOpts) (rest : Bytes) (o : Out) : Res Bytes :=
  let out := o.bytes
  let crc := crc32c out
  if p.expectLen.any fun l => decide (out.length < l) then .error { status := St.INFL_LENGTH_SHORT, crc := some crc }
  else if p.expectCrc.any fun c => c != crc then .error { status := St.INFL_FRANKING, crc := some crc }
  else if rest = [] ∨ (p.zeroPad ∧ rest.all (· == 0)) then .ok out
  else .error { status := St.INFL_TRAILING, crc := some crc }

/-- Output with the dictionary as history before it. -/
def outWith (p : DecodeOpts) (dict : Option Bytes) : Out :=
  { hist := (dict.getD []).toArray, base := (dict.getD []).length, expect := p.expectLen, bound := p.bound }

/-- INFLATE_RAW (R144, R148): the dictionary is always in use. -/
def decodeRaw (p : DecodeOpts) (dict : Option Bytes) (b : Bytes) : Res Bytes := do
  let (rest, o) ← inflate true b (outWith p dict)
  finishDecode p rest o

/-- INFLATE_ZLIB. -/
def decodeZlib (p : DecodeOpts) (dict : Option Bytes) (b : Bytes) : Res Bytes := do
  let (rest, o) ← inflateZ dict b (outWith p dict)
  finishDecode p rest o

/-- INFLATE_GZIP. -/
def decodeGzip (p : DecodeOpts) (b : Bytes) : Res Bytes := do
  let (rest, o) ← gunzip p.multi (b.length + 1) b (outWith p none)
  finishDecode p rest o

end Sys2Proof.Machine
end

