-- ==== Sys2Proof/Machine/Zstd.lean ====
section
/-! DEFINITION. Decoding of Zstandard frames (RFC 8878) under R143 to R151, and DECODE_AUTO (R145). -/

namespace Sys2Proof.Machine

open Sys2Proof

/-! ### Backward bit streams -/

/-- A backward bit stream: the bits not yet read, first one first, and the bits read past its start. -/
structure BitsR where
  bits : List Bool
  beyond : Nat := 0
  deriving Repr, DecidableEq, Inhabited

/-- Bits of a byte, most significant first. -/
def byteBits (b : Byte) : List Bool := [7, 6, 5, 4, 3, 2, 1, 0].map fun i => bit b.toNat i

/-- A backward stream opened: zero padding and the marker bit skipped; none for a last byte of 0. -/
def bitsROf (b : Bytes) : Option BitsR :=
  match b.reverse with
  | [] => none
  | l :: r => if l = 0 then none else some { bits := ((byteBits l).dropWhile (!·)).tail ++ r.flatMap byteBits }

/-- The number of the next k bits, zeros past the start. -/
def BitsR.peek (r : BitsR) (k : Nat) : Nat :=
  let l := r.bits.take k
  l.foldl (fun a b => 2 * a + b2n b) 0 * 2 ^ (k - l.length)

/-- k bits dropped. -/
def BitsR.skip (r : BitsR) (k : Nat) : BitsR :=
  { bits := r.bits.drop k, beyond := r.beyond + (k - (r.bits.take k).length) }

/-- k bits read. -/
def BitsR.take (r : BitsR) (k : Nat) : Nat × BitsR := (r.peek k, r.skip k)

/-! ### FSE tables -/

/-- One state of an FSE decoding table. -/
structure FseCell where
  sym : Nat
  nb : Nat
  base : Nat
  deriving Repr, DecidableEq, Inhabited

/-- An FSE decoding table. -/
structure Fse where
  log : Nat
  cells : Array FseCell
  deriving Repr, Inhabited

/-- Position of the highest set bit. -/
def highBit (n : Nat) : Nat := n.log2

/-- Zero-probability repeats: two-bit counts while 3. -/
def fseZeros : Nat → BitsL → List Int → Res (List Int × BitsL)
  | 0, _, _ => err St.INFL_ZSTD_TABLE
  | f + 1, r, acc => do
    let (k, r) ← r.take 2
    let acc := List.replicate k 0 ++ acc
    if k = 3 then fseZeros f r acc else return (acc, r)

/-- Probabilities of an FSE table description, newest first in the accumulator. -/
def fseProbs : Nat → Nat → BitsL → List Int → Res (List Int × BitsL)
  | 0, _, _, _ => err St.INFL_ZSTD_TABLE
  | f + 1, left, r, acc =>
    if left = 0 then .ok (acc.reverse, r)
    else do
      let nb := highBit (left + 1) + 1
      let (v, r) ← r.take (nb - 1)
      let thr := 2 ^ nb - 1 - (left + 1)
      let (v, r) ← (if v < thr then .ok (v, r)
        else do
          let (b, r) ← r.one
          let w := v + b * 2 ^ (nb - 1)
          return (if 2 ^ (nb - 1) ≤ w then w - thr else w, r) : Res (Nat × BitsL))
      let p : Int := (v : Int) - 1
      let acc := p :: acc
      let used := p.natAbs
      if left < used then err St.INFL_ZSTD_TABLE
      else if p = 0 then do
        let (acc, r) ← fseZeros 300 r acc
        fseProbs f (left - used) r acc
      else fseProbs f (left - used) r acc

/-- Symbols of probability −1, one cell each from the top of the table. -/
def fseLow (probs : List Int) : List Nat := (probs.zipIdx.filter fun p => p.1 == -1).map (·.2)

/-- The next position of the spread that is below the low-probability cells. -/
def fseNext (size high : Nat) : Nat → Nat → Nat
  | 0, p => p
  | f + 1, p =>
    let p := (p + size / 2 + size / 8 + 3) % size
    if high ≤ p then fseNext size high f p else p

/-- Symbols spread over the table. -/
def fseSpread (size high : Nat) : List Nat → Nat → Array Nat → Array Nat
  | [], _, a => a
  | s :: ss, p, a => fseSpread size high ss (fseNext size high size p) (a.set! p s)

/-- Cells from the spread symbols: state numbers are given out per symbol in table order. -/
def fseCells (log : Nat) : List Nat → Array Nat → List FseCell
  | [], _ => []
  | s :: ss, next =>
    let x := next.getD s 1
    let nb := log - highBit x
    { sym := s, nb := nb, base := x * 2 ^ nb - 2 ^ log } :: fseCells log ss (next.set! s (x + 1))

/-- The decoding table of a distribution. -/
def fseBuild (log : Nat) (probs : List Int) : Fse :=
  let size := 2 ^ log
  let low := fseLow probs
  let high := size - low.length
  let syms := probs.zipIdx.flatMap fun p => List.replicate p.1.toNat p.2
  let a := low.zipIdx.foldl (fun (a : Array Nat) p => a.set! (size - 1 - p.2) p.1) (Array.replicate size 0)
  let a := fseSpread size high syms 0 a
  { log := log, cells := (fseCells log a.toList (probs.map fun p => if p = -1 then 1 else p.toNat).toArray).toArray }

/-- An FSE table description: accuracy log at most maxLog, symbols at most maxSym; the bytes after it. -/
def fseRead (maxLog maxSym : Nat) (b : Bytes) : Res (Fse × Bytes) := do
  let tbl {α : Type} (x : Res α) : Res α := match x with
    | .error e => if e.status = St.INFL_TRUNCATED then err St.INFL_ZSTD_TABLE else .error e
    | .ok v => .ok v
  let (al, r) ← tbl (BitsL.take { rest := b } 4)
  let log := al + 5
  if maxLog < log then err St.INFL_ZSTD_TABLE
  else
    let (probs, r) ← tbl (fseProbs 600 (2 ^ log) r [])
    if maxSym + 1 < probs.length then err St.INFL_ZSTD_TABLE
    else return (fseBuild log probs, r.align.rest)

/-- A one-symbol table (RLE mode). -/
def fseRle (s : Nat) : Fse := { log := 0, cells := #[{ sym := s, nb := 0, base := 0 }] }

/-- Initial state. -/
def Fse.init (t : Fse) (r : BitsR) : Nat × BitsR := r.take t.log
/-- Cell of a state. -/
def Fse.at (t : Fse) (s : Nat) : FseCell := t.cells.getD s {sym := 0, nb := 0, base := 0}
/-- Next state. -/
def Fse.step (t : Fse) (s : Nat) (r : BitsR) : Nat × BitsR :=
  let c := t.at s
  let (v, r) := r.take c.nb
  (c.base + v, r)

/-! ### Huffman trees of literals -/

/-- A literals tree: bits of the longest code, and (symbol, bits) for every pattern of that many bits. -/
structure ZHuff where
  max : Nat
  cells : Array (Nat × Nat)
  deriving Repr, Inhabited

/-- FSE-coded weights: two states in turn until the stream is read past its start. -/
def fseWeights (t : Fse) : Nat → Nat → Nat → BitsR → List Nat → Res (List Nat)
  | 0, _, _, _, _ => err St.INFL_ZSTD_TABLE
  | f + 1, s1, s2, r, acc =>
    let acc := (t.at s1).sym :: acc
    let (n1, r') := t.step s1 r
    if 0 < r'.beyond then .ok (((t.at s2).sym :: acc).reverse)
    else fseWeights t f s2 n1 r' acc

/-- The tree of the weights listed; the last weight is implied (RFC 8878 4.2.1). -/
def zhuffOf (ws : List Nat) : Res ZHuff :=
  let sum := (ws.map fun w => if w = 0 then 0 else 2 ^ (w - 1)).sum
  if sum = 0 ∨ ws.any (fun w => decide (12 < w)) then err St.INFL_ZSTD_TABLE
  else
    let max := highBit sum + 1
    let left := 2 ^ max - sum
    if 11 < max ∨ left ≠ 2 ^ highBit left ∨ 255 < ws.length then err St.INFL_ZSTD_TABLE
    else
      let ws := ws ++ [highBit left + 1]
      let idx := ws.zipIdx
      let cells := (List.range max).flatMap fun k =>
        (idx.filter fun p => p.1 == k + 1).flatMap fun p => List.replicate (2 ^ k) (p.2, max - k)
      .ok { max := max, cells := cells.toArray }

/-- A Huffman tree description: the tree and the bytes after it. -/
def zhuffRead (b : Bytes) : Res (ZHuff × Bytes) := do
  match b with
  | [] => err St.INFL_ZSTD_TABLE
  | h :: r =>
    let h := h.toNat
    if 128 ≤ h then
      let n := h - 127
      let k := (n + 1) / 2
      if r.length < k then err St.INFL_ZSTD_TABLE
      else
        let ws := ((r.take k).flatMap fun x => [x.toNat / 16, x.toNat % 16]).take n
        return (← zhuffOf ws, r.drop k)
    else if r.length < h then err St.INFL_ZSTD_TABLE
    else
      let (t, s) ← fseRead 6 12 (r.take h)
      match bitsROf s with
      | none => err St.INFL_ZSTD_TABLE
      | some br =>
        let (s1, br) := t.init br
        let (s2, br) := t.init br
        if 0 < br.beyond then err St.INFL_ZSTD_TABLE
        else return (← zhuffOf (← fseWeights t 256 s1 s2 br []), r.drop h)

/-- n literals of one stream; the stream must end exactly. -/
def zhuffStream (t : ZHuff) : Nat → BitsR → List Byte → Res Bytes
  | 0, r, acc => if r.bits = [] ∧ r.beyond = 0 then .ok acc.reverse else err St.INFL_ZSTD_BLOCK
  | n + 1, r, acc =>
    let c := t.cells.getD (r.peek t.max) (0, 1)
    zhuffStream t n (r.skip c.2) (BitVec.ofNat 8 c.1 :: acc)

/-- One stream from its bytes. -/
def zhuffDecode (t : ZHuff) (n : Nat) (b : Bytes) : Res Bytes :=
  match bitsROf b with
  | none => err St.INFL_ZSTD_BLOCK
  | some r => zhuffStream t n r []

/-! ### Blocks -/

/-- What blocks of a frame carry on: repeat offsets, tree and tables. -/
structure ZState where
  rep : Nat × Nat × Nat := (1, 4, 8)
  huff : Option ZHuff := none
  ll : Option Fse := none
  of : Option Fse := none
  ml : Option Fse := none
  deriving Repr, Inhabited

/-- (base, extra bits) of literal-length codes. -/
def llCodes : List (Nat × Nat) :=
  (List.range 16).map (fun i => (i, 0)) ++
  [(16, 1), (18, 1), (20, 1), (22, 1), (24, 2), (28, 2), (32, 3), (40, 3), (48, 4), (64, 6), (128, 7), (256, 8),
   (512, 9), (1024, 10), (2048, 11), (4096, 12), (8192, 13), (16384, 14), (32768, 15), (65536, 16)]

/-- (base, extra bits) of match-length codes. -/
def mlCodes : List (Nat × Nat) :=
  (List.range 32).map (fun i => (i + 3, 0)) ++
  [(35, 1), (37, 1), (39, 1), (41, 1), (43, 2), (47, 2), (51, 3), (59, 3), (67, 4), (83, 4), (99, 5), (131, 7),
   (259, 8), (515, 9), (1027, 10), (2051, 11), (4099, 12), (8195, 13), (16387, 14), (32771, 15), (65539, 16)]

/-- Predefined distribution of literal lengths, accuracy log 6. -/
def llDefault : List Int :=
  [4, 3, 2, 2, 2, 2, 2, 2, 2, 2, 2, 2, 2, 1, 1, 1, 2, 2, 2, 2, 2, 2, 2, 2, 2, 3, 2, 1, 1, 1, 1, 1, -1, -1, -1, -1]

/-- Predefined distribution of match lengths, accuracy log 6. -/
def mlDefault : List Int :=
  [1, 4, 3, 2, 2, 2, 2, 2, 2, 1, 1, 1, 1, 1, 1, 1, 1, 1, 1, 1, 1, 1, 1, 1, 1, 1, 1, 1, 1, 1, 1, 1] ++
  [1, 1, 1, 1, 1, 1, 1, 1, 1, 1, 1, 1, 1, 1, -1, -1, -1, -1, -1, -1, -1]

/-- Predefined distribution of offset codes, accuracy log 5. -/
def ofDefault : List Int :=
  [1, 1, 1, 1, 1, 1, 2, 2, 2, 1, 1, 1, 1, 1, 1, 1, 1, 1, 1, 1, 1, 1, 1, 1, -1, -1, -1, -1, -1]

/-- The literals section: literals, the tree now in force, and the bytes after it. -/
def zLiterals (st : ZState) (b : Bytes) (limit : Nat) : Res (Bytes × ZState × Bytes) := do
  let needB (k : Nat) : Res Unit := if b.length < k then err St.INFL_ZSTD_BLOCK else .ok ()
  needB 1
  let b0 := byteAt b 0
  let sf := b0 / 4 % 4
  if b0 % 4 < 2 then
    let (hl, n) := if sf % 2 = 0 then (1, b0 / 8) else if sf = 1 then (2, fld b 0 2 / 16) else (3, fld b 0 3 / 16)
    needB hl
    if limit < n then err St.INFL_ZSTD_BLOCK
    else if b0 % 4 = 0 then
      needB (hl + n)
      return (cut b hl n, st, b.drop (hl + n))
    else
      needB (hl + 1)
      return (List.replicate n (b.getD hl 0), st, b.drop (hl + 1))
  else
    let (hl, w) := if sf < 2 then (3, 10) else if sf = 2 then (4, 14) else (5, 18)
    needB hl
    let v := fld b 0 hl / 16
    let n := v % 2 ^ w
    let c := v / 2 ^ w
    needB (hl + c)
    if limit < n then err St.INFL_ZSTD_BLOCK
    else
      let body := cut b hl c
      let (t, body) ← (if b0 % 4 = 2 then zhuffRead body else
        match st.huff with
        | some t => .ok (t, body)
        | none => err St.INFL_ZSTD_TABLE : Res (ZHuff × Bytes))
      let rest := b.drop (hl + c)
      if sf = 0 then return (← zhuffDecode t n body, { st with huff := some t }, rest)
      else
        let s1 := fld body 0 2
        let s2 := fld body 2 2
        let s3 := fld body 4 2
        let q := (n + 3) / 4
        if body.length < 6 + s1 + s2 + s3 ∨ n < 3 * q then err St.INFL_ZSTD_BLOCK
        else
          let body := body.drop 6
          let l1 ← zhuffDecode t q (body.take s1)
          let l2 ← zhuffDecode t q (cut body s1 s2)
          let l3 ← zhuffDecode t q (cut body (s1 + s2) s3)
          let l4 ← zhuffDecode t (n - 3 * q) (body.drop (s1 + s2 + s3))
          return (l1 ++ l2 ++ l3 ++ l4, { st with huff := some t }, rest)

/-- One sequence table: predefined, RLE, FSE or repeat. -/
def zTable (mode : Nat) (dflt : Fse) (prev : Option Fse) (maxLog maxSym : Nat) (b : Bytes) : Res (Fse × Bytes) :=
  if mode = 0 then .ok (dflt, b)
  else if mode = 1 then
    match b with
    | [] => err St.INFL_ZSTD_TABLE
    | x :: r => if maxSym < x.toNat then err St.INFL_ZSTD_TABLE else .ok (fseRle x.toNat, r)
  else if mode = 2 then fseRead maxLog maxSym b
  else match prev with
    | some t => .ok (t, b)
    | none => err St.INFL_ZSTD_TABLE

/-- Repeat offsets after an offset value, and the distance it means (RFC 8878 3.1.1.5); none for distance 0. -/
def zRep (rep : Nat × Nat × Nat) (value ll : Nat) : Option (Nat × (Nat × Nat × Nat)) :=
  let (r1, r2, r3) := rep
  if 3 < value then some (value - 3, (value - 3, r1, r2))
  else
    let i := value + b2n (ll == 0)
    if i = 1 then some (r1, rep)
    else if i = 2 then some (r2, (r2, r1, r3))
    else if i = 3 then some (r3, (r3, r1, r2))
    else if r1 ≤ 1 then none else some (r1 - 1, (r1 - 1, r1, r2))

/-- n sequences carried out. -/
def zSeqs (window : Nat) (useDict : Bool) (tl tof tm : Fse) :
    Nat → Nat → Nat → Nat → BitsR → Nat × Nat × Nat → Bytes → Out → Res (Nat × Nat × Nat × Bytes × Out)
  | 0, _, _, _, r, rep, lits, o =>
    if r.bits = [] ∧ r.beyond = 0 then .ok (rep.1, rep.2.1, rep.2.2, lits, o) else err St.INFL_ZSTD_SEQUENCE
  | n + 1, sl, so, sm, r, rep, lits, o => do
    let oc := (tof.at so).sym
    let (lb, lx) := llCodes.getD (tl.at sl).sym (0, 0)
    let (mb, mx) := mlCodes.getD (tm.at sm).sym (0, 0)
    let (ov, r) := r.take oc
    let (mv, r) := r.take mx
    let (lv, r) := r.take lx
    let ll := lb + lv
    let (sl, so, sm, r) := if n = 0 then (sl, so, sm, r) else
      let (sl, r) := tl.step sl r
      let (sm, r) := tm.step sm r
      let (so, r) := tof.step so r
      (sl, so, sm, r)
    if lits.length < ll ∨ 0 < r.beyond then err St.INFL_ZSTD_SEQUENCE
    else
      match zRep rep (2 ^ oc + ov) ll with
      | none => err St.INFL_ZSTD_SEQUENCE
      | some (dist, rep) =>
        if dist = 0 then err St.INFL_ZSTD_SEQUENCE
        else
          let o ← o.pushAll (lits.take ll)
          let o ← o.backRef useDict window dist (mb + mv)
          zSeqs window useDict tl tof tm n sl so sm r rep (lits.drop ll) o

/-- The sequences section of a block and the literals left over. -/
def zSequences (window : Nat) (useDict : Bool) (st : ZState) (lits b : Bytes) (o : Out) : Res (ZState × Out) := do
  match b with
  | [] => err St.INFL_ZSTD_BLOCK
  | b0 :: r =>
    let b0 := b0.toNat
    if b0 = 0 then
      if r = [] then return (st, ← o.pushAll lits) else err St.INFL_ZSTD_SEQUENCE
    else
      let (hl, n) := if b0 < 128 then (1, b0) else if b0 < 255 then (2, (b0 - 128) * 256 + byteAt b 1)
        else (3, fld b 1 2 + 0x7F00)
      if b.length < hl + 1 then err St.INFL_ZSTD_BLOCK
      else
        let md := byteAt b hl
        if md % 4 ≠ 0 then err St.INFL_ZSTD_TABLE
        else
          let b := b.drop (hl + 1)
          let (tl, b) ← zTable (md / 64) (fseBuild 6 llDefault) st.ll 9 35 b
          let (tof, b) ← zTable (md / 16 % 4) (fseBuild 5 ofDefault) st.of 8 31 b
          let (tm, b) ← zTable (md / 4 % 4) (fseBuild 6 mlDefault) st.ml 9 52 b
          match bitsROf b with
          | none => err St.INFL_ZSTD_SEQUENCE
          | some br =>
            let (sl, br) := tl.init br
            let (so, br) := tof.init br
            let (sm, br) := tm.init br
            let (a, b, c, lits, o) ← zSeqs window useDict tl tof tm n sl so sm br st.rep lits o
            return ({ st with rep := (a, b, c), ll := some tl, of := some tof, ml := some tm }, ← o.pushAll lits)

/-- Blocks of a frame to the last one. -/
def zBlocks (window : Nat) (useDict : Bool) : Nat → ZState → Bytes → Out → Res (Bytes × Out)
  | 0, _, _, _ => err St.INFL_TRUNCATED
  | fuel + 1, st, b, o => do
    need b 3
    let h := fld b 0 3
    let size := h / 8
    let limit := min window 131072
    let b := b.drop 3
    let bt := h / 2 % 4
    if bt = 3 then err St.INFL_BLOCK_TYPE
    else if limit < size then err St.INFL_ZSTD_BLOCK
    else
      let before := o.size
      let (st, b, o) ← (if bt = 0 then do
          let o ← o.pushAll (b.take size)
          need b size
          return (st, b.drop size, o)
        else if bt = 1 then do
          need b 1
          return (st, b.drop 1, ← o.pushAll (List.replicate size (b.getD 0 0)))
        else do
          need b size
          let (lits, st, rest) ← zLiterals st (b.take size) limit
          let (st, o) ← zSequences window useDict st lits rest o
          return (st, b.drop size, o) : Res (ZState × Bytes × Out))
      if limit < o.size - before then err St.INFL_ZSTD_BLOCK
      else if h % 2 = 1 then return (b, o) else zBlocks window useDict fuel st b o

/-! ### Dictionaries and frames -/

/-- A dictionary in the RFC 8878 format: its ID, what it sets up, and its content. -/
structure ZDict where
  id : Nat
  st : ZState
  content : Bytes
  deriving Repr, Inhabited

/-- A dictionary begins with the magic of the RFC 8878 format. -/
def isZDict (b : Bytes) : Bool := b.take 4 == [0x37, 0xA4, 0x30, 0xEC]

/-- A dictionary in the RFC 8878 format read. -/
def zDictRead (b : Bytes) : Res ZDict := do
  let (h, r) ← zhuffRead (b.drop 8)
  let (tof, r) ← fseRead 8 31 r
  let (tm, r) ← fseRead 9 52 r
  let (tl, r) ← fseRead 9 35 r
  let rep := (fld r 0 4, fld r 4 4, fld r 8 4)
  let content := r.drop 12
  if r.length < 12 ∨ rep.1 = 0 ∨ rep.2.1 = 0 ∨ rep.2.2 = 0 ∨ content.length < max rep.1 (max rep.2.1 rep.2.2) then
    err St.INFL_ZSTD_TABLE
  else return { id := fld b 4 4, st := { rep := rep, huff := some h, ll := some tl, of := some tof, ml := some tm },
                content := content }

/-- What history a supplied dictionary contributes: its content, or all of a raw-content dictionary (R148). -/
def zDictHistory (dict : Option Bytes) : Bytes :=
  match dict with
  | none => []
  | some b => if isZDict b then (zDictRead b).toOption.elim [] (·.content) else b

/-- One Zstandard frame with its trailer checks (R151 checks 1 and 2). -/
def zFrame (dict : Option Bytes) (b : Bytes) (o : Out) : Res (Bytes × Out) := do
  if b.take 4 ≠ ([0x28, 0xB5, 0x2F, 0xFD] : Bytes).take b.length then err St.INFL_HEADER
  else
    need b 5
    let fhd := byteAt b 4
    if bit fhd 3 then err St.INFL_HEADER
    else
      let single := bit fhd 5
      let wl := if single then 0 else 1
      let dl := [0, 1, 2, 4].getD (fhd % 4) 0
      let fl := [b2n single, 2, 4, 8].getD (fhd / 64) 0
      need b (5 + wl + dl + fl)
      let wd := byteAt b 5
      let fcs := fld b (5 + wl + dl) fl + (if fhd / 64 = 1 then 256 else 0)
      let window := if single then fcs else 2 ^ (10 + wd / 8) + 2 ^ (10 + wd / 8) / 8 * (wd % 8)
      if 2147483648 < window then err St.INFL_WINDOW_LIMIT
      else
        let id := fld b (5 + wl) dl
        let (st, useDict) ← (match dict with
          | none => if id = 0 then .ok ({}, false) else err St.INFL_DICT_MISSING
          | some d =>
            if isZDict d then do
              let z ← zDictRead d
              if id = 0 ∨ id = z.id then return (z.st, true) else err St.INFL_DICT_MISSING
            else if id = 0 then .ok ({}, true) else err St.INFL_DICT_MISSING : Res (ZState × Bool))
        let start := o.hist.size
        let (b, o) ← zBlocks window useDict (b.length + 1) st (b.drop (5 + wl + dl + fl)) o
        let content := o.hist.toList.drop start
        let b ← (if bit fhd 2 then do
            need b 4
            if fld b 0 4 ≠ xxh64 content % 2 ^ 32 then err St.INFL_ZSTD_CHECKSUM else return b.drop 4
          else return b : Res Bytes)
        if 0 < fl ∧ fcs ≠ content.length then err St.INFL_CONTENT_SIZE else return (b, o)

/-- The bytes begin a skippable frame. -/
def isSkippable (b : Bytes) : Bool := 4 ≤ b.length && fld b 0 4 / 16 == 0x184D2A5

/-- Frames one after another: skippable frames skipped, further frames with MULTI (R143, R146, R151 check 5). -/
def zFrames (multi : Bool) (dict : Option Bytes) : Nat → Bytes → Out → Res (Bytes × Out)
  | 0, b, o => .ok (b, o)
  | fuel + 1, b, o => do
    if isSkippable b then
      need b 8
      let n := fld b 4 4
      need b (8 + n)
      let rest := b.drop (8 + n)
      if rest = [] ∨ (multi ∧ !isSkippable rest ∧ rest.take 4 ≠ [0x28, 0xB5, 0x2F, 0xFD]) then return (rest, o)
      else zFrames multi dict fuel rest o
    else
      let (b, o) ← zFrame dict b o
      if multi ∧ (isSkippable b ∨ b.take 4 = [0x28, 0xB5, 0x2F, 0xFD]) then zFrames multi dict fuel b o
      else return (b, o)

/-- DECODE_ZSTD. -/
def decodeZstdBytes (p : DecodeOpts) (dict : Option Bytes) (b : Bytes) : Res Bytes := do
  let h := zDictHistory dict
  let (rest, o) ← zFrames p.multi dict (b.length + 1) b (outWith p (some h))
  finishDecode p rest o

/-! ### DECODE_AUTO (R145) -/

/-- Format DECODE_AUTO takes for these bytes: the opcode of Table 5.2. -/
def autoFormat (b : Bytes) : Nat :=
  if b.take 4 = [0x28, 0xB5, 0x2F, 0xFD] ∨ isSkippable b then 4
  else if b.take 2 = [0x1F, 0x8B] then 3
  else if 2 ≤ b.length ∧ byteAt b 0 % 16 = 8 ∧ byteAt b 0 / 16 ≤ 7 ∧ (byteAt b 0 * 256 + byteAt b 1) % 31 = 0 then 2
  else 1

/-- A decode by opcode 1 to 4. -/
def decodeBy (op : Nat) (p : DecodeOpts) (dict : Option Bytes) (b : Bytes) : Res Bytes :=
  match op with
  | 1 => decodeRaw p dict b
  | 2 => decodeZlib p dict b
  | 3 => decodeGzip p b
  | _ => decodeZstdBytes p dict b

/-- The failing decode carried a format check of its own: every format but raw DEFLATE (R153). -/
def hasFormatCheck (op : Nat) (b : Bytes) : Bool := op != 1 && !(op == 5 && autoFormat b == 1)

end Sys2Proof.Machine
end

