-- ==== Sys2Proof/Machine/Deflate.lean ====
section
/-! DEFINITION. Encoding of DEFLATE, zlib and gzip: match finder, levels and blocks (R156 to R163). -/

namespace Sys2Proof.Machine

open Sys2Proof

/-! ### Levels (Table 5.3) -/

/-- Search parameters of a level. -/
structure Level where
  chain : Nat
  nice : Nat
  lazyEval : Bool
  /-- default Zstandard window log -/
  zlog : Nat
  deriving Repr, DecidableEq, Inhabited

/-- Levels 1 to 12 (Table 5.3); the default DEFLATE-family window is 32,768 B at every level. -/
def levels : List Level :=
  [⟨1, 8, false, 20⟩, ⟨2, 16, false, 20⟩, ⟨4, 16, false, 20⟩, ⟨8, 32, false, 22⟩, ⟨16, 32, true, 22⟩,
   ⟨32, 64, true, 22⟩, ⟨64, 128, true, 23⟩, ⟨128, 128, true, 23⟩, ⟨256, 258, true, 23⟩, ⟨512, 258, true, 24⟩,
   ⟨1024, 258, true, 24⟩, ⟨4096, 258, true, 24⟩]

/-! ### The match finder (R157) -/

/-- Chains of positions, newest first, keyed by the 15 bits of a hash. -/
inductive Chains where
  | nil
  | node (l : List Nat) (a b : Chains)
  deriving Repr, Inhabited

/-- Chain of a hash; depth counts the bits left. -/
def Chains.get : Nat → Chains → Nat → List Nat
  | _, .nil, _ => []
  | 0, .node l _ _, _ => l
  | k + 1, .node _ a b, h => if h % 2 = 0 then a.get k (h / 2) else b.get k (h / 2)

/-- Chains with a position put at the head of one chain. -/
def Chains.add : Nat → Chains → Nat → Nat → Chains
  | 0, .nil, _, p => .node [p] .nil .nil
  | 0, .node l a b, _, p => .node (p :: l) a b
  | k + 1, .nil, h, p => if h % 2 = 0 then .node [] (Chains.add k .nil (h / 2) p) .nil
      else .node [] .nil (Chains.add k .nil (h / 2) p)
  | k + 1, .node l a b, h, p => if h % 2 = 0 then .node l (Chains.add k a (h / 2) p) b
      else .node l a (Chains.add k b (h / 2) p)

/-- Hash of the four bytes at p (R157). -/
def hash4 (d : Array Byte) (p : Nat) : Nat :=
  let g i := (d.getD (p + i) 0).toNat
  ((g 0 + 256 * g 1 + 65536 * g 2 + 16777216 * g 3) * 0x9E3779B1 % 2 ^ 32) / 2 ^ 17

/-- Equal bytes from p and c, at most n. -/
def matchLen (d : Array Byte) (p c : Nat) : Nat → Nat
  | 0 => 0
  | n + 1 => if d.getD p 0 = d.getD c 0 then matchLen d (p + 1) (c + 1) n + 1 else 0

/-- The chain walk: best match (length, distance) so far. -/
def chainWalk (d : Array Byte) (p window nice cap : Nat) : Nat → List Nat → Nat × Nat → Nat × Nat
  | 0, _, best => best
  | _, [], best => best
  | n + 1, c :: cs, best =>
    if window < p - c then best
    else
      let m := matchLen d p c cap
      let best := if 4 ≤ m ∧ best.1 < m then (m, p - c) else best
      if nice ≤ m then best else chainWalk d p window nice cap n cs best

/-- A literal or a match. -/
inductive Tok where
  | lit (b : Byte)
  | mtch (len dist : Nat)
  deriving Repr, DecidableEq, Inhabited

/-- What a parse works over: history and input, the end of the input, level, window and longest match; a block size
bounds a match at the end of its block (0: no bound). -/
structure Finder where
  d : Array Byte
  stop : Nat
  lv : Level
  window : Nat
  cap : Nat
  start : Nat
  block : Nat

/-- Longest match allowed at p. -/
def Finder.limit (f : Finder) (p : Nat) : Nat :=
  let left := f.stop - p
  let left := if f.block = 0 then left else min left (f.block - (p - f.start) % f.block)
  min f.cap left

/-- The search at p. -/
def Finder.search (f : Finder) (ch : Chains) (p : Nat) : Nat × Nat :=
  if f.stop < p + 4 then (0, 0)
  else chainWalk f.d p f.window f.lv.nice (f.limit p) f.lv.chain (ch.get 15 (hash4 f.d p)) (0, 0)

/-- p inserted at the head of its chain. -/
def Finder.insert (f : Finder) (ch : Chains) (p : Nat) : Chains :=
  if f.stop < p + 4 then ch else ch.add 15 (hash4 f.d p) p

/-- Tokens from p on; pre is the result of a search already made at p (lazy evaluation). -/
def Finder.parse (f : Finder) : Nat → Nat → Chains → Option (Nat × Nat) → List Tok → List Tok
  | 0, _, _, _, acc => acc.reverse
  | fuel + 1, p, ch, pre, acc =>
    if f.stop ≤ p then acc.reverse
    else
      let m := pre.getD (f.search ch p)
      let ch := f.insert ch p
      let lit := Tok.lit (f.d.getD p 0)
      if m.1 < 4 then f.parse fuel (p + 1) ch none (lit :: acc)
      else
        let m2 := if f.lv.lazyEval then f.search ch (p + 1) else (0, 0)
        if m.1 < m2.1 then f.parse fuel (p + 1) ch (some m2) (lit :: acc)
        else
          let ch := (List.range (m.1 - 1)).foldl (fun ch i => f.insert ch (p + 1 + i)) ch
          f.parse fuel (p + m.1) ch none (.mtch m.1 m.2 :: acc)

/-- Tokens of an input after a dictionary, whose positions enter the chains first (log entry 33). -/
def tokens (lv : Level) (window cap block : Nat) (dict input : Bytes) : List Tok :=
  let d := (dict ++ input).toArray
  let f : Finder := { d := d, stop := d.size, lv := lv, window := window, cap := cap, start := dict.length, block := block }
  let ch := (List.range dict.length).foldl (fun ch p => f.insert ch p) .nil
  f.parse (input.length + 1) dict.length ch none []

/-! ### Length-limited codes by package-merge (R158) -/

/-- Packages in order of weight; between equal weights a leaf comes before a package, and leaves by symbol. -/
def pmMerge : Nat → List (Nat × List Nat) → List (Nat × List Nat) → List (Nat × List Nat)
  | 0, a, b => a ++ b
  | _, [], b => b
  | _, a, [] => a
  | f + 1, x :: a, y :: b => if x.1 ≤ y.1 then x :: pmMerge f a (y :: b) else y :: pmMerge f (x :: a) b

/-- Neighbours packaged in pairs. -/
def pmPairs : List (Nat × List Nat) → List (Nat × List Nat)
  | x :: y :: r => (x.1 + y.1, x.2 ++ y.2) :: pmPairs r
  | _ => []

/-- One insertion of a leaf in (weight, symbol) order. -/
def pmInsert (x : Nat × List Nat) : List (Nat × List Nat) → List (Nat × List Nat)
  | [] => [x]
  | y :: r => if y.1 ≤ x.1 then y :: pmInsert x r else x :: y :: r

/-- Level after level of packages. -/
def pmLevels (leaves : List (Nat × List Nat)) : Nat → List (Nat × List Nat) → List (Nat × List Nat)
  | 0, l => l
  | n + 1, l => pmLevels leaves n (pmMerge (2 * leaves.length + 2 * l.length) leaves (pmPairs l))

/-- Code lengths of the weights, none above max. -/
def packageMerge (max : Nat) (weights : List Nat) : List Nat :=
  let used := weights.zipIdx.filter fun p => 0 < p.1
  let leaves := used.foldl (fun l p => pmInsert (p.1, [p.2]) l) []
  match leaves with
  | [] => weights.map fun _ => 0
  | [(_, s)] => weights.zipIdx.map fun p => if [p.2] = s then 1 else 0
  | _ =>
    let top := ((pmLevels leaves (max - 1) leaves).take (2 * leaves.length - 2)).flatMap (·.2)
    weights.zipIdx.map fun p => top.count p.2

/-! ### Bits out -/

/-- A field of a bit stream: value and width. -/
abbrev BitField := Nat × Nat

/-- Fields packed into bytes, least significant bit first. -/
def packBits : List BitField → Nat → Nat → List Byte → Bytes
  | [], acc, n, out => (if n = 0 then out else BitVec.ofNat 8 acc :: out).reverse
  | (v, w) :: r, acc, n, out =>
    let acc := acc + v % 2 ^ w * 2 ^ n
    let n := n + w
    let k := n / 8
    packBits r (acc / 2 ^ (8 * k)) (n % 8) ((le k acc).reverse ++ out)

/-- Width of fields. -/
def bitLen (l : List BitField) : Nat := l.foldl (fun a f => a + f.2) 0

/-- n bits reversed. -/
def revBits : Nat → Nat → Nat
  | 0, _ => 0
  | n + 1, v => v % 2 * 2 ^ n + revBits n (v / 2)

/-- Canonical codes of lengths, ready for a least-significant-first stream: (code, length) per symbol. -/
def canonCodes (max : Nat) (lens : List Nat) : Array BitField :=
  let idx := lens.zipIdx
  let (codes, _) := (List.range max).foldl (fun (s : List (Nat × BitField) × Nat) i =>
    let l := i + 1
    let syms := (idx.filter fun p => p.1 == l).map (·.2)
    let base := s.2 * 2
    (s.1 ++ syms.zipIdx.map (fun p => (p.1, (revBits l (base + p.2), l))), base + syms.length)) ([], 0)
  codes.foldl (fun (a : Array BitField) c => a.set! c.1 c.2) (Array.replicate lens.length (0, 0))

/-! ### DEFLATE blocks (R158) -/

/-- Index, base and extra width of the last entry whose base does not exceed v. -/
def codeOf (t : List (Nat × Nat)) (v : Nat) : Nat × Nat × Nat :=
  (t.zipIdx.foldl (fun (a : Nat × Nat × Nat) e => if e.1.1 ≤ v then (e.2, e.1.1, e.1.2) else a) (0, 0, 0))

/-- Literal/length and distance symbols of a token. -/
def tokSyms : Tok → Nat × Option Nat
  | .lit b => (b.toNat, none)
  | .mtch len dist => (257 + (codeOf lenBase len).1, some (codeOf distBase dist).1)

/-- Fields of a token under two codes. -/
def tokFields (lit dist : Array BitField) : Tok → List BitField
  | .lit b => [lit.getD b.toNat (0, 0)]
  | .mtch len ds =>
    let (ls, lb, lx) := codeOf lenBase len
    let (dsym, db, dx) := codeOf distBase ds
    [lit.getD (257 + ls) (0, 0), (len - lb, lx), dist.getD dsym (0, 0), (ds - db, dx)]

/-- Bytes of input a token covers. -/
def tokLen : Tok → Nat
  | .lit _ => 1
  | .mtch len _ => len

/-- Occurrences of each symbol below n. -/
def histogram (n : Nat) (l : List Nat) : List Nat :=
  (l.foldl (fun (a : Array Nat) s => a.modify s (· + 1)) (Array.replicate n 0)).toList

/-- A run of equal lengths: (value, count) first. -/
def runsOf : Nat → List Nat → List (Nat × Nat)
  | 0, _ => []
  | _, [] => []
  | f + 1, v :: r =>
    let k := (r.takeWhile (· == v)).length
    (v, k + 1) :: runsOf f (r.drop k)

/-- A run of zeros: code 18 while 11 or more remain, then code 17 for 3 to 10, then plain zeros. -/
def zeroRun : Nat → Nat → List (Nat × BitField)
  | 0, _ => []
  | f + 1, n =>
    if 11 ≤ n then (18, (min n 138 - 11, 7)) :: zeroRun f (n - min n 138)
    else if 3 ≤ n then [(17, (n - 3, 3))]
    else List.replicate n (0, (0, 0))

/-- Repeats of a nonzero length already written once: code 16 for 3 to 6. -/
def sameRun (v : Nat) : Nat → Nat → List (Nat × BitField)
  | 0, _ => []
  | f + 1, n =>
    if 3 ≤ n then (16, (min n 6 - 3, 2)) :: sameRun v f (n - min n 6)
    else List.replicate n (v, (0, 0))

/-- Code-length symbols with their extra bits. -/
def clSyms (lens : List Nat) : List (Nat × BitField) :=
  (runsOf (lens.length + 1) lens).flatMap fun p =>
    if p.1 = 0 then zeroRun (p.2 + 1) p.2 else (p.1, (0, 0)) :: sameRun p.1 (p.2 + 1) (p.2 - 1)

/-- Length of a list without its trailing zeros. -/
def usedLen (l : List Nat) : Nat := (l.reverse.dropWhile (· == 0)).length

/-- Header fields and code lengths of a dynamic block. -/
def dynamicHeader (lit dist : List Nat) : List BitField :=
  let hlit := max 257 (usedLen lit)
  let hdist := max 1 (usedLen dist)
  let syms := clSyms (lit.take hlit ++ dist.take hdist)
  let cl := packageMerge 7 (histogram 19 (syms.map (·.1)))
  let order := clOrder.map fun i => cl.getD i 0
  let hclen := max 4 (usedLen order)
  let codes := canonCodes 7 cl
  [(hlit - 257, 5), (hdist - 1, 5), (hclen - 4, 4)] ++ (order.take hclen).map (fun l => (l, 3)) ++
    syms.flatMap fun s => [codes.getD s.1 (0, 0), s.2]

/-- Stored form of a block starting at bit position pos. -/
def storedFields (pos : Nat) (final : Bool) (data : Bytes) : List BitField :=
  let pad := (8 - (pos + 3) % 8) % 8
  [(b2n final, 1), (0, 2), (0, pad), (data.length % 65536, 16), (65535 - data.length % 65536, 16)] ++
    data.map fun b => (b.toNat, 8)

/-- One block: the shortest of stored, fixed and dynamic, the first in that order between equals (R158). -/
def encodeBlock (pos : Nat) (final : Bool) (toks : List Tok) (data : Bytes) : List BitField :=
  let syms := toks.map tokSyms
  let lit := packageMerge 15 (histogram 286 (256 :: syms.map (·.1)))
  let dist := packageMerge 15 (histogram 30 (syms.filterMap (·.2)))
  let body (lc dc : Array BitField) := toks.flatMap (tokFields lc dc) ++ [lc.getD 256 (0, 0)]
  let fixed := (b2n final, 1) :: (1, 2) :: body (canonCodes 15 fixedLit) (canonCodes 15 (List.replicate 30 5))
  let dynamic := (b2n final, 1) :: (2, 2) :: (dynamicHeader lit dist ++ body (canonCodes 15 lit) (canonCodes 15 dist))
  let stored := storedFields pos final data
  let best := if bitLen dynamic < bitLen fixed then dynamic else fixed
  if data.length ≤ 65535 ∧ bitLen stored ≤ bitLen best then stored else best

/-- Blocks of 16,384 symbols to the end of the input. -/
def encodeBlocks : Nat → Nat → List Tok → Bytes → List BitField
  | 0, _, _, _ => []
  | f + 1, pos, toks, data =>
    let t := toks.take 16384
    let n := (t.map tokLen).sum
    let more := toks.drop 16384
    let b := encodeBlock pos more.isEmpty t (data.take n)
    if more.isEmpty then b else b ++ encodeBlocks f (pos + bitLen b) more (data.drop n)

/-- A raw DEFLATE stream; an empty input is one fixed block holding only the end code. -/
def deflateBytes (lv : Level) (wlog : Nat) (dict input : Bytes) : Bytes :=
  if input = [] then packBits [(1, 1), (1, 2), (0, 7)] 0 0 []
  else
    let toks := tokens lv (if wlog = 0 then 32768 else 2 ^ wlog) 258 0 dict input
    packBits (encodeBlocks (input.length + 1) 0 toks input) 0 0 []

/-- zlib FLEVEL of a level (R159). -/
def zlibFlevel (level : Nat) : Nat := if level ≤ 2 then 0 else if level ≤ 5 then 1 else if level = 6 then 2 else 3

/-- A zlib stream (R159). -/
def zlibBytes (level : Nat) (lv : Level) (wlog : Nat) (dict : Option Bytes) (input : Bytes) : Bytes :=
  let f := zlibFlevel level * 64 + (if dict.isSome then 32 else 0)
  let flg := f + (31 - (0x78 * 256 + f) % 31) % 31
  [0x78, BitVec.ofNat 8 flg] ++ dict.elim [] (fun d => be 4 (adler32 d)) ++ deflateBytes lv wlog (dict.getD []) input ++
    be 4 (adler32 input)

/-- A gzip member (R159). -/
def gzipBytes (level : Nat) (lv : Level) (wlog : Nat) (input : Bytes) : Bytes :=
  let xfl := if level = 1 then 4 else if 9 ≤ level then 2 else 0
  [0x1F, 0x8B, 8, 0, 0, 0, 0, 0, BitVec.ofNat 8 xfl, 255] ++ deflateBytes lv wlog [] input ++
    le 4 (crc32 input) ++ le 4 (input.length % 2 ^ 32)

end Sys2Proof.Machine
end

