-- ==== Sys2Proof/Machine/ZstdEncode.lean ====
section
/-! DEFINITION. Encoding of Zstandard frames (R156 to R162). What RFC 8878 leaves to an encoder and R160 does not fix is
taken from Config.zstdChoice. -/

namespace Sys2Proof.Machine

open Sys2Proof

/-! ### Backward streams and FSE coding -/

/-- Bits of a field, most significant first. -/
def fieldBits (f : BitField) : List Bool := ((List.range f.2).map fun i => bit f.1 i).reverse

/-- Bytes of a list of bits, most significant first; the length is a multiple of 8. -/
def bitsBytes : Nat → List Bool → Bytes
  | 0, _ => []
  | _, [] => []
  | f + 1, l => BitVec.ofNat 8 ((l.take 8).foldl (fun a b => 2 * a + b2n b) 0) :: bitsBytes f (l.drop 8)

/-- A backward stream from fields in the order they are read. -/
def backStream (fs : List BitField) : Bytes :=
  let l := fs.flatMap fieldBits
  let l := true :: l
  let l := List.replicate ((8 - l.length % 8) % 8) false ++ l
  (bitsBytes (l.length / 8) l).reverse

/-- Fields of an FSE table description, from the probabilities (R160: never −1). -/
def fseDescFields : Nat → Nat → List Nat → List BitField
  | 0, _, _ => []
  | _, _, [] => []
  | f + 1, left, p :: ps =>
    if left = 0 then []
    else
      let nb := highBit (left + 1) + 1
      let thr := 2 ^ nb - 1 - (left + 1)
      let v := p + 1
      let field := if v < thr then (v, nb - 1) else if v < 2 ^ (nb - 1) then (v, nb) else (v + thr, nb)
      if p = 0 then
        let z := (ps.takeWhile (· == 0)).length
        field :: (List.replicate (z / 3) (3, 2) ++ [(z % 3, 2)] ++ fseDescFields f left (ps.drop z))
      else field :: fseDescFields f (left - p) ps

/-- An FSE table description. -/
def fseDesc (log : Nat) (probs : List Nat) : Bytes :=
  packBits ((log - 5, 4) :: fseDescFields (probs.length + 1) (2 ^ log) probs) 0 0 []

/-- Normalised counts (R160). -/
def fseNormalise (log : Nat) (counts : List Nat) : List Nat :=
  let total := counts.sum
  let raw := counts.map fun c => if c = 0 then 0 else max 1 (c * 2 ^ log / total)
  let top := counts.foldl max 0
  let i := counts.findIdx (· == top)
  let sum := raw.sum
  (raw.zipIdx.map fun p => if p.2 = i then p.1 + 2 ^ log - sum else p.1).take (usedLen counts)

/-- The state of symbol s whose next state can be n, and the field that leads there. -/
def fseBack (t : Fse) (s n : Nat) : Nat × BitField :=
  match t.cells.toList.zipIdx.find? fun c => c.1.sym == s && c.1.base ≤ n && n < c.1.base + 2 ^ c.1.nb with
  | some c => (c.2, (n - c.1.base, c.1.nb))
  | none => (0, (0, 0))

/-- A last state of symbol s: pick numbers the states of s in table order. -/
def fseLast (t : Fse) (s pick : Nat) : Nat :=
  let l := t.cells.toList.zipIdx.filter fun c => c.1.sym == s
  ((l[pick % l.length]?).map (·.2)).getD 0

/-- Symbols coded: first state, and the update field after each symbol but the last. -/
def fseCode (t : Fse) (pick : Nat) (syms : List Nat) : Nat × List BitField :=
  match syms.reverse with
  | [] => (0, [])
  | l :: r => r.foldl (fun (a : Nat × List BitField) s =>
      let (x, f) := fseBack t s a.1
      (x, f :: a.2)) (fseLast t l pick, [])

/-! ### Literals (R160) -/

/-- Huffman weights as an FSE stream of two interleaved states; none where it cannot be made. -/
def weightsFse (ws : List Nat) : Option Bytes :=
  let counts := histogram 13 ws
  if (counts.filter (0 < ·)).length < 2 ∨ ws.length < 3 then none
  else
    let probs := fseNormalise 6 counts
    let t := fseBuild 6 (probs.map Int.ofNat)
    let ev := (ws.zipIdx.filter fun p => p.2 % 2 = 0).map (·.1)
    let od := (ws.zipIdx.filter fun p => p.2 % 2 = 1).map (·.1)
    let (x1, f1) := fseCode t 0 ev
    let (x2, f2) := fseCode t 0 od
    let ups := (List.range (ws.length - 2)).map fun i =>
      (if i % 2 = 0 then f1 else f2).getD (i / 2) (0, 0)
    let b := fseDesc 6 probs ++ backStream ((x1, 6) :: (x2, 6) :: ups)
    if b.length < 128 then some b else none

/-- A Huffman tree description of weights (the last weight left out); none where neither form holds it. -/
def treeDesc (ws : List Nat) : Option Bytes :=
  let n := ws.length
  let direct := if n ≤ 128 then some (BitVec.ofNat 8 (127 + n) ::
      (chunks 2 (n + 1) ws).map fun p => BitVec.ofNat 8 (p.getD 0 0 * 16 + p.getD 1 0)) else none
  let fse := (weightsFse ws).map fun b => BitVec.ofNat 8 b.length :: b
  match direct, fse with
  | none, f => f
  | d, none => d
  | some d, some f => if Config.zstdChoice 2 n % 2 = 0 then (if f.length < d.length then some f else some d) else some d

/-- Literals section header of raw and RLE literals. -/
def litHeader (kind n : Nat) : Bytes :=
  if n < 32 then [BitVec.ofNat 8 (kind + 8 * n)] else if n < 4096 then le 2 (kind + 4 + 16 * n) else le 3 (kind + 12 + 16 * n)

/-- Huffman-coded literals; none where the tree has no description. -/
def litHuffman (lits : Bytes) : Option Bytes := do
  let lens := packageMerge 11 (histogram 256 (lits.map BitVec.toNat))
  let maxL := lens.foldl max 0
  let ws := lens.map fun l => if l = 0 then 0 else maxL + 1 - l
  let tree ← treeDesc (ws.take (usedLen ws - 1))
  let codes := (List.range maxL).foldl (fun (s : Array BitField × Nat) k =>
      let l := maxL - k
      let syms := (lens.zipIdx.filter fun p => p.1 == l).map (·.2)
      (syms.zipIdx.foldl (fun (a : Array BitField) p => a.set! p.1 (s.2 + p.2, l)) s.1, (s.2 + syms.length) / 2))
      (Array.replicate 256 (0, 0), 0) |>.1
  let enc (b : Bytes) : Bytes := backStream (b.map fun x => codes.getD x.toNat (0, 0))
  let n := lits.length
  let four := 1023 < n ∨ (6 ≤ n ∧ Config.zstdChoice 1 n % 2 = 1)
  let body := tree ++ (if four then
      let q := (n + 3) / 4
      let s1 := enc (lits.take q)
      let s2 := enc (cut lits q q)
      let s3 := enc (cut lits (2 * q) q)
      le 2 s1.length ++ le 2 s2.length ++ le 2 s3.length ++ s1 ++ s2 ++ s3 ++ enc (lits.drop (3 * q))
    else enc lits)
  let c := body.length
  let hdr := if ¬four then le 3 (2 + n * 16 + c * 2 ^ 14)
    else if n ≤ 1023 ∧ c ≤ 1023 then le 3 (2 + 4 + n * 16 + c * 2 ^ 14)
    else if n ≤ 16383 ∧ c ≤ 16383 then le 4 (2 + 8 + n * 16 + c * 2 ^ 18)
    else le 5 (2 + 12 + n * 16 + c * 2 ^ 22)
  if ¬four ∧ 1023 < c then none else some (hdr ++ body)

/-- The literals section (R160). -/
def litSection (lits : Bytes) : Bytes :=
  let raw := litHeader 0 lits.length ++ lits
  if 2 ≤ lits.length ∧ lits.all (· == lits.getD 0 0) then litHeader 1 lits.length ++ [lits.getD 0 0]
  else if lits.length < 2 then raw
  else match litHuffman lits with
    | some h => if h.length < raw.length then h else raw
    | none => raw

/-! ### Sequences (R160) -/

/-- A sequence: literal length, match length, offset value. -/
structure Sq where
  ll : Nat
  ml : Nat
  ov : Nat
  deriving Repr, DecidableEq, Inhabited

/-- Offset value of a distance: a current repeat offset where it equals one (R160, RFC 8878 3.1.1.5). -/
def offsetValue (rep : Nat × Nat × Nat) (ll dist : Nat) : Nat :=
  match [1, 2, 3].find? fun v => (zRep rep v ll).any fun r => r.1 == dist with
  | some v => v
  | none => dist + 3

/-- Sequences of a block's tokens: (sequences, literals, repeat offsets after). -/
def sequencesOf : List Tok → Nat → Nat × Nat × Nat → List Sq → List Byte → List Sq × Bytes × (Nat × Nat × Nat)
  | [], _, rep, sq, lits => (sq.reverse, lits.reverse, rep)
  | .lit b :: r, ll, rep, sq, lits => sequencesOf r (ll + 1) rep sq (b :: lits)
  | .mtch len dist :: r, ll, rep, sq, lits =>
    let v := offsetValue rep ll dist
    sequencesOf r 0 ((zRep rep v ll).elim rep (·.2)) ({ ll := ll, ml := len, ov := v } :: sq) lits

/-- A coded table: mode, description, table. -/
structure TableForm where
  mode : Nat
  desc : Bytes
  table : Fse
  deriving Inhabited

/-- Bits a table form takes for a list of codes; none where a code has no place in it. -/
def formCost (t : TableForm) (syms : List Nat) (kind : Nat) : Option Nat :=
  if syms.all fun s => t.table.cells.any fun c => c.sym == s then
    some (8 * t.desc.length + t.table.log + bitLen (fseCode t.table (Config.zstdChoice 0 kind) syms).2)
  else none

/-- Predefined, RLE or FSE: the shortest, the first in that order between equals. -/
def chooseForm (dflt : Fse) (log kind : Nat) (syms : List Nat) : TableForm :=
  let n := (syms.foldl max 0) + 1
  let probs := fseNormalise log (histogram n syms)
  let pre : TableForm := { mode := 0, desc := [], table := dflt }
  let rle : TableForm := { mode := 1, desc := [BitVec.ofNat 8 (syms.headD 0)], table := fseRle (syms.headD 0) }
  let fse : TableForm := { mode := 2, desc := fseDesc log probs, table := fseBuild log (probs.map Int.ofNat) }
  let forms := [pre, rle, fse].filterMap fun t => (formCost t syms kind).map fun c => (c, t)
  match forms with
  | [] => fse
  | x :: r => (r.foldl (fun a b => if b.1 < a.1 then b else a) x).2

/-- The sequences section. -/
def seqSection (sq : List Sq) : Bytes :=
  let n := sq.length
  if n = 0 then [0]
  else
    let hdr : Bytes := if n < 128 then le 1 n else if n < 0x7F00 then [BitVec.ofNat 8 (n / 256 + 128), BitVec.ofNat 8 n]
      else 255 :: le 2 (n - 0x7F00)
    let lc := sq.map fun s => codeOf llCodes s.ll
    let mc := sq.map fun s => codeOf mlCodes s.ml
    let oc := sq.map fun s => highBit s.ov
    let fl := chooseForm (fseBuild 6 llDefault) 9 0 (lc.map (·.1))
    let fo := chooseForm (fseBuild 5 ofDefault) 8 1 oc
    let fm := chooseForm (fseBuild 6 mlDefault) 9 2 (mc.map (·.1))
    let (xl, ul) := fseCode fl.table (Config.zstdChoice 0 0) (lc.map (·.1))
    let (xo, uo) := fseCode fo.table (Config.zstdChoice 0 1) oc
    let (xm, um) := fseCode fm.table (Config.zstdChoice 0 2) (mc.map (·.1))
    let la := lc.toArray
    let ma := mc.toArray
    let oa := oc.toArray
    let ula := ul.toArray
    let uoa := uo.toArray
    let uma := um.toArray
    let body := sq.zipIdx.flatMap fun p =>
      let (_, lb, lx) := la.getD p.2 (0, 0, 0)
      let (_, mb, mx) := ma.getD p.2 (0, 0, 0)
      let o := oa.getD p.2 0
      [(p.1.ov - 2 ^ o, o), (p.1.ml - mb, mx), (p.1.ll - lb, lx),
       ula.getD p.2 (0, 0), uma.getD p.2 (0, 0), uoa.getD p.2 (0, 0)]
    hdr ++ [BitVec.ofNat 8 (fl.mode * 64 + fo.mode * 16 + fm.mode * 4)] ++ fl.desc ++ fo.desc ++ fm.desc ++
      backStream ((xl, fl.table.log) :: (xo, fo.table.log) :: (xm, fm.table.log) :: body)

/-! ### Blocks and frame -/

/-- Tokens of the first n input bytes, and the rest. -/
def splitToks : Nat → List Tok → List Tok → List Tok × List Tok
  | _, [], acc => (acc.reverse, [])
  | n, t :: r, acc => if n < tokLen t then (acc.reverse, t :: r) else splitToks (n - tokLen t) r (t :: acc)

/-- Blocks to the end of the input; a block whose compressed form is not shorter is raw (R160). -/
def zstdBlocks : Nat → Nat × Nat × Nat → List Tok → Bytes → Bytes
  | 0, _, _, _ => []
  | f + 1, rep, toks, data =>
    let n := min 131072 data.length
    let last := data.length ≤ 131072
    let (t, more) := splitToks n toks []
    let (sq, lits, rep') := sequencesOf t 0 rep [] []
    let body := litSection lits ++ seqSection sq
    let (blk, rep) := if body.length < n then (le 3 (b2n last + 4 + 8 * body.length) ++ body, rep')
      else (le 3 (b2n last + 8 * n) ++ data.take n, rep)
    if last then blk else blk ++ zstdBlocks f rep more (data.drop n)

/-- Smallest exponent with 2^e at least v, from e upward. -/
def ceilLog2 (v : Nat) : Nat := if v ≤ 1 then 0 else highBit (v - 1) + 1

/-- A Zstandard frame (R159, R160). -/
def zstdBytes (lv : Level) (wlog : Nat) (dict : Option Bytes) (input : Bytes) : Bytes :=
  let w := if wlog = 0 then lv.zlog else wlog
  let z := dict.bind fun d => if isZDict d then (zDictRead d).toOption else none
  let id := z.elim 0 (·.id)
  let hist := zDictHistory dict
  let idLen := if id = 0 then 0 else if id < 256 then 1 else if id < 65536 then 2 else 4
  let idFlag := if id = 0 then 0 else if id < 256 then 1 else if id < 65536 then 2 else 3
  let toks := tokens lv (2 ^ w) 65536 131072 hist input
  let rep := z.elim (1, 4, 8) (·.st.rep)
  [0x28, 0xB5, 0x2F, 0xFD, BitVec.ofNat 8 (0xC4 + idFlag), BitVec.ofNat 8 ((w - 10) * 8)] ++ le idLen id ++
    le 8 input.length ++ zstdBlocks (input.length + 1) rep toks input ++ le 4 (xxh64 input % 2 ^ 32)

/-! ### The encodes as stages (R156, R163) -/

/-- An encode by opcode 0x11 to 0x14 at a level 1 to 12. -/
def encodeBy (op level wlog : Nat) (dict : Option Bytes) (input : Bytes) : Res Bytes :=
  match levels[level - 1]? with
  | none => err St.DEFL_LEVEL
  | some lv =>
    if level = 0 then err St.DEFL_LEVEL
    else if op < 0x13 ∧ 32768 < (dict.getD []).length then err St.DEFL_DICTIONARY
    else .ok (match op with
      | 0x11 => deflateBytes lv wlog (dict.getD []) input
      | 0x12 => zlibBytes level lv wlog dict input
      | 0x13 => gzipBytes level lv wlog input
      | _ => zstdBytes lv wlog dict input)

end Sys2Proof.Machine
end

