-- ==== Sys2Proof/Machine/Jpeg.lean ====
section
/-! DEFINITION. JPEG decode with a region (R173 to R179, R183 to R187): pure functions of the input bytes. -/

namespace Sys2Proof.Machine

open Sys2Proof

/-! ### Regions and image records -/

/-- A rectangle in source pixels. -/
structure Rect where
  x : Nat
  y : Nat
  w : Nat
  h : Nat
  deriving Repr, DecidableEq, Inhabited

/-- A region operand of 16 bytes on an image of w × h (R183): none when empty after clipping or a relative field is
above 65,536. -/
def regionOf (op : Bytes) (relative : Bool) (w h : Nat) : Option Rect :=
  let f i := fld op (4 * i) 4
  if relative ∧ (65536 < f 0 ∨ 65536 < f 1 ∨ 65536 < f 2 ∨ 65536 < f 3) then none
  else
    let (x, y, rw, rh) := if relative then
        (f 0 * w / 65536, f 1 * h / 65536, max 1 (f 2 * w / 65536), max 1 (f 3 * h / 65536))
      else (f 0, f 1, f 2, f 3)
    let x2 := min w (x + rw)
    let y2 := min h (y + rh)
    if x < x2 ∧ y < y2 then some { x := x, y := y, w := x2 - x, h := y2 - y } else none

/-- How a decode finds its region once the image's size is known; failures carry the caller's status. -/
abbrev RegionFn := Nat → Nat → Res Rect

/-- Image controls (Table 6.2). -/
structure ImgCtl where
  channels : Nat
  depth8 : Bool
  triangle : Bool
  relative : Bool
  deriving Repr, DecidableEq, Inhabited

/-- Image controls from PARAM1. -/
def imgCtlOf (v : Nat) : ImgCtl :=
  { channels := v % 4, depth8 := bit v 2, triangle := bit v 3, relative := bit v 4 }

/-- An image record before its header is laid out. -/
structure Img where
  channels : Nat
  depth : Nat
  w : Nat
  h : Nat
  srcW : Nat
  srcH : Nat
  x : Nat
  y : Nat
  frame : Nat := 0
  layout : Nat
  source : Nat
  flags : Nat
  /-- samples, row by row, channels interleaved -/
  samples : List Nat
  deriving Repr, DecidableEq, Inhabited

/-- Bytes of samples of a depth. -/
def sampleBytes (depth : Nat) (l : List Nat) : Bytes :=
  if depth = 16 then l.flatMap (le 2) else l.map (BitVec.ofNat 8)

/-- An image record (Table 6.3). -/
def imgBytes (i : Img) : Bytes :=
  layout 64 [(0, ascii "IMGD"), (4, le 2 1), (6, le 1 i.channels), (7, le 1 i.depth), (8, le 4 i.w), (12, le 4 i.h),
    (16, le 4 i.srcW), (20, le 4 i.srcH), (24, le 4 i.x), (28, le 4 i.y), (32, le 4 i.frame), (36, le 1 i.layout),
    (37, le 1 i.source), (38, le 2 i.flags), (40, le 8 (i.w * i.h * i.channels * i.depth / 8))]
  ++ sampleBytes i.depth i.samples

/-- Grey of an RGB pixel (R172). -/
def greyOf (r g b : Nat) : Nat := (19595 * r + 38470 * g + 7471 * b + 32768) / 65536

/-- One pixel brought to OUT_CHANNELS (R172): 0 native. -/
def pixelTo (out maxv : Nat) (p : List Nat) : List Nat :=
  let (rgb, a) := match p with
    | [y] => ([y, y, y], none)
    | [y, a] => ([y, y, y], some a)
    | [r, g, b] => ([r, g, b], none)
    | [r, g, b, a] => ([r, g, b], some a)
    | _ => ([0, 0, 0], none)
  match out with
  | 0 => p
  | 1 => match p with
    | [y] => [y]
    | [y, _] => [y]
    | _ => [greyOf (rgb.getD 0 0) (rgb.getD 1 0) (rgb.getD 2 0)]
  | 2 => rgb
  | _ => rgb ++ [a.getD maxv]

/-- LAYOUT of a channel count. -/
def layoutOf (c : Nat) : Nat := c - 1

/-! ### Bits, most significant first, of one stretch of entropy data -/

/-- Entropy bits: bytes left with stuffing already removed, and the bits in hand. -/
structure BitsM where
  rest : Bytes
  acc : Nat := 0
  n : Nat := 0
  deriving Repr, DecidableEq, Inhabited

/-- One bit; ends is the failure when the stretch ends. -/
def BitsM.one (ends : Status) (r : BitsM) : Res (Nat × BitsM) :=
  if r.n = 0 then
    match r.rest with
    | [] => err ends
    | b :: bs => .ok (b.toNat / 128, { rest := bs, acc := b.toNat % 128, n := 7 })
  else .ok (r.acc / 2 ^ (r.n - 1), { r with acc := r.acc % 2 ^ (r.n - 1), n := r.n - 1 })

/-- k bits. -/
def BitsM.take (ends : Status) (r : BitsM) : Nat → Res (Nat × BitsM)
  | 0 => .ok (0, r)
  | k + 1 => do
    let (b, r) ← r.one ends
    let (v, r) ← r.take ends k
    return (b * 2 ^ k + v, r)

/-- EXTEND of T.81: a value of s bits with its sign. -/
def extend (v s : Nat) : Int := if s = 0 then 0 else if v < 2 ^ (s - 1) then (v : Int) - 2 ^ s + 1 else v

/-- A Huffman symbol; a code not in the table is JPEG_HUFFMAN. -/
def jpegSym (ends : Status) (syms : Array Nat) : List Nat → Nat → Nat → Nat → BitsM → Res (Nat × BitsM)
  | [], _, _, _, _ => err St.JPEG_HUFFMAN
  | c :: cs, code, first, index, r => do
    let (b, r) ← r.one ends
    let code := code + b
    if code < first + c then
      match syms[index + (code - first)]? with
      | some s => return (s, r)
      | none => err St.JPEG_HUFFMAN
    else jpegSym ends syms cs (2 * code) (2 * (first + c)) (index + c) r

/-- The next symbol of a table. -/
def Huff.jpeg (h : Huff) (ends : Status) (r : BitsM) : Res (Nat × BitsM) := jpegSym ends h.syms h.counts 0 0 0 r

/-! ### The decoder's state -/

/-- A component of the frame. -/
structure JComp where
  id : Nat
  h : Nat
  v : Nat
  tq : Nat
  /-- size in samples -/
  cw : Nat
  ch : Nat
  /-- blocks in a row and rows of blocks, whole MCUs -/
  bw : Nat
  bh : Nat
  /-- quantisation table taken at the component's first scan -/
  qt : Option (List Nat) := none
  /-- coefficients of each block in zigzag order, empty until decoded -/
  blocks : Array (Array Int)
  /-- Al at which each coefficient was last coded, none before its first scan -/
  al : List (Option Nat) := List.replicate 64 none
  covered : Bool := false
  deriving Repr, Inhabited

/-- The frame. -/
structure JFrame where
  progressive : Bool
  w : Nat
  h : Nat
  comps : List JComp
  hmax : Nat
  vmax : Nat
  region : Rect
  /-- needed area (R185) -/
  area : Rect
  deriving Repr, Inhabited

/-- Tables and frame. -/
structure JState where
  qt : List (Option (List Nat)) := [none, none, none, none]
  dc : List (Option Huff) := [none, none, none, none]
  ac : List (Option Huff) := [none, none, none, none]
  restart : Nat := 0
  rgb : Bool := false
  frame : Option JFrame := none
  deriving Repr, Inhabited

/-- Zigzag order: natural index of each coefficient. -/
def zigzag : List Nat :=
  [0, 1, 8, 16, 9, 2, 3, 10, 17, 24, 32, 25, 18, 11, 4, 5, 12, 19, 26, 33, 40, 48, 41, 34, 27, 20, 13, 6, 7, 14, 21, 28] ++
  [35, 42, 49, 56, 57, 50, 43, 36, 29, 22, 15, 23, 30, 37, 44, 51, 58, 59, 52, 45, 38, 31, 39, 46, 53, 60, 61, 54, 47,
   55, 62, 63]

/-- DQT segments. -/
def readDqt : Nat → Bytes → JState → Res JState
  | 0, _, s => .ok s
  | _, [], s => .ok s
  | f + 1, pt :: b, s =>
    let p := pt.toNat / 16
    let t := pt.toNat % 16
    let n := 64 * (p + 1)
    if 1 < p ∨ 3 < t ∨ b.length < n then err St.JPEG_MARKER
    else
      let l := (List.range 64).map fun i => if p = 1 then beNat (cut b (2 * i) 2) else byteAt b i
      readDqt f (b.drop n) { s with qt := s.qt.set t (some l) }

/-- DHT segments. -/
def readDht : Nat → Bytes → JState → Res JState
  | 0, _, s => .ok s
  | _, [], s => .ok s
  | f + 1, ct :: b, s =>
    let c := ct.toNat / 16
    let t := ct.toNat % 16
    let counts := (b.take 16).map BitVec.toNat
    let n := counts.sum
    if 1 < c ∨ 3 < t ∨ b.length < 16 + n ∨ 256 < n then err St.JPEG_MARKER
    else if (huffLeft counts 1).isNone then err St.JPEG_HUFFMAN
    else
      let h : Huff := { counts := counts, syms := ((cut b 16 n).map BitVec.toNat).toArray }
      readDht f (b.drop (16 + n)) (if c = 0 then { s with dc := s.dc.set t (some h) } else { s with ac := s.ac.set t (some h) })

/-- ⌈a / b⌉. -/
def ceilDiv (a b : Nat) : Nat := (a + b - 1) / b

/-- Components of a frame header. -/
def readComps (w h hmax vmax : Nat) (b : Bytes) (n : Nat) : List JComp :=
  (List.range n).map fun i =>
    let hv := byteAt b (3 * i + 1)
    let (ch, cv) := if n = 1 then (1, 1) else (hv / 16, hv % 16)
    let bw := ceilDiv w (8 * hmax) * ch
    let bh := ceilDiv h (8 * vmax) * cv
    { id := byteAt b (3 * i), h := ch, v := cv, tq := byteAt b (3 * i + 2), cw := ceilDiv (w * ch) hmax,
      ch := ceilDiv (h * cv) vmax, bw := bw, bh := bh, blocks := Array.replicate (bw * bh) #[] }

/-- A rectangle widened and clipped to the image. -/
def widen (r : Rect) (dx dy w h : Nat) : Rect :=
  let x := r.x - dx
  let y := r.y - dy
  { x := x, y := y, w := min w (r.x + r.w + dx) - x, h := min h (r.y + r.h + dy) - y }

/-- SOFn (R173): frame header with the region and its needed area (R183, R185). -/
def readSof (sof : Nat) (region : RegionFn) (b : Bytes) (s : JState) : Res JState := do
  if s.frame.isSome then err St.JPEG_MARKER
  else if b.length < 6 then err St.JPEG_MARKER
  else
    let h := beNat (cut b 1 2)
    let w := beNat (cut b 3 2)
    let n := byteAt b 5
    if 2 < sof ∨ byteAt b 0 ≠ 8 ∨ h = 0 then err St.JPEG_UNSUPPORTED
    else if w = 0 ∨ 32768 < w ∨ 32768 < h then err St.JPEG_DIM_LIMIT
    else if n ≠ 1 ∧ n ≠ 3 then err St.JPEG_UNSUPPORTED
    else if b.length ≠ 6 + 3 * n then err St.JPEG_MARKER
    else
      let cb := b.drop 6
      let hv := byteAt cb 1
      let lumaOk := (hv / 16 = 1 ∨ hv / 16 = 2) ∧ (hv % 16 = 1 ∨ hv % 16 = 2)
      if n = 3 ∧ (¬lumaOk ∨ byteAt cb 4 ≠ 0x11 ∨ byteAt cb 7 ≠ 0x11) then err St.JPEG_UNSUPPORTED
      else
        let (hmax, vmax) := if n = 1 then (1, 1) else (hv / 16, hv % 16)
        let r ← region w h
        let area := widen r hmax vmax w h
        let comps := readComps w h hmax vmax cb n
        let mcus := ((area.x + area.w - 1) / (8 * hmax) - area.x / (8 * hmax) + 1) *
          ((area.y + area.h - 1) / (8 * vmax) - area.y / (8 * vmax) + 1)
        if sof = 2 ∧ 524288 < mcus * (comps.map fun c => c.h * c.v).sum then err St.JPEG_PROG_LIMIT
        else
          let fr : JFrame := { progressive := sof == 2, w, h, comps, hmax, vmax, region := r, area }
          return { s with frame := some fr }

/-! ### Blocks (T.81 F.2 and G.2) -/

/-- What the blocks of one restart interval share: bits, DC predictors by scan component, EOB run. -/
structure JRun where
  bits : BitsM
  pred : List Int
  eob : Nat := 0
  deriving Repr, Inhabited

/-- Parameters of a scan. -/
structure JScan where
  comps : List (Nat × Nat × Nat)
  ss : Nat
  se : Nat
  ah : Nat
  al : Nat
  deriving Repr, DecidableEq, Inhabited

/-- The block as it is before a scan. -/
def blockOr (b : Array Int) : Array Int := if b.isEmpty then Array.replicate 64 0 else b

/-- AC coefficients of a sequential block from index k. -/
def acBaseline (ends : Status) (t : Huff) : Nat → Nat → BitsM → Array Int → Res (BitsM × Array Int)
  | 0, _, r, b => .ok (r, b)
  | f + 1, k, r, b => do
    if 63 < k then return (r, b)
    let (rs, r) ← t.jpeg ends r
    let run := rs / 16
    let s := rs % 16
    if s = 0 then
      if run = 15 then (if 64 < k + 16 then err St.JPEG_COEFF else acBaseline ends t f (k + 16) r b) else return (r, b)
    else if 10 < s ∨ 63 < k + run then err St.JPEG_COEFF
    else
      let (v, r) ← r.take ends s
      acBaseline ends t f (k + run + 1) r (b.set! (k + run) (extend v s))

/-- DC difference. -/
def dcDiff (ends : Status) (t : Huff) (r : BitsM) : Res (Int × BitsM) := do
  let (s, r) ← t.jpeg ends r
  if 11 < s then err St.JPEG_COEFF
  else
    let (v, r) ← r.take ends s
    return (extend v s, r)

/-- First scan of an AC band (G.1.2.2). -/
def acFirst (ends : Status) (t : Huff) (se al : Nat) : Nat → Nat → BitsM → Array Int → Res (BitsM × Nat × Array Int)
  | 0, _, r, b => .ok (r, 0, b)
  | f + 1, k, r, b => do
    if se < k then return (r, 0, b)
    let (rs, r) ← t.jpeg ends r
    let run := rs / 16
    let s := rs % 16
    if s = 0 then
      if run = 15 then (if se + 1 < k + 16 then err St.JPEG_COEFF else acFirst ends t se al f (k + 16) r b)
      else
        let (x, r) ← r.take ends run
        return (r, 2 ^ run + x - 1, b)
    else if 10 < s ∨ se < k + run then err St.JPEG_COEFF
    else
      let (v, r) ← r.take ends s
      acFirst ends t se al f (k + run + 1) r (b.set! (k + run) (extend v s * 2 ^ al))

/-- One correction bit for a coefficient already nonzero (G.1.2.3). -/
def refineBit (ends : Status) (al k : Nat) (r : BitsM) (b : Array Int) : Res (BitsM × Array Int) := do
  let (x, r) ← r.one ends
  let v := b.getD k 0
  let p : Int := 2 ^ al
  if x = 1 ∧ v.natAbs / 2 ^ al % 2 = 0 then return (r, b.set! k (if 0 < v then v + p else v - p)) else return (r, b)

/-- Corrections over the band from k, to its end. -/
def refineRest (ends : Status) (se al : Nat) : Nat → Nat → BitsM → Array Int → Res (BitsM × Array Int)
  | 0, _, r, b => .ok (r, b)
  | f + 1, k, r, b => do
    if se < k then return (r, b)
    let (r, b) ← if b.getD k 0 ≠ 0 then refineBit ends al k r b else .ok (r, b)
    refineRest ends se al f (k + 1) r b

/-- Skips run zeros from k, correcting nonzero coefficients on the way: the index reached. -/
def refineRun (ends : Status) (se al : Nat) : Nat → Nat → Nat → BitsM → Array Int → Res (Nat × BitsM × Array Int)
  | 0, k, _, r, b => .ok (k, r, b)
  | f + 1, k, run, r, b => do
    if se < k then return (k, r, b)
    if b.getD k 0 ≠ 0 then
      let (r, b) ← refineBit ends al k r b
      refineRun ends se al f (k + 1) run r b
    else if run = 0 then return (k, r, b)
    else refineRun ends se al f (k + 1) (run - 1) r b

/-- Refinement scan of an AC band (G.1.2.3). -/
def acRefine (ends : Status) (t : Huff) (se al : Nat) : Nat → Nat → BitsM → Array Int → Res (BitsM × Nat × Array Int)
  | 0, _, r, b => .ok (r, 0, b)
  | f + 1, k, r, b => do
    if se < k then return (r, 0, b)
    let (rs, r) ← t.jpeg ends r
    let run := rs / 16
    let s := rs % 16
    if 1 < s then err St.JPEG_COEFF
    else if s = 0 ∧ run < 15 then
      let (x, r) ← r.take ends run
      let (r, b) ← refineRest ends se al 64 k r b
      return (r, 2 ^ run + x - 1, b)
    else
      let (sb, r) ← if s = 1 then r.one ends else .ok (0, r)
      let (k, r, b) ← refineRun ends se al 64 k run r b
      if se < k then (if s = 1 then err St.JPEG_COEFF else return (r, 0, b))
      else
        let b := if s = 1 then b.set! k (if sb = 1 then 2 ^ al else -(2 ^ al)) else b
        acRefine ends t se al f (k + 1) r b

/-- One block of a scan: scan component i with its tables. -/
def decodeBlock (s : JState) (prog : Bool) (sc : JScan) (ends : Status) (i : Nat) (run : JRun) (b : Array Int) :
    Res (JRun × Array Int) := do
  let (_, td, ta) := sc.comps.getD i (0, 0, 0)
  let dct := ((s.dc.getD td none).getD default)
  let act := ((s.ac.getD ta none).getD default)
  let b := blockOr b
  if ¬prog then
    let (d, r) ← dcDiff ends dct run.bits
    let p := run.pred.getD i 0 + d
    let (r, b) ← acBaseline ends act 64 1 r (b.set! 0 p)
    return ({ run with bits := r, pred := run.pred.set i p }, b)
  else if sc.ss = 0 then
    if sc.ah = 0 then
      let (d, r) ← dcDiff ends dct run.bits
      let p := run.pred.getD i 0 + d
      return ({ run with bits := r, pred := run.pred.set i p }, b.set! 0 (p * 2 ^ sc.al))
    else
      let (x, r) ← run.bits.one ends
      return ({ run with bits := r }, if x = 1 then b.set! 0 (b.getD 0 0 + 2 ^ sc.al) else b)
  else if sc.ah = 0 then
    if 0 < run.eob then return ({ run with eob := run.eob - 1 }, b)
    else
      let (r, e, b) ← acFirst ends act sc.se sc.al 64 sc.ss run.bits b
      return ({ run with bits := r, eob := e }, b)
  else if 0 < run.eob then
    let (r, b) ← refineRest ends sc.se sc.al 64 sc.ss run.bits b
    return ({ run with bits := r, eob := run.eob - 1 }, b)
  else
    let (r, e, b) ← acRefine ends act sc.se sc.al 64 sc.ss run.bits b
    return ({ run with bits := r, eob := e }, b)

/-! ### MCUs, restart intervals and scans -/

/-- Blocks of MCU m of a scan: (scan component, frame component, block index). -/
def mcuBlocks (fr : JFrame) (sc : JScan) (m : Nat) : List (Nat × Nat × Nat) :=
  match sc.comps with
  | [(c, _, _)] =>
    let k := fr.comps.getD c default
    let w := ceilDiv k.cw 8
    [(0, c, m / w * k.bw + m % w)]
  | cs =>
    let mw := ceilDiv fr.w (8 * fr.hmax)
    let mx := m % mw
    let my := m / mw
    cs.zipIdx.flatMap fun p =>
      let k := fr.comps.getD p.1.1 default
      (List.range k.v).flatMap fun v => (List.range k.h).map fun h =>
        (p.2, p.1.1, (my * k.v + v) * k.bw + mx * k.h + h)

/-- Number of MCUs of a scan. -/
def mcuCount (fr : JFrame) (sc : JScan) : Nat :=
  match sc.comps with
  | [(c, _, _)] => let k := fr.comps.getD c default; ceilDiv k.cw 8 * ceilDiv k.ch 8
  | _ => ceilDiv fr.w (8 * fr.hmax) * ceilDiv fr.h (8 * fr.vmax)

/-- MCU m of a scan intersects the needed area (R185). -/
def mcuNeeded (fr : JFrame) (sc : JScan) (m : Nat) : Bool :=
  let (mw, pw, ph) := match sc.comps with
    | [(c, _, _)] => let k := fr.comps.getD c default; (ceilDiv k.cw 8, 8 * fr.hmax / k.h, 8 * fr.vmax / k.v)
    | _ => (ceilDiv fr.w (8 * fr.hmax), 8 * fr.hmax, 8 * fr.vmax)
  let x := m % mw * pw
  let y := m / mw * ph
  let a := fr.area
  decide (x < a.x + a.w ∧ a.x < x + pw ∧ y < a.y + a.h ∧ a.y < y + ph)

/-- The blocks of one MCU decoded in order. -/
def decodeBlocks (s : JState) (sc : JScan) (ends : Status) : List (Nat × Nat × Nat) → JFrame → JRun → Res (JFrame × JRun)
  | [], fr, run => .ok (fr, run)
  | (i, c, bi) :: r, fr, run => do
    let k := fr.comps.getD c default
    let (run, b) ← decodeBlock s fr.progressive sc ends i run (k.blocks.getD bi #[])
    let fr := { fr with comps := fr.comps.modify c fun k => { k with blocks := k.blocks.set! bi b } }
    decodeBlocks s sc ends r fr run

/-- n MCUs from m on. -/
def decodeMcus (s : JState) (sc : JScan) (ends : Status) : Nat → Nat → JFrame → JRun → Res (JFrame × JRun)
  | 0, _, fr, run => .ok (fr, run)
  | n + 1, m, fr, run => do
    let (fr, run) ← decodeBlocks s sc ends (mcuBlocks fr sc m) fr run
    decodeMcus s sc ends n (m + 1) fr run

/-- Entropy data up to the next marker: the bytes with stuffing removed, and what follows (from the marker code on). -/
def entropyRun : Nat → Bytes → List Byte → Bytes × Option (Nat × Bytes)
  | 0, _, acc => (acc.reverse, none)
  | _, [], acc => (acc.reverse, none)
  | _, [x], acc => ((if x = 0xFF then acc else x :: acc).reverse, none)
  | f + 1, x :: y :: r, acc =>
    if x ≠ 0xFF then entropyRun f (y :: r) (x :: acc)
    else if y = 0 then entropyRun f r (0xFF :: acc)
    else if y = 0xFF then entropyRun f (y :: r) acc
    else (acc.reverse, some (y.toNat, r))

/-- A restart marker code. -/
def isRst (m : Nat) : Bool := 0xD0 ≤ m && m ≤ 0xD7

/-- Bytes skipped to the next marker other than RSTm (R185). -/
def skipToMarker : Nat → Bytes → Option (Nat × Bytes)
  | 0, _ => none
  | f + 1, b =>
    match (entropyRun (b.length + 1) b []).2 with
    | none => none
    | some (m, r) => if isRst m then skipToMarker f r else some (m, r)

/-- Restart intervals of a scan from interval k; step is MCUs in an interval, total those of the scan, last the last
needed one. The bytes after the scan's entropy data begin with a marker code (R177, R185). -/
def decodeIntervals (s : JState) (sc : JScan) (step total last : Nat) :
    Nat → Nat → Bytes → JFrame → Res (JFrame × Option (Nat × Bytes))
  | 0, _, _, fr => .ok (fr, none)
  | f + 1, k, b, fr => do
    let m := k * step
    let n := min step (total - m)
    let (data, next) := entropyRun (b.length + 1) b []
    let ends := match next with
      | some (c, _) => if isRst c then St.JPEG_RESTART else St.JPEG_TRUNCATED
      | none => St.JPEG_TRUNCATED
    let isLast := decide (last < m + n)
    let needed := (List.range n).any fun i => mcuNeeded fr sc (m + i)
    let count := if isLast then last + 1 - m else n
    let out := decodeMcus s sc ends count m fr { bits := { rest := data }, pred := sc.comps.map fun _ => 0 }
    let (fr, clean) ← (if needed then do
        let (fr, run) ← out
        return (fr, run.bits.rest.isEmpty)
      else match out with
        | .ok (fr', _) => return (if fr.progressive then fr' else fr, true)
        | .error _ => return (fr, true) : Res (JFrame × Bool))
    if isLast then
      return (fr, match next with
        | some (c, r) => if isRst c then skipToMarker (b.length + 1) r else some (c, r)
        | none => none)
    else
      match next with
      | some (c, r) => if clean ∧ c = 0xD0 + k % 8 then decodeIntervals s sc step total last f (k + 1) r fr else err St.JPEG_RESTART
      | none => err St.JPEG_TRUNCATED

/-- Scan parameters and order (R178, T.81 Annex G). -/
def scanRule (fr : JFrame) (sc : JScan) : Bool :=
  if ¬fr.progressive then true
  else
    let band := (List.range 64).filter fun k => sc.ss ≤ k && k ≤ sc.se
    let alOf (c k : Nat) : Option Nat := ((fr.comps.getD c default).al.getD k none)
    let shape := if sc.ss = 0 then sc.se = 0 else sc.ss ≤ sc.se ∧ sc.se ≤ 63 ∧ sc.comps.length = 1
    decide shape && decide (sc.al ≤ 13) && (sc.ah == 0 || sc.ah == sc.al + 1) &&
      sc.comps.all fun c =>
        (sc.ss == 0 || (alOf c.1 0).isSome) &&
        band.all fun k => if sc.ah = 0 then (alOf c.1 k).isNone else alOf c.1 k == some sc.ah

/-- SOS: header checks, then the scan's data. -/
def readScan (hdr b : Bytes) (s : JState) : Res (JState × Option (Nat × Bytes)) := do
  match s.frame with
  | none => err St.JPEG_MARKER
  | some fr =>
    let n := byteAt hdr 0
    if n = 0 ∨ 4 < n ∨ hdr.length ≠ 4 + 2 * n then err St.JPEG_MARKER
    else
      let cs := (List.range n).map fun i =>
        (fr.comps.findIdx? fun c => c.id == byteAt hdr (1 + 2 * i), byteAt hdr (2 + 2 * i) / 16, byteAt hdr (2 + 2 * i) % 16)
      if cs.any (fun c => c.1.isNone || decide (3 < c.2.1) || decide (3 < c.2.2)) ∨ ¬(cs.map (·.1)).Nodup then err St.JPEG_MARKER
      else
        let comps := cs.map fun c => (c.1.getD 0, c.2.1, c.2.2)
        let t := 1 + 2 * n
        let sc : JScan := if fr.progressive then
            { comps := comps, ss := byteAt hdr t, se := byteAt hdr (t + 1), ah := byteAt hdr (t + 2) / 16,
              al := byteAt hdr (t + 2) % 16 }
          else { comps := comps, ss := 0, se := 63, ah := 0, al := 0 }
        if ¬scanRule fr sc then err St.JPEG_SCAN
        else
          let needDc := sc.ss = 0 ∧ sc.ah = 0
          let needAc := 0 < sc.se
          let missing := comps.any fun c =>
            let k := fr.comps.getD c.1 default
            (k.qt.isNone && (s.qt.getD k.tq none).isNone) || (decide needDc && (s.dc.getD c.2.1 none).isNone) ||
              (decide needAc && (s.ac.getD c.2.2 none).isNone)
          if missing then err St.JPEG_TABLE_MISSING
          else
            let total := mcuCount fr sc
            let step := if s.restart = 0 then total else s.restart
            let last := ((List.range total).reverse.find? fun m => mcuNeeded fr sc m).getD 0
            let (fr, next) ← decodeIntervals s sc step total last (total + 1) 0 b fr
            let cs := fr.comps.zipIdx.map fun p =>
              if comps.any (fun c => decide (c.1 = p.2)) then
                { p.1 with
                  qt := p.1.qt.or (s.qt.getD p.1.tq none)
                  covered := true
                  al := p.1.al.zipIdx.map fun a => if sc.ss ≤ a.2 ∧ a.2 ≤ sc.se then some sc.al else a.1 }
              else p.1
            return ({ s with frame := some { fr with comps := cs } }, next)

/-- One marker segment handled; sequential frames stop when complete (R179). The marker code has been read. -/
def jpegMarkers (region : RegionFn) : Nat → Nat → Bytes → JState → Res JState
  | 0, _, _, _ => err St.JPEG_TRUNCATED
  | f + 1, m, b, s => do
    let onward (m : Option (Nat × Bytes)) (s : JState) : Res JState :=
      match m with
      | none => err St.JPEG_TRUNCATED
      | some (m, b) => jpegMarkers region f m b s
    let complete (s : JState) : Bool := match s.frame with
      | some fr => !fr.progressive && fr.comps.all (·.covered)
      | none => false
    if m = 0xD9 then
      match s.frame with
      | some fr => if fr.progressive then return s else err St.JPEG_TRUNCATED
      | none => err St.JPEG_TRUNCATED
    else if m = 0xDC ∨ m = 0xCC ∨ m = 0xDE ∨ m = 0xDF then err St.JPEG_UNSUPPORTED
    else if ¬(m = 0xFE ∨ (0xE0 ≤ m ∧ m ≤ 0xEF) ∨ (0xC0 ≤ m ∧ m ≤ 0xCF ∧ m ≠ 0xC8) ∨ m = 0xDA ∨ m = 0xDB ∨ m = 0xDD) then
      err St.JPEG_MARKER
    else if b.length < 2 then err St.JPEG_TRUNCATED
    else
      let n := beNat (b.take 2)
      if n < 2 ∨ b.length < n then err St.JPEG_MARKER
      else
        let seg := cut b 2 (n - 2)
        let rest := b.drop n
        if m = 0xDA then
          let (s, next) ← readScan seg rest s
          if complete s then return s else onward next s
        else
          let s ← (if m = 0xDB then readDqt 70 seg s
            else if m = 0xC4 then readDht 70 seg s
            else if m = 0xDD then (if seg.length = 2 then .ok { s with restart := beNat seg } else err St.JPEG_MARKER)
            else if m = 0xEE then
              .ok (if seg.take 5 = ascii "Adobe" ∧ 12 ≤ seg.length ∧ byteAt seg 11 = 0 then { s with rgb := true } else s)
            else if m = 0xFE ∨ 0xE0 ≤ m then .ok s
            else readSof (m - 0xC0) region seg s : Res JState)
          match rest with
          | [] => err St.JPEG_TRUNCATED
          | x :: r =>
            if x ≠ 0xFF then err St.JPEG_MARKER
            else match r.dropWhile (· == 0xFF) with
              | [] => err St.JPEG_TRUNCATED
              | c :: r => jpegMarkers region f c.toNat r s

/-! ### IDCT, upsampling and colour (R174 to R176) -/

/-- 8,192 × cos(kπ/16) rounded, k = 0 to 8; 5,793 for u = 0 is applied apart (R175). -/
def cosTab : List Int := [8192, 8035, 7568, 6811, 5793, 4551, 3135, 1598, 0]

/-- T[x][u] of R175. -/
def idctT (x u : Nat) : Int :=
  if u = 0 then 5793
  else
    let k := (2 * x + 1) * u % 32
    let k := if 16 < k then 32 - k else k
    if k ≤ 8 then cosTab.getD k 0 else -(cosTab.getD (16 - k) 0)

/-- One pass of the IDCT over a row of eight. -/
def idctRow (rnd : Int) (shift : Nat) (f : List Int) : List Int :=
  (List.range 8).map fun x => ((f.zipIdx.map fun p => idctT x p.2 * p.1).sum + rnd) / 2 ^ shift

/-- Rows of an 8 × 8 list exchanged with its columns. -/
def transpose8 (l : List (List Int)) : List (List Int) :=
  (List.range 8).map fun i => l.map fun r => r.getD i 0

/-- Samples of a block from its coefficients in zigzag order (R175). -/
def idctBlock (q : List Nat) (b : Array Int) : Array Nat :=
  if b.isEmpty then Array.replicate 64 128
  else
    let deq := (zigzag.zip (b.toList.zip q)).foldl (fun (a : Array Int) p => a.set! p.1 (p.2.1 * p.2.2)) (Array.replicate 64 0)
    let rows := (List.range 8).map fun y => idctRow 1024 11 ((List.range 8).map fun x => deq.getD (8 * y + x) 0)
    let cols := transpose8 ((transpose8 rows).map (idctRow 65536 17))
    (cols.flatMap fun r => r.map fun s => (max 0 (min 255 (s + 128))).toNat).toArray

/-- A component's plane: IDCT of the blocks that meet the needed area, others empty. -/
def planeOf (fr : JFrame) (k : JComp) : Array (Array Nat) :=
  let a := fr.area
  let q := k.qt.getD (List.replicate 64 1)
  let x0 := a.x * k.h / fr.hmax / 8 - 1
  let x1 := (a.x + a.w) * k.h / fr.hmax / 8 + 1
  let y0 := a.y * k.v / fr.vmax / 8 - 1
  let y1 := (a.y + a.h) * k.v / fr.vmax / 8 + 1
  (k.blocks.toList.zipIdx.map fun p =>
    let bx := p.2 % k.bw
    let by_ := p.2 / k.bw
    if x0 ≤ bx ∧ bx ≤ x1 ∧ y0 ≤ by_ ∧ by_ ≤ y1 then idctBlock q p.1 else #[]).toArray

/-- Sample (x, y) of a plane, the edge repeated (R176). -/
def planeAt (k : JComp) (p : Array (Array Nat)) (x y : Int) : Nat :=
  let x := min (max x 0).toNat (k.cw - 1)
  let y := min (max y 0).toNat (k.ch - 1)
  (p.getD (y / 8 * k.bw + x / 8) #[]).getD (y % 8 * 8 + x % 8) 0

/-- A component's sample at luma resolution (R176). -/
def upsampled (fr : JFrame) (tri : Bool) (k : JComp) (p : Array (Array Nat)) (x y : Nat) : Nat :=
  let sx := fr.hmax / k.h
  let sy := fr.vmax / k.v
  let cx : Int := (x / sx : Nat)
  let cy : Int := (y / sy : Nat)
  if ¬tri ∨ (sx = 1 ∧ sy = 1) then planeAt k p cx cy
  else
    let col (c : Int) : Nat :=
      if sy = 1 then planeAt k p c cy
      else 3 * planeAt k p c cy + planeAt k p c (if y % 2 = 0 then cy - 1 else cy + 1)
    let v := if sx = 1 then col cx else 3 * col cx + col (if x % 2 = 0 then cx - 1 else cx + 1)
    if sx = 2 ∧ sy = 2 then (v + 8) / 16 else (v + 2) / 4

/-- A value clamped to 0 to 255. -/
def clamp8 (i : Int) : Nat := (max 0 (min 255 i)).toNat

/-- RGB of a YCbCr pixel (R174). -/
def ycc (y cb cr : Nat) : List Nat :=
  let b : Int := (cb : Int) - 128
  let r : Int := (cr : Int) - 128
  [clamp8 (y + (91881 * r + 32768) / 65536), clamp8 (y + (-22554 * b - 46802 * r + 32768) / 65536),
   clamp8 (y + (116130 * b + 32768) / 65536)]

/-- DECODE_JPEG: the region of the image at the channels asked for. -/
def decodeJpegImg (c : ImgCtl) (region : RegionFn) (applied : Bool) (b : Bytes) : Res Img := do
  if b.take 2 ≠ [0xFF, 0xD8] then err St.JPEG_SOI
  else
    let s ← (match b.drop 2 with
      | [] => err St.JPEG_TRUNCATED
      | x :: r => if x ≠ 0xFF then err St.JPEG_MARKER
        else match r.dropWhile (· == 0xFF) with
          | [] => err St.JPEG_TRUNCATED
          | m :: r => jpegMarkers region (b.length + 2) m.toNat r {} : Res JState)
    match s.frame with
    | none => err St.JPEG_TRUNCATED
    | some fr =>
      let planes := fr.comps.map fun k => (k, planeOf fr k)
      let r := fr.region
      let pix (x y : Nat) : List Nat :=
        let v := planes.map fun p => upsampled fr c.triangle p.1 p.2 x y
        match v with
        | [y', cb, cr] =>
          if s.rgb then pixelTo c.channels 255 v
          else if c.channels = 1 then [y'] else pixelTo c.channels 255 (ycc y' cb cr)
        | v => pixelTo c.channels 255 v
      let ch := if c.channels = 0 then fr.comps.length else if c.channels = 1 then 1 else c.channels + 1
      return { channels := ch, depth := 8, w := r.w, h := r.h, srcW := fr.w, srcH := fr.h, x := r.x, y := r.y,
               layout := layoutOf ch, source := if fr.progressive then 2 else 1, flags := b2n applied,
               samples := (List.range r.h).flatMap fun y => (List.range r.w).flatMap fun x => pix (r.x + x) (r.y + y) }

end Sys2Proof.Machine
end

