-- ==== Sys2Proof/Machine/Image.lean ====
section
/-! DEFINITION. PNG, frame sequences and raw tensors (R167, R180 to R182, R186, R188 to R191, R198). -/

namespace Sys2Proof.Machine

open Sys2Proof

/-! ### PNG chunks (R180) -/

/-- What has been read of a PNG file. -/
structure PngState where
  w : Nat := 0
  h : Nat := 0
  depth : Nat := 8
  colour : Nat := 0
  adam7 : Bool := false
  palette : Option Bytes := none
  trns : Option Bytes := none
  deriving Repr, DecidableEq, Inhabited

/-- Channels stored per pixel by colour type. -/
def pngStored (colour : Nat) : Nat := if colour = 2 then 3 else if colour = 4 then 2 else if colour = 6 then 4 else 1

/-- Bits per pixel. -/
def PngState.bpp (s : PngState) : Nat := pngStored s.colour * s.depth

/-- Bytes of a filtered row of w pixels, its filter byte apart. -/
def PngState.rowBytes (s : PngState) (w : Nat) : Nat := (w * s.bpp + 7) / 8

/-- One chunk with its CRC checked: (type, data, rest). -/
def pngChunk (b : Bytes) : Res (Bytes × Bytes × Bytes) :=
  if b.length < 8 then err St.PNG_TRUNCATED
  else
    let n := beNat (cut b 0 4)
    if 2 ^ 31 ≤ n then err St.PNG_CHUNK
    else if b.length < 8 + n then err St.PNG_CHUNK
    else if b.length < 12 + n then err St.PNG_TRUNCATED
    else if beNat (cut b (8 + n) 4) ≠ crc32 (cut b 4 (4 + n)) then err St.PNG_CRC
    else .ok (cut b 4 4, cut b 8 n, b.drop (12 + n))

/-- Bit depths allowed with a colour type. -/
def pngDepthOk (colour depth : Nat) : Bool :=
  match colour with
  | 0 => [1, 2, 4, 8, 16].contains depth
  | 3 => [1, 2, 4, 8].contains depth
  | 2 => depth == 8 || depth == 16
  | 4 => depth == 8 || depth == 16
  | 6 => depth == 8 || depth == 16
  | _ => false

/-- IHDR. -/
def pngIhdr (d : Bytes) : Res PngState :=
  let w := beNat (cut d 0 4)
  let h := beNat (cut d 4 4)
  if d.length ≠ 13 then err St.PNG_HEADER
  else if ¬pngDepthOk (byteAt d 9) (byteAt d 8) ∨ byteAt d 10 ≠ 0 ∨ byteAt d 11 ≠ 0 ∨ 1 < byteAt d 12 then err St.PNG_HEADER
  else if w = 0 ∨ h = 0 ∨ 32768 < w ∨ 32768 < h then err St.PNG_DIM_LIMIT
  else .ok { w := w, h := h, depth := byteAt d 8, colour := byteAt d 9, adam7 := byteAt d 12 == 1 }

/-- The chunks between IHDR and the first IDAT: PLTE and tRNS are kept, other ancillary chunks skipped. -/
def pngHeadChunks : Nat → Bytes → PngState → Res (PngState × Bytes)
  | 0, _, _ => err St.PNG_TRUNCATED
  | f + 1, b, s => do
    if cut b 4 4 = ascii "IDAT" then return (s, b)
    let (t, d, r) ← pngChunk b
    if t = ascii "PLTE" then
      if d.length % 3 ≠ 0 ∨ d = [] ∨ 768 < d.length then err St.PNG_PALETTE
      else pngHeadChunks f r { s with palette := some d }
    else if t = ascii "tRNS" then pngHeadChunks f r { s with trns := some d }
    else if t = ascii "IEND" then err St.PNG_DATA_LENGTH
    else if ¬bit (byteAt t 0) 5 then err St.PNG_CHUNK
    else pngHeadChunks f r s

/-- Consecutive IDAT data read chunk by chunk; the error that ends it early, and the bytes before it. -/
def pngIdat : Nat → Bytes → List Byte → Bytes × Option Status × Bytes
  | 0, b, acc => (acc, none, b)
  | f + 1, b, acc =>
    if cut b 4 4 = ascii "IDAT" then
      match pngChunk b with
      | .ok (_, d, r) => pngIdat f r (acc ++ d)
      | .error e => (acc, some e.status, [])
    else if b ≠ [] ∧ b.length < 8 then (acc, some St.PNG_TRUNCATED, [])
    else (acc, none, b)

/-- IDAT chunks must be consecutive; a later one is PNG_CHUNK (Table 6.11). -/
def pngLaterIdat : Nat → Bytes → Option Status
  | 0, _ => none
  | f + 1, b =>
    if b = [] then none
    else match pngChunk b with
      | .error e => some e.status
      | .ok (t, _, r) =>
        if t = ascii "IDAT" then some St.PNG_CHUNK
        else if t = ascii "IEND" then none
        else if ¬bit (byteAt t 0) 5 then some St.PNG_CHUNK
        else pngLaterIdat f r

/-! ### Filters and passes -/

/-- Paeth predictor. -/
def paeth (a b c : Int) : Int :=
  let p := a + b - c
  let pa := (p - a).natAbs
  let pb := (p - b).natAbs
  let pc := (p - c).natAbs
  if pa ≤ pb ∧ pa ≤ pc then a else if pb ≤ pc then b else c

/-- Row unfiltered left to right: the bytes so far of this row, the row above. -/
def unfilterRow (ft bp : Nat) (up : Array Byte) : Bytes → Array Byte → Array Byte
  | [], acc => acc
  | x :: xs, acc =>
    let i := acc.size
    let a : Nat := if i < bp then 0 else (acc.getD (i - bp) 0).toNat
    let b : Nat := (up.getD i 0).toNat
    let c : Nat := if i < bp then 0 else (up.getD (i - bp) 0).toNat
    let p : Int := match ft with
      | 0 => 0 | 1 => a | 2 => b | 3 => ((a + b) / 2 : Nat) | _ => paeth a b c
    unfilterRow ft bp up xs (acc.push (x + BitVec.ofInt 8 p))

/-- n rows of the decompressed data; short data is PNG_DATA_LENGTH. -/
def unfilterRows (rb bp : Nat) : Nat → Bytes → Array Byte → Res (List (Array Byte) × Bytes)
  | 0, b, _ => .ok ([], b)
  | n + 1, b, up =>
    match b with
    | [] => err St.PNG_DATA_LENGTH
    | ft :: r =>
      if 4 < ft.toNat then err St.PNG_FILTER
      else if r.length < rb then err St.PNG_DATA_LENGTH
      else do
        let row := unfilterRow ft.toNat bp up (r.take rb) #[]
        let (rows, rest) ← unfilterRows rb bp n (r.drop rb) row
        return (row :: rows, rest)

/-- Stored samples of pixel x of a row. -/
def PngState.sampleRow (s : PngState) (row : Array Byte) (x : Nat) : List Nat :=
  let n := pngStored s.colour
  (List.range n).map fun k =>
    let i := x * n + k
    if s.depth = 16 then (row.getD (2 * i) 0).toNat * 256 + (row.getD (2 * i + 1) 0).toNat
    else if s.depth = 8 then (row.getD i 0).toNat
    else
      let per := 8 / s.depth
      (row.getD (i / per) 0).toNat / 2 ^ (8 - s.depth * (i % per + 1)) % 2 ^ s.depth

/-- Adam7 passes: (first column, first row, column step, row step). -/
def adam7Passes : List (Nat × Nat × Nat × Nat) :=
  [(0, 0, 8, 8), (4, 0, 8, 8), (0, 4, 4, 8), (2, 0, 4, 4), (0, 2, 2, 4), (1, 0, 2, 2), (0, 1, 1, 2)]

/-- Width and height of a pass. -/
def passSize (w h : Nat) (p : Nat × Nat × Nat × Nat) : Nat × Nat :=
  (ceilDiv (w - p.1) p.2.2.1, ceilDiv (h - p.2.1) p.2.2.2)

/-- Rows of every pass in order. -/
def adam7Rows (s : PngState) : List (Nat × Nat × Nat × Nat) → Bytes → Res (List (List (Array Byte)) × Bytes)
  | [], b => .ok ([], b)
  | p :: ps, b => do
    let (pw, ph) := passSize s.w s.h p
    let (rows, b) ← if pw = 0 ∨ ph = 0 then .ok ([], b)
      else unfilterRows (s.rowBytes pw) (max 1 (s.bpp / 8)) ph b #[]
    let (more, b) ← adam7Rows s ps b
    return (rows :: more, b)

/-- The pass that holds pixel (x, y), and its place there. -/
def adam7At (x y : Nat) : Nat × Nat × Nat :=
  let i := (adam7Passes.findIdx? fun p => decide (p.1 ≤ x) && decide (p.2.1 ≤ y) && (x - p.1) % p.2.2.1 == 0 &&
    (y - p.2.1) % p.2.2.2 == 0).getD 6
  let p := adam7Passes.getD i (0, 0, 1, 1)
  (i, (x - p.1) / p.2.2.1, (y - p.2.1) / p.2.2.2)

/-! ### Pixels (R172, R181) -/

/-- DEPTH8 (R172). -/
def depth8 (v : Nat) : Nat := (v * 255 + 32767) / 65535

/-- Grey below 8 bits widened by bit replication (R181). -/
def replicateBits (depth v : Nat) : Nat :=
  if depth = 1 then v * 255 else if depth = 2 then v * 85 else if depth = 4 then v * 17 else v

/-- A stored pixel as its native layout, and with alpha from tRNS for types 0 and 2 when OUT_CHANNELS is 3 (R181). -/
def PngState.pixel (s : PngState) (rgbaOut : Bool) (v : List Nat) : List Nat :=
  let maxv := if s.depth = 16 then 65535 else 255
  match s.colour with
  | 3 =>
    let i := v.headD 0
    let p := s.palette.getD []
    let rgb := [byteAt p (3 * i), byteAt p (3 * i + 1), byteAt p (3 * i + 2)]
    match s.trns with
    | none => rgb
    | some t => rgb ++ [if i < t.length then byteAt t i else 255]
  | 0 =>
    let y := replicateBits s.depth (v.headD 0)
    match s.trns with
    | some t => if rgbaOut then [y, y, y, if v.headD 0 = beNat (cut t 0 2) then 0 else maxv] else [y]
    | none => [y]
  | 2 =>
    match s.trns with
    | some t => if rgbaOut then v ++ [if v = [beNat (cut t 0 2), beNat (cut t 2 2), beNat (cut t 4 2)] then 0 else maxv] else v
    | none => v
  | _ => v

/-- The zlib stream of a non-interlaced image, up to its last needed byte (R182, R186): an error inside the needed data
is PNG_ZLIB, data that ends before it PNG_DATA_LENGTH. -/
def pngNeeded (data : Bytes) (bad : Option Status) (need : Nat) : Res Bytes :=
  let o : Out := { hist := #[], base := 0, expect := none, bound := 2 ^ 64, stop := some need }
  match inflateZ none data o with
  | .ok _ => err (bad.getD St.PNG_DATA_LENGTH)
  | .error e =>
    if e.status = St.SUCCESS then .ok e.out
    else if e.status = St.INFL_TRUNCATED then err (bad.getD St.PNG_DATA_LENGTH)
    else err St.PNG_ZLIB

/-- The whole zlib stream of an Adam7 image (R182). -/
def pngWhole (data : Bytes) (bad : Option Status) : Res Bytes :=
  let o : Out := { hist := #[], base := 0, expect := none, bound := 2 ^ 64 }
  match inflateZ none data o with
  | .ok (_, o) => .ok o.bytes
  | .error e => if e.status = St.INFL_TRUNCATED then err (bad.getD St.PNG_DATA_LENGTH) else err St.PNG_ZLIB

/-- DECODE_PNG. -/
def decodePngImg (c : ImgCtl) (region : RegionFn) (applied : Bool) (b : Bytes) : Res Img := do
  if b.take 8 ≠ [0x89, 0x50, 0x4E, 0x47, 0x0D, 0x0A, 0x1A, 0x0A] then err St.PNG_SIGNATURE
  else
    let (t, d, b) ← pngChunk (b.drop 8)
    if t ≠ ascii "IHDR" then err St.PNG_CHUNK
    else
      let s ← pngIhdr d
      let (s, b) ← pngHeadChunks (b.length + 1) b s
      if s.colour = 3 ∧ s.palette = none then err St.PNG_PALETTE
      else
        let r ← region s.w s.h
        let (data, bad, after) := pngIdat (b.length + 1) b []
        let bp := max 1 (s.bpp / 8)
        let stored ← (if s.adam7 then do
            let (passes, rest) ← adam7Rows s adam7Passes (← pngWhole data (bad.or (pngLaterIdat (after.length + 1) after)))
            if rest ≠ [] then err St.PNG_DATA_LENGTH
            else return fun x y =>
              let (i, px, py) := adam7At x y
              s.sampleRow ((passes.getD i []).getD py #[]) px
          else do
            let rows := r.y + r.h
            let raw ← pngNeeded data (bad.or (pngLaterIdat (after.length + 1) after)) (rows * (s.rowBytes s.w + 1))
            let (rows, _) ← unfilterRows (s.rowBytes s.w) bp rows raw #[]
            let rows := rows.toArray
            return fun x y => s.sampleRow (rows.getD y #[]) x : Res (Nat → Nat → List Nat))
        let decoded := if s.adam7 then s.h else r.y + r.h
        let badIndex := s.colour = 3 ∧ (List.range decoded).any fun y => (List.range s.w).any fun x =>
          decide ((s.palette.getD []).length ≤ 3 * (stored x y).headD 0)
        if badIndex then err St.PNG_PALETTE
        else
          let trnsAlpha := s.trns.isSome && (s.colour == 3 || (c.channels == 3 && (s.colour == 0 || s.colour == 2)))
          let maxv := if s.depth = 16 then 65535 else 255
          let ch := (pixelTo c.channels maxv (s.pixel (c.channels = 3) (List.replicate (pngStored s.colour) 0))).length
          let to8 := c.depth8 && s.depth == 16
          let fin (v : Nat) : Nat := if to8 then depth8 v else v
          return { channels := ch, depth := if s.depth = 16 ∧ ¬to8 then 16 else 8, w := r.w, h := r.h, srcW := s.w,
                   srcH := s.h, x := r.x, y := r.y, layout := layoutOf ch, source := 3
                   flags := b2n applied + 2 * b2n s.adam7 + 4 * b2n trnsAlpha
                   samples := (List.range r.h).flatMap fun y => (List.range r.w).flatMap fun x =>
                     (pixelTo c.channels maxv (s.pixel (c.channels = 3) (stored (r.x + x) (r.y + y)))).map fin }

/-! ### Selection by signature, and image stages -/

/-- Image kinds (R167): 1 JPEG, 2 PNG. -/
def imageKind (b : Bytes) : Option Nat :=
  if b.take 3 = [0xFF, 0xD8, 0xFF] then some 1
  else if b.take 8 = [0x89, 0x50, 0x4E, 0x47, 0x0D, 0x0A, 0x1A, 0x0A] then some 2 else none

/-- The region of a stage: a region of NONE is the whole image (R183). -/
def regionFor (op : Option Bytes) (relative : Bool) (bad : Status) : RegionFn := fun w h =>
  match op with
  | none => .ok { x := 0, y := 0, w := w, h := h }
  | some b => match regionOf b relative w h with
    | some r => .ok r
    | none => err bad

/-- DECODE_JPEG's output (R171). -/
def decodeJpegBytes (c : ImgCtl) (op : Option Bytes) (b : Bytes) : Res Bytes := do
  return imgBytes (← decodeJpegImg c (regionFor op c.relative St.JPEG_REGION) op.isSome b)

/-- DECODE_PNG's output. -/
def decodePngBytes (c : ImgCtl) (op : Option Bytes) (b : Bytes) : Res Bytes := do
  return imgBytes (← decodePngImg c (regionFor op c.relative St.PNG_REGION) op.isSome b)

/-- DECODE_IMAGE's output. -/
def decodeImageBytes (c : ImgCtl) (op : Option Bytes) (b : Bytes) : Res Bytes :=
  match imageKind b with
  | some 1 => decodeJpegBytes c op b
  | some _ => decodePngBytes c op b
  | none => err St.JPEG_NOT_IMAGE

/-! ### Frame sequences (R188 to R191) -/

/-- A frame decoded as DECODE_IMAGE decodes it, with a region found from its size. -/
def decodeFrame (c : ImgCtl) (region : Nat → RegionFn) (applied : Bool) (b : Bytes) : Res Img :=
  match imageKind b with
  | some 1 => decodeJpegImg c (region 1) applied b
  | some _ => decodePngImg c (region 2) applied b
  | none => err St.JPEG_NOT_IMAGE

/-- A failure in a frame carries the frame's index (R191). -/
def inFrame {α : Type} (i : Nat) : Res α → Res α
  | .ok a => .ok a
  | .error e => .error { e with detail := i }

/-- Frames sel(n) for n ≥ 1, each with its region moved from the last (R190). -/
def seqFrames (c : ImgCtl) (b : Bytes) (stride follow maxStep : Nat) (applied : Bool) :
    List Nat → Rect → Res Bytes
  | [], _ => .ok []
  | f :: fs, r => do
    let ent (i : Nat) := cut b (32 + 16 * i) 16
    let between := (List.range stride).map fun k => f - k
    let dx : Int := (between.map fun i => signed 16 (fld (ent i) 12 2)).sum
    let dy : Int := (between.map fun i => signed 16 (fld (ent i) 14 2)).sum
    let lim (v : Int) : Int := if follow = 0 then 0 else if follow = 2 then max (-maxStep) (min maxStep v) else v
    let region (_ : Nat) : RegionFn := fun w h =>
      if w < r.w ∨ h < r.h then err St.JPEG_SEQ_SIZE
      else .ok { r with
        x := (max 0 (min ((w - r.w : Nat) : Int) (r.x + lim dx))).toNat
        y := (max 0 (min ((h - r.h : Nat) : Int) (r.y + lim dy))).toNat }
    let i ← inFrame f (decodeFrame c region applied (cut b (fld (ent f) 0 8) (fld (ent f) 8 4)))
    let rest ← seqFrames c b stride follow maxStep applied fs { r with x := i.x, y := i.y }
    return imgBytes { i with frame := f } ++ rest

/-- DECODE_SEQUENCE. The first selected frame's region is found by R183. -/
def decodeSequenceBytes (c : ImgCtl) (sel : Bytes) (b : Bytes) : Res Bytes := do
  let n := fld b 8 4
  let start := fld sel 16 4
  let stride := fld sel 20 2
  let count := fld sel 22 2
  let follow := fld sel 24 1
  if b.length < 32 ∨ cut b 0 4 ≠ ascii "FSEQ" ∨ fld b 4 2 ≠ 1 ∨ n = 0 ∨ 65536 < n ∨ b.length < 32 + 16 * n then
    err St.JPEG_SEQ_HEADER
  else if stride = 0 ∨ 256 < stride ∨ count = 0 ∨ 1024 < count ∨ 2 < follow then err St.JPEG_SEQ_RANGE
  else if n ≤ start + (count - 1) * stride then err St.JPEG_SEQ_RANGE
  else
    let frames := (List.range count).map fun k => start + k * stride
    let ent (i : Nat) := cut b (32 + 16 * i) 16
    if frames.any fun f => decide (b.length < fld (ent f) 0 8 + fld (ent f) 8 4) then err St.JPEG_SEQ_RANGE
    else
      let region (k : Nat) : RegionFn := regionFor (some (sel.take 16)) c.relative (if k = 1 then St.JPEG_REGION else St.PNG_REGION)
      let i ← inFrame start (decodeFrame c region true (cut b (fld (ent start) 0 8) (fld (ent start) 8 4)))
      let rest ← seqFrames c b stride follow (fld sel 26 2) true frames.tail { x := i.x, y := i.y, w := i.w, h := i.h }
      return imgBytes { i with frame := start } ++ rest

/-! ### Raw tensors (R198, Table 6.9) -/

/-- A tensor record: its header fields. -/
structure Tensor where
  dtype : Nat
  rank : Nat
  dims : List Nat
  offset : Nat
  deriving Repr, DecidableEq, Inhabited

/-- Header of a tensor record written to OUT: DATA_OFFSET 32. -/
def tensorHeader (dtype rank : Nat) (dims : List Nat) : Bytes :=
  layout 32 [(0, ascii "TNSR"), (4, le 2 1), (6, le 1 dtype), (7, le 1 rank),
    (8, (List.range 4).flatMap fun i => le 4 (dims.getD i 1)), (24, le 4 32)]

/-- A tensor's header read and checked: none where invalid. -/
def tensorOf (b : Bytes) : Option Tensor :=
  let rank := fld b 7 1
  let dims := (List.range 4).map fun i => fld b (8 + 4 * i) 4
  let off := fld b 24 4
  if b.length < 32 ∨ cut b 0 4 ≠ ascii "TNSR" ∨ fld b 4 2 ≠ 1 ∨ rank = 0 ∨ 4 < rank ∨ off < 32 ∨ off % 8 ≠ 0 then none
  else if dims.any (fun d => d == 0 || decide (2 ^ 31 < d)) ∨ (dims.drop rank).any (fun d => d != 1) then none
  else some { dtype := fld b 6 1, rank := rank, dims := dims, offset := off }

/-- Number formats a raw tensor may hold (Table 6.9). -/
def tensorType (c : Nat) : Bool := (decide (1 ≤ c) && decide (c ≤ 5)) || (decide (0x0A ≤ c) && decide (c ≤ 0x0F))

/-- DECODE_TENSOR. -/
def decodeTensorBytes (op : Option Bytes) (b : Bytes) : Res Bytes :=
  match tensorOf b with
  | none => err St.PNG_TENSOR_HEADER
  | some t =>
    if ¬tensorType t.dtype then err St.PNG_TENSOR_TYPE
    else
      let esz := elemBytes t.dtype
      let dim i := t.dims.getD i 1
      if t.offset + dim 0 * dim 1 * dim 2 * dim 3 * esz ≠ b.length then err St.PNG_TENSOR_LENGTH
      else
        let data := b.drop t.offset
        match op with
        | none => .ok (tensorHeader t.dtype t.rank t.dims ++ data)
        | some o =>
          if t.rank = 1 then err St.PNG_TENSOR_REGION
          else match regionOf o false (dim 1) (dim 0) with
            | none => err St.PNG_TENSOR_REGION
            | some r =>
              let cell := dim 2 * dim 3 * esz
              .ok (tensorHeader t.dtype t.rank [r.h, r.w, dim 2, dim 3] ++
                (List.range r.h).flatMap fun y => cut data (((r.y + y) * dim 1 + r.x) * cell) (r.w * cell))

end Sys2Proof.Machine
end

