-- ==== Sys2Proof/Machine/Audio.lean ====
section
/-! DEFINITION. WAV and FLAC decode with a window (R167, R192 to R197; RFC 9639): pure functions of the input bytes. -/

namespace Sys2Proof.Machine

open Sys2Proof

/-! ### Records -/

/-- Audio controls, required rate and window of a stage (R194 to R196). -/
structure AudCtl where
  fp32 : Bool
  mono : Bool
  rate : Nat
  /-- START and COUNT; none is the whole stream -/
  window : Option (Nat × Nat)
  deriving Repr, DecidableEq, Inhabited

/-- Controls from PARAM1, the rate of PARAM2 and the window operand. -/
def audCtlOf (ctl rate : Nat) (op : Option Bytes) : AudCtl :=
  { fp32 := bit ctl 0, mono := bit ctl 1, rate := rate, window := op.map fun b => (fld b 0 8, fld b 8 4) }

/-- A decoded stream as a window sees it: samples frame by frame, integers of bits bits or FP32 codes. -/
structure Pcm where
  rate : Nat
  channels : Nat
  bits : Nat
  float : Bool
  source : Nat
  total : Nat
  md5 : Bool := false
  start : Nat
  count : Nat
  /-- frames of the window, at most count -/
  frames : List (List Int)
  deriving Repr, DecidableEq, Inhabited

/-- An integer sample as FP32 (R194): s × 2^−(b − 1). -/
def pcmFloat (b : Nat) (s : Int) : Nat := fr (.fin (decide (s < 0)) s.natAbs (-((b : Int) - 1)))

/-- One output frame's samples as codes of the output format. -/
def pcmFrame (c : AudCtl) (p : Pcm) (f : List Int) : List Nat :=
  if p.float then
    let f := f.map Int.toNat
    if c.mono then
      match f with
      | [] => []
      | x :: xs => [fmul (xs.foldl fadd x) (fratio 1 p.channels)]
    else f
  else
    let f := if c.mono then [f.sum / (p.channels : Int)] else f
    if c.fp32 then f.map (pcmFloat p.bits)
    else if p.bits ≤ 16 then f.map fun s => toBits 16 (s * 2 ^ (16 - p.bits))
    else f.map fun s => toBits 32 (s * 2 ^ (32 - p.bits))

/-- The audio record (Table 6.8, R195, R197). -/
def audBytes (c : AudCtl) (p : Pcm) : Bytes :=
  let ch := if c.mono then 1 else p.channels
  let fmt := if p.float ∨ c.fp32 then 3 else if p.bits ≤ 16 then 1 else 2
  let size := if fmt = 1 then 2 else 4
  let n := p.frames.length
  layout 64 [(0, ascii "AUDD"), (4, le 2 1), (6, le 1 ch), (7, le 1 fmt), (8, le 4 p.rate), (12, le 4 p.count),
    (16, le 4 n), (20, le 1 p.bits), (21, le 1 p.channels), (22, le 1 p.source),
    (23, le 1 (b2n c.window.isSome + 2 * b2n (c.mono && decide (1 < p.channels)) + 4 * b2n p.md5)), (24, le 8 p.start),
    (32, le 8 p.total), (40, le 8 (p.count * ch * size))]
  ++ (p.frames.flatMap fun f => (pcmFrame c p f).flatMap (le size)) ++ zeros ((p.count - n) * ch * size)

/-- Window of a stream whose length is known: START and COUNT (R195). -/
def audWindow (c : AudCtl) (total : Nat) : Res (Nat × Nat) :=
  match c.window with
  | none => .ok (0, total)
  | some (s, n) => if total ≤ s ∨ n = 0 ∨ 16777216 < n then err St.AUD_WINDOW else .ok (s, n)

/-- R194's check of the required rate. -/
def audRate (c : AudCtl) (rate : Nat) : Res Unit := if c.rate ≠ 0 ∧ c.rate ≠ rate then err St.AUD_RATE else .ok ()

/-! ### WAV (R192) -/

/-- Format of a WAV file: float, container bits, valid bits, channels, rate. -/
structure WavFmt where
  float : Bool
  bits : Nat
  valid : Nat
  channels : Nat
  rate : Nat
  deriving Repr, DecidableEq, Inhabited

/-- The fmt chunk. -/
def wavFmt (d : Bytes) : Res WavFmt :=
  let tag0 := fld d 0 2
  let ext := tag0 = 0xFFFE
  let guidOk := cut d 26 14 = [0, 0, 0, 0, 0x10, 0, 0x80, 0, 0, 0xAA, 0, 0x38, 0x9B, 0x71]
  let tag := if ext then fld d 24 2 else tag0
  let bits := fld d 14 2
  let valid := if ext then fld d 18 2 else bits
  let ch := fld d 2 2
  let rate := fld d 4 4
  let bitsOk := if tag = 1 then bits = 8 ∨ bits = 16 ∨ bits = 24 ∨ bits = 32 else tag = 3 ∧ bits = 32
  if d.length < 16 ∨ (ext ∧ (d.length < 40 ∨ ¬guidOk)) ∨ ¬bitsOk ∨ valid = 0 ∨ bits < valid then err St.AUD_WAV_FORMAT
  else if ch = 0 ∨ 8 < ch ∨ rate < 8000 ∨ 192000 < rate ∨ fld d 12 2 ≠ ch * ((bits + 7) / 8) then err St.AUD_WAV_FORMAT
  else .ok { float := tag == 3, bits := bits, valid := if tag = 3 then 32 else valid, channels := ch, rate := rate }

/-- The chunks to the data chunk: format and data. -/
def wavChunks : Nat → Bytes → Option WavFmt → Res (WavFmt × Bytes)
  | 0, _, _ => err St.AUD_WAV_DATA
  | f + 1, b, fmt => do
    if b = [] then err St.AUD_WAV_DATA
    else if b.length < 8 then err St.AUD_TRUNCATED
    else
      let n := fld b 4 4
      if b.length < 8 + n then err St.AUD_RIFF
      else
        let d := cut b 8 n
        let rest := b.drop (8 + n + n % 2)
        if b.take 4 = ascii "fmt " then wavChunks f rest (some (← wavFmt d))
        else if b.take 4 = ascii "data" then
          match fmt with
          | none => err St.AUD_WAV_FORMAT
          | some m => return (m, d)
        else wavChunks f rest fmt

/-- One WAV sample of a container. -/
def wavSample (m : WavFmt) (b : Bytes) : Int :=
  if m.float then (leNat b : Int)
  else if m.bits = 8 then ((leNat b : Int) - 128) / 2 ^ (8 - m.valid)
  else signed m.bits (leNat b) / 2 ^ (m.bits - m.valid)

/-- DECODE_WAV. -/
def decodeWavBytes (c : AudCtl) (b : Bytes) : Res Bytes := do
  if b.length < 12 ∨ b.take 4 ≠ ascii "RIFF" ∨ cut b 8 4 ≠ ascii "WAVE" then err St.AUD_RIFF
  else
    let (m, d) ← wavChunks (b.length + 1) (b.drop 12) none
    let size := m.bits / 8
    let align := m.channels * size
    if d.length % align ≠ 0 then err St.AUD_WAV_DATA
    else
      audRate c m.rate
      let total := d.length / align
      let (start, count) ← audWindow c total
      let n := min count (total - start)
      let frames := (List.range n).map fun i =>
        let f := cut d ((start + i) * align) align
        (List.range m.channels).map fun k => wavSample m (cut f (k * size) size)
      return audBytes c { rate := m.rate, channels := m.channels, bits := m.valid, float := m.float,
                          source := if m.float then 2 else 1, total := total, start := start, count := count, frames := frames }

/-! ### FLAC metadata (R193) -/

/-- STREAMINFO and SEEKTABLE. -/
structure FlacInfo where
  maxBlock : Nat
  minBlock : Nat
  rate : Nat
  channels : Nat
  bits : Nat
  total : Nat
  md5 : Bytes
  /-- seek points: (first sample, offset from the first frame) -/
  seeks : List (Nat × Nat) := []
  deriving Repr, DecidableEq, Inhabited

/-- STREAMINFO. -/
def flacInfo (d : Bytes) : FlacInfo :=
  let v := beNat (cut d 10 8)
  { minBlock := beNat (cut d 0 2), maxBlock := beNat (cut d 2 2), rate := v / 2 ^ 44, channels := v / 2 ^ 41 % 8 + 1,
    bits := v / 2 ^ 36 % 32 + 1, total := v % 2 ^ 36, md5 := cut d 18 16 }

/-- Seek points, placeholders left out. -/
def seekPoints : Nat → Bytes → List (Nat × Nat)
  | 0, _ => []
  | f + 1, b =>
    if b.length < 18 then []
    else
      let s := beNat (b.take 8)
      (if s = 2 ^ 64 - 1 then [] else [(s, beNat (cut b 8 8))]) ++ seekPoints f (b.drop 18)

/-- Metadata blocks after STREAMINFO; the bytes of the first frame on. -/
def flacBlocks : Nat → Bool → Bytes → FlacInfo → Res (FlacInfo × Bytes)
  | 0, _, _, _ => err St.AUD_TRUNCATED
  | f + 1, last, b, i =>
    if last then .ok (i, b)
    else if b.length < 4 then err St.AUD_TRUNCATED
    else
      let n := beNat (cut b 1 3)
      if b.length < 4 + n then err St.AUD_TRUNCATED
      else
        let i := if byteAt b 0 % 128 = 3 then { i with seeks := seekPoints (n + 1) (cut b 4 n) } else i
        flacBlocks f (bit (byteAt b 0) 7) (b.drop (4 + n)) i

/-! ### FLAC frame headers -/

/-- A frame header. -/
structure FlacHdr where
  variable_ : Bool
  block : Nat
  rate : Nat
  /-- channel assignment 0 to 10 -/
  chans : Nat
  /-- bits per sample -/
  bits : Nat
  number : Nat
  /-- header length in bytes, CRC-8 included -/
  len : Nat
  deriving Repr, DecidableEq, Inhabited

/-- A coded number: value and bytes. -/
def flacNumber (b : Bytes) : Option (Nat × Nat) :=
  let x := byteAt b 0
  if x < 0x80 then some (x, 1)
  else
    let n := if x < 0xC0 then 0 else if x < 0xE0 then 2 else if x < 0xF0 then 3 else if x < 0xF8 then 4
      else if x < 0xFC then 5 else if x < 0xFE then 6 else if x = 0xFE then 7 else 0
    if n = 0 ∨ ((b.drop 1).take (n - 1)).any (fun y => y.toNat / 64 != 2) then none
    else some (((b.drop 1).take (n - 1)).foldl (fun a y => a * 64 + y.toNat % 64) (x % 2 ^ (7 - n)), n)

/-- A frame header at the start of b: no sync, then truncation, then CRC-8, then reserved values. -/
def flacHdr (i : FlacInfo) (b : Bytes) : Res FlacHdr :=
  if b.length < 2 then err St.AUD_TRUNCATED
  else if byteAt b 0 ≠ 0xFF ∨ byteAt b 1 / 2 ≠ 0x7C then err St.AUD_FLAC_SYNC
  else if b.length < 5 then err St.AUD_TRUNCATED
  else
    let bs := byteAt b 2 / 16
    let sr := byteAt b 2 % 16
    let ch := byteAt b 3 / 16
    let sz := byteAt b 3 / 2 % 8
    match flacNumber (b.drop 4) with
    | none => err St.AUD_FLAC_SYNC
    | some (num, k) =>
      let xb := if bs = 6 then 1 else if bs = 7 then 2 else 0
      let xr := if sr = 12 then 1 else if sr = 13 ∨ sr = 14 then 2 else 0
      let at_ := 4 + k
      let len := at_ + xb + xr + 1
      if b.length < len then err St.AUD_TRUNCATED
      else if crc8 (b.take (len - 1)) ≠ byteAt b (len - 1) then err St.AUD_FLAC_HEADER_CRC
      else
        let bx := beNat (cut b at_ xb)
        let rx := beNat (cut b (at_ + xb) xr)
        let block := if bs = 1 then 192 else if bs < 6 then 576 * 2 ^ (bs - 2) else if bs < 8 then bx + 1 else 256 * 2 ^ (bs - 8)
        let rate := if sr = 0 then i.rate else if sr = 12 then rx * 1000 else if sr = 13 then rx else if sr = 14 then rx * 10
          else [0, 88200, 176400, 192000, 8000, 16000, 22050, 24000, 32000, 44100, 48000, 96000].getD sr 0
        let bits := if sz = 0 then i.bits else [0, 8, 12, 0, 16, 20, 24, 32].getD sz 0
        let nch := if ch < 8 then ch + 1 else 2
        if bs = 0 ∨ 65535 < block ∨ sr = 15 ∨ 192000 < rate ∨ 10 < ch ∨ sz = 3 ∨ bit (byteAt b 3) 0 ∨ bits ≠ i.bits ∨
            nch ≠ i.channels then err St.AUD_FLAC_UNSUPPORTED
        else .ok { variable_ := bit (byteAt b 1) 0, block := block, rate := rate, chans := ch, bits := bits, number := num,
                   len := len }

/-- The header's number is the one that follows on: frame number, or sample number. -/
def FlacHdr.follows (h : FlacHdr) (frame sample : Nat) : Bool :=
  if h.variable_ then h.number == sample else h.number == frame

/-! ### FLAC subframes -/

/-- n bits, most significant first; the input's end is AUD_TRUNCATED. -/
def flacBits (n : Nat) (r : BitsM) : Res (Nat × BitsM) := r.take St.AUD_TRUNCATED n

/-- Zero bits before the next one bit. -/
def flacUnary : Nat → Nat → BitsM → Res (Nat × BitsM)
  | 0, _, _ => err St.AUD_TRUNCATED
  | f + 1, k, r => do
    let (b, r) ← r.one St.AUD_TRUNCATED
    if b = 1 then return (k, r) else flacUnary f (k + 1) r

/-- n signed numbers of w bits. -/
def flacRaw (w : Nat) : Nat → BitsM → Res (List Int × BitsM)
  | 0, r => .ok ([], r)
  | n + 1, r => do
    let (v, r) ← flacBits w r
    let (l, r) ← flacRaw w n r
    return ((if w = 0 then 0 else signed w v) :: l, r)

/-- n Rice-coded residuals; one outside 32 bits, or −2^31, is a residual overflow. -/
def flacRice (fuel k : Nat) : Nat → BitsM → Res (List Int × BitsM)
  | 0, r => .ok ([], r)
  | n + 1, r => do
    let (q, r) ← flacUnary fuel 0 r
    let (x, r) ← flacBits k r
    let u := q * 2 ^ k + x
    let v : Int := if u % 2 = 0 then (u / 2 : Nat) else -((u / 2 : Nat) : Int) - 1
    if v.natAbs ≥ 2 ^ 31 then err St.AUD_FLAC_SUBFRAME
    else
      let (l, r) ← flacRice fuel k n r
      return (v :: l, r)

/-- Partitions of the residual: counts of each, in order. -/
def flacParts (fuel pbits : Nat) : List Nat → BitsM → Res (List Int × BitsM)
  | [], r => .ok ([], r)
  | n :: ns, r => do
    let (k, r) ← flacBits pbits r
    let (l, r) ← (if k = 2 ^ pbits - 1 then do
        let (w, r) ← flacBits 5 r
        flacRaw w n r
      else flacRice fuel k n r : Res (List Int × BitsM))
    let (m, r) ← flacParts fuel pbits ns r
    return (l ++ m, r)

/-- The residual of a block with a predictor order. -/
def flacResidual (fuel block order : Nat) (r : BitsM) : Res (List Int × BitsM) := do
  let (method, r) ← flacBits 2 r
  let (po, r) ← flacBits 4 r
  if 1 < method ∨ block % 2 ^ po ≠ 0 ∨ block / 2 ^ po < order then err St.AUD_FLAC_SUBFRAME
  else
    let n := block / 2 ^ po
    flacParts fuel (4 + method) ((n - order) :: List.replicate (2 ^ po - 1) n) r

/-- Coefficients of the fixed predictors, nearest sample first. -/
def fixedCoefs (o : Nat) : List Int :=
  match o with | 0 => [] | 1 => [1] | 2 => [2, -1] | 3 => [3, -3, 1] | _ => [4, -6, 4, -1]

/-- Samples restored from the residual: history newest first. -/
def flacPredict (coefs : List Int) (shift : Nat) : List Int → List Int → List Int
  | [], hist => hist
  | e :: es, hist => flacPredict coefs shift es ((((coefs.zip hist).map fun p => p.1 * p.2).sum / 2 ^ shift + e) :: hist)

/-- One subframe: its samples. -/
def flacSubframe (fuel block bps : Nat) (r : BitsM) : Res (List Int × BitsM) := do
  let (z, r) ← flacBits 1 r
  let (t, r) ← flacBits 6 r
  let (wf, r) ← flacBits 1 r
  let (wasted, r) ← (if wf = 1 then do
      let (k, r) ← flacUnary fuel 0 r
      return (k + 1, r) else .ok (0, r) : Res (Nat × BitsM))
  if z ≠ 0 ∨ bps ≤ wasted then err St.AUD_FLAC_SUBFRAME
  else
    let bps := bps - wasted
    let (l, r) ← (if t = 0 then do
        let (v, r) ← flacRaw bps 1 r
        return (List.replicate block (v.headD 0), r)
      else if t = 1 then flacRaw bps block r
      else if 8 ≤ t ∧ t ≤ 12 then do
        let o := t - 8
        if block < o then err St.AUD_FLAC_SUBFRAME
        else
          let (w, r) ← flacRaw bps o r
          let (e, r) ← flacResidual fuel block o r
          return ((flacPredict (fixedCoefs o) 0 e w.reverse).reverse, r)
      else if 32 ≤ t then do
        let o := t - 31
        if block < o then err St.AUD_FLAC_SUBFRAME
        else
          let (w, r) ← flacRaw bps o r
          let (p, r) ← flacBits 4 r
          let (s, r) ← flacBits 5 r
          if p = 15 ∨ 16 ≤ s then err St.AUD_FLAC_SUBFRAME
          else
            let (c, r) ← flacRaw (p + 1) o r
            let (e, r) ← flacResidual fuel block o r
            return ((flacPredict c s e w.reverse).reverse, r)
      else err St.AUD_FLAC_SUBFRAME : Res (List Int × BitsM))
    return (l.map (· * 2 ^ wasted), r)

/-- Subframes of the channels, with the side channel one bit wider. -/
def flacSubframes (fuel : Nat) (h : FlacHdr) : List Nat → BitsM → Res (List (List Int) × BitsM)
  | [], r => .ok ([], r)
  | c :: cs, r => do
    let side := (h.chans = 8 ∧ c = 1) ∨ (h.chans = 9 ∧ c = 0) ∨ (h.chans = 10 ∧ c = 1)
    let (l, r) ← flacSubframe fuel h.block (h.bits + if side then 1 else 0) r
    let (m, r) ← flacSubframes fuel h cs r
    return (l :: m, r)

/-- The stereo decorrelation of one pair. -/
def flacStereo (mode : Nat) (a b : Int) : List Int :=
  if mode = 8 then [a, a - b]
  else if mode = 9 then [a + b, b]
  else
    let m := 2 * a + b % 2
    [(m + b) / 2, (m - b) / 2]

/-- A whole frame: header, subframes, CRC-16. Its samples frame by frame, and the bytes after it. -/
def flacFrame (h : FlacHdr) (b : Bytes) : Res (List (List Int) × Bytes) := do
  let r : BitsM := { rest := b.drop h.len }
  let n := if h.chans < 8 then h.chans + 1 else 2
  let (chs, r) ← flacSubframes (8 * b.length + 8) h (List.range n) r
  if r.rest.length < 2 then err St.AUD_TRUNCATED
  else
    let used := b.length - r.rest.length
    if crc16 (b.take used) ≠ beNat (cut b used 2) then err St.AUD_FLAC_FRAME_CRC
    else
      let chs := chs.map List.toArray
      let frames := (List.range h.block).map fun i =>
        let v := chs.map fun c => c.getD i 0
        if h.chans < 8 then v else flacStereo h.chans (v.getD 0 0) (v.getD 1 0)
      return (frames, b.drop (used + 2))

/-! ### FLAC windows (R195, R196) -/

/-- The next frame by its sync code: header passes CRC-8 and its number follows on. -/
def flacLocate (i : FlacInfo) (frame sample : Nat) : Bytes → Option Bytes
  | [] => none
  | x :: xs =>
    match flacHdr i (x :: xs) with
    | .ok h => if h.follows frame sample then some (x :: xs) else flacLocate i frame sample xs
    | .error _ => flacLocate i frame sample xs

/-- Frames from a place in the stream until the end sample: those wholly before start are skipped. Gathers
(first sample, samples) and says at which sample the reading ended. -/
def flacFrames (i : FlacInfo) (start : Nat) (stop : Option Nat) :
    Nat → Nat → Nat → Bytes → Res (List (Nat × List (List Int)) × Nat)
  | 0, _, sample, _ => .ok ([], sample)
  | f + 1, frame, sample, b => do
    if stop.any fun e => decide (e ≤ sample) then return ([], sample)
    else if b = [] then (if stop.isSome ∧ i.total ≠ 0 then err St.AUD_TRUNCATED else return ([], sample))
    else
      let h ← flacHdr i b
      if ¬h.follows frame sample then err St.AUD_FLAC_SYNC
      else if sample + h.block ≤ start then
        match flacLocate i (frame + 1) (sample + h.block) (b.drop h.len) with
        | none => if i.total = 0 then return ([], sample + h.block) else err St.AUD_FLAC_SYNC
        | some b => flacFrames i start stop f (frame + 1) (sample + h.block) b
      else
        let (l, b) ← flacFrame h b
        let (m, e) ← flacFrames i start stop f (frame + 1) (sample + h.block) b
        return ((sample, l) :: m, e)

/-- The seek point for a start: the last one at or before it (R196). -/
def flacSeek (i : FlacInfo) (start : Nat) : Nat × Nat :=
  (i.seeks.filter fun s => decide (s.1 ≤ start)).foldl (fun a s => if a.1 ≤ s.1 then s else a) (0, 0)

/-- MD5 input of RFC 9639: samples interleaved, little-endian, whole bytes. -/
def flacMd5Bytes (bits : Nat) (frames : List (List Int)) : Bytes :=
  frames.flatMap fun f => f.flatMap fun s => le ((bits + 7) / 8) (toBits (8 * ((bits + 7) / 8)) s)

/-- DECODE_FLAC. -/
def decodeFlacBytes (c : AudCtl) (b : Bytes) : Res Bytes := do
  if b.take 4 ≠ ascii "fLaC" then err St.AUD_FLAC_MAGIC
  else if b.length < 8 then err St.AUD_TRUNCATED
  else if byteAt b 4 % 128 ≠ 0 ∨ beNat (cut b 5 3) ≠ 34 then err St.AUD_FLAC_MAGIC
  else if b.length < 42 then err St.AUD_TRUNCATED
  else
    let i := flacInfo (cut b 8 34)
    let (i, b) ← flacBlocks (b.length + 1) (bit (byteAt b 4) 7) (b.drop 42) i
    if i.bits < 4 ∨ 192000 < i.rate then err St.AUD_FLAC_UNSUPPORTED
    else
      audRate c i.rate
      if c.window.any fun w => w.2 == 0 || decide (16777216 < w.2) then err St.AUD_WINDOW
      else if i.total ≠ 0 ∧ c.window.any (fun w => decide (i.total ≤ w.1)) then err St.AUD_WINDOW
      else
        let start := (c.window.map (·.1)).getD 0
        let stop := match c.window with
          | some w => some (if i.total = 0 then w.1 + w.2 else min i.total (w.1 + w.2))
          | none => if i.total = 0 then none else some i.total
        let at_ := flacSeek i start
        let frame0 := match flacHdr i (b.drop at_.2) with
          | .ok h => if h.variable_ then 0 else if at_.1 = 0 then 0 else at_.1 / i.minBlock
          | .error _ => 0
        let (l, ended) ← flacFrames i start stop (b.length + 1) frame0 at_.1 (b.drop at_.2)
        if i.total = 0 ∧ c.window.any (fun w => decide (ended ≤ w.1)) then err St.AUD_WINDOW
        else
          let total := if i.total = 0 then (if c.window = none then ended else 0) else i.total
          let count := match c.window with | some w => w.2 | none => total
          let whole := l.head?.any (fun x => x.1 == 0) && (i.total != 0 && decide (i.total ≤ ended) || stop.isNone)
          let all := l.flatMap (·.2)
          let first := (l.head?.map (·.1)).getD 0
          let avail := if i.total = 0 then all else all.take (i.total - first)
          let check := whole && i.md5.any (· != 0)
          if check ∧ md5 (flacMd5Bytes i.bits avail) ≠ i.md5 then err St.AUD_FLAC_MD5
          else
            return audBytes c { rate := i.rate, channels := i.channels, bits := i.bits, float := false, source := 3,
                                total := total, md5 := check, start := start, count := count,
                                frames := (avail.drop (start - first)).take count }

/-- DECODE_AUDIO (R167). -/
def decodeAudioBytes (c : AudCtl) (b : Bytes) : Res Bytes :=
  if b.take 4 = ascii "RIFF" ∧ cut b 8 4 = ascii "WAVE" then decodeWavBytes c b
  else if b.take 4 = ascii "fLaC" then decodeFlacBytes c b
  else err St.AUD_NOT_AUDIO

end Sys2Proof.Machine
end

