-- ==== Sys2Proof/Machine/Transform.lean ====
section
/-! DEFINITION. Vector transforms and number formats (R201 to R236): each stage as a function of its input bytes and
operand values. -/

namespace Sys2Proof.Machine

open Sys2Proof

/-! ### Records a VTE reads and writes (R201, R202) -/

/-- IMGD header fields a VTE keeps (R202). -/
structure ImgHdr where
  srcW : Nat
  srcH : Nat
  frame : Nat
  source : Nat
  layout : Nat
  region : Bool
  ox : Nat
  oy : Nat
  deriving Repr, DecidableEq, Inhabited

/-- A record as an array: an image's header when it is an IMGD, else a tensor; elements as codes in row-major order. -/
structure Arr where
  /-- IMGD header fields kept -/
  img : Option ImgHdr
  dtype : Nat
  dims : List Nat
  elems : Array Nat
  deriving Repr, DecidableEq, Inhabited

/-- Elements of bytes, size bytes each. -/
def elemsOf (size : Nat) : Nat → Bytes → List Nat
  | 0, _ => []
  | n + 1, b => leNat (b.take size) :: elemsOf size n (b.drop size)

/-- Dimension k of an array. -/
def Arr.dim (a : Arr) (k : Nat) : Nat := a.dims.getD k 1

/-- Largest sample of an image, M. -/
def Arr.maxv (a : Arr) : Nat := if a.dtype = 0x0D then 65535 else 255

/-- Element at row y, column x, channel c of a rank 3 array. -/
def Arr.at (a : Arr) (y x c : Nat) : Nat := a.elems.getD ((y * a.dim 1 + x) * a.dim 2 + c) 0

/-- An IMGD record, checked (R201). -/
def readImgd (b : Bytes) : Option Arr :=
  let ch := fld b 6 1
  let depth := fld b 7 1
  let w := fld b 8 4
  let h := fld b 12 4
  let n := w * h * ch
  if b.take 4 ≠ ascii "IMGD" ∨ fld b 4 2 ≠ 1 ∨ ch = 0 ∨ 4 < ch ∨ (depth ≠ 8 ∧ depth ≠ 16) ∨ w = 0 ∨ h = 0 ∨
      fld b 40 8 ≠ n * depth / 8 ∨ b.length ≠ 64 + n * depth / 8 then none
  else some { img := some { srcW := fld b 16 4, srcH := fld b 20 4, frame := fld b 32 4, source := fld b 37 1, layout := fld b 36 1,
                            region := bit (fld b 38 2) 0, ox := fld b 24 4, oy := fld b 28 4 }
              dtype := if depth = 16 then 0x0D else 0x0B
              dims := [h, w, ch]
              elems := (elemsOf (depth / 8) n (b.drop 64)).toArray }

/-- A TNSR record of a format that is not MX, checked; VTE_SHAPE for an MX or undefined format (R201, R234). -/
def readTnsr (b : Bytes) : Res Arr :=
  match tensorOf b with
  | none => err St.VTE_RECORD
  | some t =>
    if ¬tensorType t.dtype then err St.VTE_SHAPE
    else
      let n := t.dims.foldl (· * ·) 1
      if b.length ≠ t.offset + n * elemBytes t.dtype then err St.VTE_RECORD
      else .ok { img := none, dtype := t.dtype, dims := t.dims.take t.rank,
                 elems := (elemsOf (elemBytes t.dtype) n (b.drop t.offset)).toArray }

/-- An IMGD or a TNSR. -/
def readArr (b : Bytes) : Res Arr :=
  if b.take 4 = ascii "IMGD" then
    match readImgd b with
    | some a => .ok a
    | none => err St.VTE_RECORD
  else readTnsr b

/-- An IMGD only. -/
def readImage (b : Bytes) : Res Arr :=
  match readImgd b with
  | some a => .ok a
  | none => err St.VTE_RECORD

/-- Limits of a stage's output (Table 7.9): image dimensions and elements. -/
def outLimit (image : Bool) (dims : List Nat) : Res Unit :=
  if (image ∧ (dims.take 2).any fun d => decide (32768 < d)) ∨ 2 ^ 34 < dims.foldl (· * ·) 1 then err St.VTE_SIZE_LIMIT else .ok ()

/-- A record written by a VTE (R202). -/
def Arr.bytes (a : Arr) : Bytes :=
  let data := a.elems.toList.flatMap (le (elemBytes a.dtype))
  match a.img with
  | some i =>
    layout 64 [(0, ascii "IMGD"), (4, le 2 1), (6, le 1 (a.dim 2)), (7, le 1 (elemBits a.dtype)), (8, le 4 (a.dim 1)),
      (12, le 4 (a.dim 0)), (16, le 4 i.srcW), (20, le 4 i.srcH), (24, le 4 i.ox), (28, le 4 i.oy), (32, le 4 i.frame),
      (36, le 1 i.layout), (37, le 1 i.source), (38, le 2 (b2n i.region)), (40, le 8 data.length)] ++ data
  | none => tensorHeader a.dtype a.dims.length (fit4 a.dims) ++ data
where
  /-- Dimensions with the unused ones 1. -/
  fit4 (l : List Nat) : List Nat := (l ++ [1, 1, 1, 1]).take 4

/-- The output with ORIGIN 0 (R202). -/
def Arr.atOrigin (a : Arr) : Arr :=
  { a with img := a.img.map fun (i : ImgHdr) => { i with ox := 0, oy := 0 } }

/-- A rank 3 array built pixel by pixel. -/
def buildPixels (h w : Nat) (f : Nat → Nat → List Nat) : Array Nat :=
  ((List.range h).flatMap fun y => (List.range w).flatMap fun x => f y x).toArray

/-- Channels of pixel (y, x). -/
def Arr.pixel (a : Arr) (y x : Nat) : List Nat := (List.range (a.dim 2)).map fun c => a.at y x c

/-- Rank 3 required. -/
def needRank3 (a : Arr) : Res Unit := if a.dims.length ≠ 3 then err St.VTE_SHAPE else .ok ()

/-- An IMGD, or a TNSR FP32 of rank 3 (Table 7.1). -/
def needImageOrF32 (a : Arr) : Res Unit :=
  if a.dims.length ≠ 3 ∨ (a.img.isNone ∧ a.dtype ≠ 1) then err St.VTE_SHAPE else .ok ()

/-! ### Geometry (R211 to R218) -/

/-- CROP (R211). -/
def vteCrop (op : Bytes) (relative : Bool) (b : Bytes) : Res Bytes := do
  let a ← readArr b
  needRank3 a
  match regionOf op relative (a.dim 1) (a.dim 0) with
  | none => err St.VTE_REGION
  | some r =>
    outLimit true [r.h, r.w, a.dim 2]
    let out : Arr := { a with
      img := a.img.map fun (i : ImgHdr) => { i with region := true, ox := i.ox + r.x, oy := i.oy + r.y }
      dims := [r.h, r.w, a.dim 2]
      elems := buildPixels r.h r.w fun y x => a.pixel (r.y + y) (r.x + x) }
    return out.bytes

/-- One quarter turn clockwise (R212). -/
def quarter (a : Arr) : Arr :=
  let h := a.dim 0
  { a with dims := [a.dim 1, h, a.dim 2], elems := buildPixels (a.dim 1) h fun r c => a.pixel (h - 1 - c) r }

/-- n quarter turns. -/
def quarters : Nat → Arr → Arr
  | 0, a => a
  | n + 1, a => quarters n (quarter a)

/-- FLIP_ROTATE (R212). -/
def vteFlipRotate (code : Nat) (b : Bytes) : Res Bytes := do
  let a ← readArr b
  needRank3 a
  if 16 ≤ code then err St.VTE_PARAM
  else
    let h := a.dim 0
    let w := a.dim 1
    let px := buildPixels h w fun y x => a.pixel (if bit code 1 then h - 1 - y else y) (if bit code 0 then w - 1 - x else x)
    let f := { a with elems := px }
    let r := quarters (code / 4) f
    outLimit true r.dims
    return r.atOrigin.bytes

/-- Source index and fraction of an output index (R214). -/
def grid (d nIn nOut : Nat) : Int × Int :=
  let num : Int := (2 * d + 1) * nIn - nOut
  let den : Int := 2 * nOut
  let i0 := num / den
  let rem := num - i0 * den
  let t := (rem * 32768 + den) / (2 * den)
  if t = 16384 then (i0 + 1, 0) else (i0, t)

/-- An index clamped to the source. -/
def clampIdx (i : Int) (n : Nat) : Nat := (max 0 (min ((n : Int) - 1) i)).toNat

/-- A rational p/q rounded to an integer, ties away from zero. -/
def roundAway (p : Int) (q : Nat) : Int :=
  let m := (2 * p.natAbs + q) / (2 * q)
  if p < 0 then -(m : Int) else m

/-- Numerator over 2^43 of W(x / 2^14) × 2^14 for bicubic, a = −1/2 (R216). -/
def bicubicNum (x : Int) : Int :=
  let u : Int := 16384
  -- W is over 2 × u^3: |x| ≤ 1: 3x³ − 5x² u + 2u³; 1 < |x| < 2: −x³ + 5x² u − 8x u² + 4u³
  if x ≤ u then 3 * x * x * x - 5 * x * x * u + 2 * u * u * u
  else if x < 2 * u then -(x * x * x) + 5 * x * x * u - 8 * x * u * u + 4 * u * u * u
  else 0

/-- A bicubic weight of a tap at distance x in units of 2^−14. -/
def bicubicW (x : Int) : Int := roundAway (bicubicNum x * 16384) (2 * 16384 ^ 3)

/-- Taps (source index, weight) of output d for kernels 0 nearest, 1 bilinear, 2 bicubic, 3 area. -/
def taps (kernel nIn nOut d : Nat) : List (Nat × Int) :=
  match kernel with
  | 0 => [(min ((2 * d + 1) * nIn / (2 * nOut)) (nIn - 1), 1)]
  | 1 =>
    let (i, t) := grid d nIn nOut
    [(clampIdx i nIn, 16384 - t), (clampIdx (i + 1) nIn, t)]
  | 2 =>
    let (i, t) := grid d nIn nOut
    let w0 := bicubicW (16384 + t)
    let w3 := bicubicW (32768 - t)
    let (w1, w2) := if 8192 < t then (bicubicW t, 16384 - (w0 + bicubicW t + w3))
      else (16384 - (w0 + bicubicW (16384 - t) + w3), bicubicW (16384 - t))
    [(clampIdx (i - 1) nIn, w0), (clampIdx i nIn, w1), (clampIdx (i + 1) nIn, w2), (clampIdx (i + 2) nIn, w3)]
  | _ =>
    let lo := d * nIn / nOut
    ((List.range (nIn / nOut + 2)).map fun j =>
      let k := lo + j
      (k, max 0 ((min ((d + 1) * nIn) ((k + 1) * nOut) : Int) - (max (d * nIn) (k * nOut) : Int)))).filter fun p => p.1 < nIn && p.2 != 0

/-- Output size of RESIZE; none where out of range (R213). -/
def resizeDims (sw sh ow oh : Nat) : Option (Nat × Nat) :=
  if (ow = 0 ∧ oh = 0) ∨ 32768 < ow ∨ 32768 < oh then none
  else if ow = 0 then some (max 1 ((2 * sw * oh + sh) / (2 * sh)), oh)
  else if oh = 0 then some (ow, max 1 ((2 * sh * ow + sw) / (2 * sw)))
  else some (ow, oh)

/-- RESIZE (R213 to R218): ow and oh as given. -/
def vteResize (ow oh kernel : Nat) (b : Bytes) : Res Bytes := do
  let a ← readImage b
  let sw := a.dim 1
  let sh := a.dim 0
  let n := a.dim 2
  match resizeDims sw sh ow oh with
  | none => err St.VTE_PARAM
  | some (w, h) =>
    outLimit true [h, w, n]
    let tx := ((List.range w).map (taps kernel sw w)).toArray
    let ty := (List.range h).map (taps kernel sh h)
    let hor : Array Int := ((List.range sh).flatMap fun y => tx.toList.flatMap fun t => (List.range n).map fun c =>
      (t.map fun p => p.2 * (a.at y p.1 c : Int)).sum).toArray
    let fin (v : Int) : Nat :=
      if kernel = 0 then v.toNat
      else if kernel = 3 then
        let D : Int := (sw * sh : Nat)
        ((2 * v + D) / (2 * D)).toNat
      else (max 0 (min (a.maxv : Int) ((v + 2 ^ 27) / 2 ^ 28))).toNat
    let out := (ty.flatMap fun t => (List.range (w * n)).map fun i =>
      fin ((t.map fun p => p.2 * hor.getD (p.1 * (w * n) + i) 0).sum)).toArray
    return { a.atOrigin with dims := [h, w, n], elems := out : Arr }.bytes

/-! ### Colour, normalise and layout (R219 to R224) -/

/-- 0.299, 0.587 and 0.114 as FP32, and the other constants of R220. -/
def fDec (p : Int) : Nat := fratio p 1000

/-- lum(r, g, b) (R220). -/
def lum (r g b : Nat) : Nat := ffma (fDec 114) b (ffma (fDec 587) g (fmul (fDec 299) r))

/-- Clamp to 0.0 to 1.0. -/
def clamp01 (x : Nat) : Nat := fclamp x 0 fOne

/-- Steps 3 to 5 on a colour pixel. -/
def colourSteps (en sat k s : Nat) (p : List Nat) : List Nat :=
  match p with
  | [r, g, b] =>
    let (r, g, b) := if bit en 2 then
        let y := lum r g b
        let f c := clamp01 (ffma (fsub c y) sat y)
        (f r, f g, f b) else (r, g, b)
    let (r, g, b) := if bit en 3 then
        let y := lum r g b
        let i := ffma (fDec (-322)) b (ffma (fDec (-274)) g (fmul (fDec 596) r))
        let q := ffma (fDec 312) b (ffma (fDec (-523)) g (fmul (fDec 211) r))
        let i2 := ffma i k (fneg (fmul q s))
        let q2 := ffma i s (fmul q k)
        (clamp01 (ffma (fDec 621) q2 (ffma (fDec 956) i2 y)), clamp01 (ffma (fDec (-647)) q2 (ffma (fDec (-272)) i2 y)),
         clamp01 (ffma (fDec 1703) q2 (ffma (fDec (-1106)) i2 y))) else (r, g, b)
    if bit en 4 then
      let y := clamp01 (lum r g b)
      [y, y, y]
    else [r, g, b]
  | p => p

/-- COLOUR (R219, R220). -/
def vteColour (op : Bytes) (b : Bytes) : Res Bytes := do
  let a ← readImage b
  let en := fld op 0 4
  let beta := fld op 4 4
  let gamma := fld op 8 4
  let sat := fld op 12 4
  let badFactor (v : Nat) : Bool := fisNan v || !(fv 0).le (fv v)
  if 32 ≤ en ∨ fld op 24 8 ≠ 0 ∨ badFactor beta ∨ badFactor gamma ∨ badFactor sat ∨ fisNan (fld op 16 4) ∨ fisNan (fld op 20 4) then
    err St.VTE_PARAM
  else
    let n := a.dim 2
    let cc := if n ≤ 2 then 1 else 3
    let m := fint a.maxv
    let total := ((List.range (a.dim 0)).map fun y => ((List.range (a.dim 1)).map fun x =>
      if cc = 1 then a.at y x 0 else greyOf (a.at y x 0) (a.at y x 1) (a.at y x 2)).sum).sum
    let mean := fratio (total : Int) (a.dim 0 * a.dim 1 * a.maxv)
    let pix (p : List Nat) : List Nat :=
      let x := p.map fun (v : Nat) => fdiv (fint (v : Int)) m
      let col := x.take cc
      let col := if bit en 0 then col.map fun v => clamp01 (fmul v beta) else col
      let col := if bit en 1 then col.map fun v => clamp01 (ffma (fsub v mean) gamma mean) else col
      colourSteps en sat (fld op 16 4) (fld op 20 4) col ++ x.drop cc
    outLimit true a.dims
    return { img := none, dtype := 1, dims := a.dims, elems := buildPixels (a.dim 0) (a.dim 1) fun y x => pix (a.pixel y x) : Arr }.bytes

/-- NORMALISE (R221). -/
def vteNormalise (op : Bytes) (b : Bytes) : Res Bytes := do
  let a ← readArr b
  needImageOrF32 a
  let n := a.dim 2
  if op.length < 8 * n then err St.VTE_PARAM
  else
    outLimit true a.dims
    let es := (a.elems.toList.zipIdx.map fun p =>
      let c := p.2 % n
      let x := if a.img.isSome then fint p.1 else p.1
      ffma x (fld op (8 * c) 4) (fld op (8 * c + 4) 4)).toArray
    return { img := none, dtype := 1, dims := a.dims, elems := es : Arr }.bytes

/-- Row-major index of coordinates. -/
def ravel (dims coords : List Nat) : Nat := (dims.zip coords).foldl (fun a p => a * p.1 + p.2) 0

/-- Coordinates of a row-major index. -/
def unravel (dims : List Nat) (i : Nat) : List Nat :=
  (dims.reverse.foldl (fun (p : Nat × List Nat) d => (p.1 / d, p.1 % d :: p.2)) (i, [])).2

/-- LAYOUT (R222). -/
def vteLayout (imm : Nat) (b : Bytes) : Res Bytes := do
  let a ← (if b.take 4 = ascii "IMGD" then err St.VTE_RECORD else readTnsr b : Res Arr)
  let r := a.dims.length
  let perm := (List.range r).map fun k => imm / 4 ^ k % 4
  if perm.any (fun p => decide (r ≤ p)) then err St.VTE_SHAPE
  else
    let dims := perm.map a.dim
    let n := dims.foldl (· * ·) 1
    let src (o : Nat) : Nat :=
      let oc := unravel dims o
      let ic := (List.range r).map fun j =>
        let v := oc.getD (perm.findIdx (· == j)) 0
        if bit imm 8 ∧ j + 1 = r then a.dim j - 1 - v else v
      ravel a.dims ic
    return { a with dims := dims, elems := ((List.range n).map fun o => a.elems.getD (src o) 0).toArray : Arr }.bytes

/-- A rectangle clipped to an image: (x, y, x end, y end). -/
def clipRect (x y w h iw ih : Nat) : Nat × Nat × Nat × Nat := (x, y, min iw (x + w), min ih (y + h))

/-- CUTOUT (R223). -/
def vteCutout (op : Bytes) (b : Bytes) : Res Bytes := do
  let a ← readArr b
  needImageOrF32 a
  let n := fld op 0 4
  if 4 < a.dim 2 then err St.VTE_SHAPE
  else if 4 < n ∨ op.length < 32 + 16 * n ∨ fld op 4 12 ≠ 0 then err St.VTE_PARAM
  else
    outLimit true a.dims
    let fill c :=
      let v := fld op (16 + 4 * c) 4
      if a.img.isSome then (convInt (if a.maxv = 255 then 8 else 16) false .nearest (fv v)).code else v
    let rects := (List.range n).map fun k =>
      let f i := fld op (32 + 16 * k + 4 * i) 4
      clipRect (f 0) (f 1) (f 2) (f 3) (a.dim 1) (a.dim 0)
    let inside (y x : Nat) : Bool := rects.any fun (x0, y0, x1, y1) => x0 ≤ x && x < x1 && y0 ≤ y && y < y1
    let px := buildPixels (a.dim 0) (a.dim 1) fun y x => if inside y x then (List.range (a.dim 2)).map fill else a.pixel y x
    return { a.atOrigin with elems := px : Arr }.bytes

/-- MIX (R224): a is IN, b2 the second input. -/
def vteMix (second op : Bytes) (b : Bytes) : Res Bytes := do
  let a ← readArr b
  let c ← readArr second
  needImageOrF32 a
  if a.dims ≠ c.dims ∨ a.dtype ≠ c.dtype ∨ a.img.isSome ≠ c.img.isSome then err St.VTE_SHAPE
  else if 1 < fld op 0 4 ∨ fld op 24 8 ≠ 0 then err St.VTE_PARAM
  else if fld op 0 4 = 0 then
    if a.dtype ≠ 1 then err St.VTE_SHAPE
    else
      outLimit true a.dims
      let lam := fld op 4 4
      return { a with elems := ((a.elems.toList.zip c.elems.toList).map fun p => ffma lam (fsub p.1 p.2) p.2).toArray : Arr }.bytes
  else
    outLimit true a.dims
    let (x0, y0, x1, y1) := clipRect (fld op 8 4) (fld op 12 4) (fld op 16 4) (fld op 20 4) (a.dim 1) (a.dim 0)
    let px := buildPixels (a.dim 0) (a.dim 1) fun y x =>
      if x0 ≤ x ∧ x < x1 ∧ y0 ≤ y ∧ y < y1 then c.pixel y x else a.pixel y x
    return { a.atOrigin with elems := px : Arr }.bytes

/-! ### Audio spectra (R225 to R228) -/

/-- An AUDD record's samples as FP32, with its RATE; none where the record is not one. -/
def readAudd (b : Bytes) : Option (Nat × Nat × List Nat) :=
  let ch := fld b 6 1
  let fmt := fld b 7 1
  let n := fld b 12 4
  let size := if fmt = 1 then 2 else 4
  if b.take 4 ≠ ascii "AUDD" ∨ fld b 4 2 ≠ 1 ∨ ch = 0 ∨ 8 < ch ∨ fmt = 0 ∨ 3 < fmt ∨ fld b 40 8 ≠ n * ch * size ∨
      b.length ≠ 64 + n * ch * size then none
  else some (ch, fld b 8 4, (elemsOf size (n * ch) (b.drop 64)).map fun v =>
    if fmt = 1 then fmul (fint (signed 16 v)) 0x38000000
    else if fmt = 2 then fmul (fint (signed 32 v)) 0x30000000 else v)

/-- Window coefficient n of N (R226). -/
def windowCoef (kind nfft n : Nat) : Nat :=
  if kind = 0 then fOne
  else
    let c := fxCosTurn n nfft
    if kind = 1 then fxToF32 ((fxOne - c) / 2)
    else fxToF32 (fxOfF32 (fratio 54 100) - fxMul (fxOfF32 (fratio 46 100)) c)

/-- Bit reversal of i in k bits. -/
def bitRev : Nat → Nat → Nat
  | 0, _ => 0
  | k + 1, i => i % 2 * 2 ^ k + bitRev k (i / 2)

/-- Stage s of the FFT on (re, im) (R227). -/
def fftStage (h : Nat) (v : Array (Nat × Nat)) : Array (Nat × Nat) :=
  let tw := ((List.range h).map fun j => (fxToF32 (fxCosTurn j (2 * h)), fxToF32 (fxSinTurn j (2 * h)))).toArray
  ((List.range v.size).map fun i =>
    let j := i % (2 * h)
    let base := i - j + j % h
    let a := v.getD base (0, 0)
    let b := v.getD (base + h) (0, 0)
    let (co, sn) := tw.getD (j % h) (0, 0)
    let tr := ffma b.1 co (fmul b.2 sn)
    let ti := ffma b.2 co (fneg (fmul b.1 sn))
    if j < h then (fadd a.1 tr, fadd a.2 ti) else (fsub a.1 tr, fsub a.2 ti)).toArray

/-- Stages s of k. -/
def fftStages : Nat → Nat → Array (Nat × Nat) → Array (Nat × Nat)
  | 0, _, v => v
  | k + 1, h, v => fftStages k (2 * h) (fftStage h v)

/-- The STFT block checked (Table 7.5). -/
def stftOk (op : Bytes) : Bool :=
  let n := fld op 0 2
  decide (64 ≤ n) && decide (n ≤ 4096) && decide (2 ^ n.log2 = n) && decide (1 ≤ fld op 2 2) && decide (fld op 2 2 ≤ n) &&
    decide (fld op 4 1 ≤ 2) && decide (fld op 5 1 ≤ 2) && (fld op 6 1 == 1 || fld op 6 1 == 2) && fld op 7 9 == 0

/-- The mel block checked against a rate. -/
def melOk (op : Bytes) (rate : Nat) : Bool :=
  let lo := fv (fld op 4 4)
  let hi := fv (fld op 8 4)
  let eps := fv (fld op 12 4)
  decide (1 ≤ fld op 0 2) && decide (fld op 0 2 ≤ 256) && decide (fld op 2 1 ≤ 1) && fld op 3 1 == 0 && (fv 0).le lo && lo.le hi &&
    !hi.le lo && hi.le (.fin false rate (-1)) && (fv 0).le eps && !eps.le (fv 0)

/-- Mel points f_0 to f_(n + 1) in fixed point (R228). -/
def melPoints (op : Bytes) : List Int :=
  let n := fld op 0 2
  let lg (v : Nat) : Int :=
    let x := fxOne + fxOfF32 v / 700
    fxLn x.toNat (-(fxBits : Int))
  let a := lg (fld op 4 4)
  let b := lg (fld op 8 4)
  (List.range (n + 2)).map fun (j : Nat) => 700 * (fxExp (a + (b - a) * (j : Int) / ((n + 1 : Nat) : Int)) - fxOne)

/-- Weight of a triangle at x, correctly rounded. -/
def melWeight (f0 f1 f2 x : Int) : Nat :=
  if x ≤ f0 ∨ f2 ≤ x then 0
  else if x ≤ f1 then fxToF32 (fxDiv (x - f0) (f1 - f0)) else fxToF32 (fxDiv (f2 - x) (f2 - f1))

/-- SPECTRUM. -/
def vteSpectrum (op : Bytes) (mel : Option Bytes) (b : Bytes) : Res Bytes := do
  match readAudd b with
  | none => err St.VTE_RECORD
  | some (ch, rate, xs) =>
    if ch ≠ 1 then err St.VTE_SHAPE
    else if ¬stftOk op ∨ mel.any (fun m => !melOk m rate) then err St.VTE_PARAM
    else
      let n := fld op 0 2
      let hop := fld op 2 2
      let len := xs.length
      let pad := fld op 5 1
      if pad = 2 ∧ len ≤ n / 2 then err St.VTE_SHAPE
      else
        let xa := xs.toArray
        let p := if pad = 0 then len else len + n
        let sample (i : Nat) : Nat :=
          if pad = 0 then xa.getD i 0
          else
            let k : Int := (i : Int) - (n / 2 : Nat)
            if 0 ≤ k ∧ k < len then xa.getD k.toNat 0
            else if pad = 1 then 0
            else if k < 0 then xa.getD (-k).toNat 0 else xa.getD (2 * ((len : Int) - 1) - k).toNat 0
        if p < n then err St.VTE_SHAPE
        else
          let frames := 1 + (p - n) / hop
          let win := ((List.range n).map (windowCoef (fld op 4 1) n)).toArray
          let lg := n.log2
          let bins (f : Nat) : List Nat :=
            let v := ((List.range n).map fun i =>
              let j := bitRev lg i
              (fmul (sample (f * hop + j)) (win.getD j 0), 0)).toArray
            let s := fftStages lg 1 v
            (List.range (n / 2 + 1)).map fun k =>
              let (re, im) := s.getD k (0, 0)
              let pw := ffma re re (fmul im im)
              if fld op 6 1 = 2 then pw else fsqrt pw
          let width := match mel with | none => n / 2 + 1 | some m => fld m 0 2
          outLimit false [frames, width]
          let rows := (List.range frames).flatMap fun f =>
            match mel with
            | none => bins f
            | some m =>
              let pts := (melPoints m).toArray
              let ps := (bins f).zipIdx
              (List.range (fld m 0 2)).map fun j =>
                let acc := ps.foldl (fun acc p =>
                  let x := fxOne * (p.2 * rate : Nat) / (n : Int)
                  ffma (melWeight (pts.getD j 0) (pts.getD (j + 1) 0) (pts.getD (j + 2) 0) x) p.1 acc) 0
                if fld m 2 1 = 1 then fln (fadd acc (fld m 12 4)) else acc
          return { img := none, dtype := 1, dims := [frames, width], elems := rows.toArray : Arr }.bytes

/-! ### CONVERT (R230 to R236) -/

/-- Counts a conversion adds: CONV_SATURATED, CONV_NAN, CONV_OVERFLOW_INF. -/
structure ConvCount where
  saturated : Nat := 0
  nan : Nat := 0
  overInf : Nat := 0
  deriving Repr, DecidableEq, Inhabited

/-- Sum of counts. -/
def ConvCount.add (a b : ConvCount) : ConvCount :=
  { saturated := a.saturated + b.saturated, nan := a.nan + b.nan, overInf := a.overInf + b.overInf }

/-- Counts of one conversion. -/
def Conv.count (c : Conv) : ConvCount := { saturated := b2n c.saturated, nan := b2n c.nanInt, overInf := b2n c.overInf }

/-- Rounding mode of a ROUND field with the element's generator word (R230). -/
def roundOf (field word : Nat) : Round := if field = 0 then .nearest else if field = 1 then .zero else .stochastic word

/-- One element converted: its code and counts. -/
def convertOne (fmt round_ : Nat) (sat : Bool) (v : Val) (word : Nat) : Nat × ConvCount :=
  let c := elemConv fmt (roundOf round_ word) sat v
  (c.code, c.count)

/-- Larger magnitude, as a finite value compared exactly. -/
def absMax (a b : Val) : Val :=
  match a, b with
  | .fin _ m e, .fin _ k f => if (Val.fin false m e).le (Val.fin false k f) then Val.fin false k f else Val.fin false m e
  | a, _ => a

/-- One MX block (R233): element codes, scale code, counts. vs carry their generator words. -/
def mxBlock (fmt round_ : Nat) (vs : List (Val × Nat)) : List Nat × Nat × ConvCount :=
  let special := vs.any fun v => match v.1 with | .fin _ _ _ => false | _ => true
  if special then (vs.map fun _ => 0, 0xFF, { nan := 1 })
  else
    let emax : Int := match fmt with | 6 => 8 | 7 => 4 | _ => 2
    let x : Int := match vs.foldl (fun a v => absMax a v.1) (Val.fin false 0 0) with
      | .fin _ m e => if m = 0 then -127 else max (-127) (min 127 ((m.log2 : Int) + e - emax))
      | _ => -127
    let f := (ffmtOf fmt).getD fmtE2M1
    let cs := vs.map fun v =>
      let scaled := match v.1 with | .fin n m e => Val.fin n m (e - x) | v => v
      f.conv (roundOf round_ v.2) true scaled
    (cs.map (·.code), (x + 127).toNat, (cs.map Conv.count).foldl ConvCount.add {})

/-- Codes of w bits each as a little-endian bit stream. -/
def packCodes (w : Nat) (l : List Nat) : Bytes :=
  let total := w * l.length
  le ((total + 7) / 8) (l.foldr (fun c acc => c + 2 ^ w * acc) 0)

/-- A run of bytes padded with zeros to a multiple of 8. -/
def pad8 (b : Bytes) : Bytes := b ++ zeros (roundUp b.length 8 - b.length)

/-- MX coding of rows of length n: element region, scale region (R233, R234), counts. word m is the generator word. -/
def mxRows (fmt round_ n : Nat) (word : Nat → Nat) (vals : List Val) : Bytes × Bytes × ConvCount :=
  let padded := roundUp n 32
  let rows := chunks n (vals.length + 1) vals
  let all := (rows.flatMap fun r => r ++ List.replicate (padded - r.length) (Val.fin false 0 0)).zipIdx
  let blocks := (chunks 32 (all.length + 1) (all.map fun p => (p.1, word p.2))).map (mxBlock fmt round_)
  (pad8 (packCodes (elemBits fmt) (blocks.flatMap (·.1))), pad8 (blocks.map fun b => BitVec.ofNat 8 b.2.1),
   (blocks.map (·.2.2)).foldl ConvCount.add {})

/-- CONVERT: imm as R230 gives it; word m is the generator word of output element m. -/
def vteConvert (imm : Nat) (word : Nat → Nat) (b : Bytes) : Res (Bytes × ConvCount) := do
  let a ← readArr b
  let fmt := imm % 256
  let rnd := bits imm 9 8
  let sat := bit imm 10
  let n := a.dims.getLastD 1
  let rows := a.dims.dropLast.foldl (· * ·) 1
  if 2 ^ 34 < rows * (if isMx fmt then roundUp n 32 else n) then err St.VTE_SIZE_LIMIT
  else
    let vals := a.elems.toList.map (elemVal a.dtype)
    if isMx fmt then
      let (es, ss, c) := mxRows fmt rnd n word vals
      return (tensorHeader fmt a.dims.length ((a.dims ++ [1, 1, 1, 1]).take 4) ++ es ++ ss, c)
    else
      let r := vals.zipIdx.map fun p => convertOne fmt rnd sat p.1 (word p.2)
      return ({ img := none, dtype := fmt, dims := a.dims, elems := (r.map (·.1)).toArray : Arr }.bytes,
              (r.map (·.2)).foldl ConvCount.add {})

end Sys2Proof.Machine
end

