-- ==== Sys2Proof/Machine/Parcel.lean ====
section
/-! DEFINITION. Placement, token packing and the parcel's bytes (R280 to R298): pure functions. -/

namespace Sys2Proof.Machine

open Sys2Proof

/-! ### PLACE (R283 to R285) -/

/-- A PKE input as an array: codes of a format that is not MX, or an MX record's regions. -/
structure PkeIn where
  dtype : Nat
  dims : List Nat
  elems : Array Nat
  /-- element and scale regions of an MX record, without padding to 8 -/
  mx : Option (Bytes × Bytes) := none
  deriving Repr, DecidableEq, Inhabited

/-- An AUDD record as rank 2 (R283). -/
def readAuddArr (b : Bytes) : Option PkeIn :=
  let ch := fld b 6 1
  let fmt := fld b 7 1
  let n := fld b 12 4
  let size := if fmt = 1 then 2 else 4
  if fld b 4 2 ≠ 1 ∨ ch = 0 ∨ 8 < ch ∨ fmt = 0 ∨ 3 < fmt ∨ fld b 40 8 ≠ n * ch * size ∨ b.length ≠ 64 + n * ch * size then none
  else some { dtype := if fmt = 1 then 0x0C else if fmt = 2 then 0x0E else 1, dims := [n, ch],
              elems := (elemsOf size (n * ch) (b.drop 64)).toArray }

/-- A TNSR record, MX ones included. -/
def readTnsrArr (b : Bytes) : Option PkeIn := do
  let t ← tensorOf b
  let dims := t.dims.take t.rank
  if isMx t.dtype then
    let n := dims.dropLast.foldl (· * ·) 1 * roundUp (dims.getLastD 1) 32
    let eb := n * elemBits t.dtype / 8
    let sb := n / 32
    if b.length ≠ t.offset + roundUp eb 8 + roundUp sb 8 then none
    else some { dtype := t.dtype, dims := dims, elems := #[],
                mx := some (cut b t.offset eb, cut b (t.offset + roundUp eb 8) sb) }
  else
    let n := dims.foldl (· * ·) 1
    if ¬fmtDefined t.dtype ∨ b.length ≠ t.offset + n * elemBytes t.dtype then none
    else some { dtype := t.dtype, dims := dims, elems := (elemsOf (elemBytes t.dtype) n (b.drop t.offset)).toArray }

/-- An input record of PLACE; none is PCK_RECORD. -/
def pkeInput (b : Bytes) : Option PkeIn :=
  if b.take 4 = ascii "IMGD" then (readImgd b).map fun a => { dtype := a.dtype, dims := a.dims, elems := a.elems }
  else if b.take 4 = ascii "AUDD" then readAuddArr b
  else readTnsrArr b

/-- PLACE: the sub-array and counts, or the status that fails the item. word m is the generator word of element m. -/
def placeBytes (d : TDecl) (tensor : Nat) (word : Nat → Nat) (b : Bytes) : Except Status (Placed × ConvCount) :=
  match pkeInput b with
  | none => .error St.PCK_RECORD
  | some a =>
    let dims := d.sdims.take d.srank
    if a.dims.length ≠ d.srank ∨ (a.dims.zip dims).any (fun p => decide (p.2 < p.1)) then .error St.PCK_SHAPE
    else
      let padded := a.dims != dims
      match a.mx with
      | some (es, ss) =>
        if a.dtype ≠ d.dtype ∨ padded then .error St.PCK_DTYPE
        else .ok ({ tensor := tensor, elems := es, scales := ss, padded := false }, {})
      | none =>
        let n := dims.foldl (· * ·) 1
        let src (o : Nat) : Option Nat :=
          let c := unravel dims o
          if (c.zip a.dims).all fun p => decide (p.1 < p.2) then some (a.elems.getD (ravel a.dims c) 0) else none
        if isMx d.dtype then
          let vals := (List.range n).map fun o => ((src o).map (elemVal a.dtype)).getD (.fin false 0 0)
          let row := dims.getLastD 1
          let pr := roundUp row 32
          let all := ((chunks row (n + 1) vals).flatMap fun r => r ++ List.replicate (pr - r.length) (Val.fin false 0 0)).zipIdx
          let blocks := (chunks 32 (all.length + 1) (all.map fun p => (p.1, word p.2))).map (mxBlock d.dtype d.round)
          .ok ({ tensor := tensor, elems := packCodes (elemBits d.dtype) (blocks.flatMap (·.1)),
                 scales := blocks.map fun b => BitVec.ofNat 8 b.2.1, padded := padded },
               (blocks.map (·.2.2)).foldl ConvCount.add {})
        else
          let r := (List.range n).map fun o =>
            match src o with
            | some e => convertOne d.dtype d.round d.sat (elemVal a.dtype e) (word o)
            | none => (d.pad, {})
          .ok ({ tensor := tensor, elems := r.flatMap fun p => le (elemBytes d.dtype) p.1, scales := [], padded := padded },
               (r.map (·.2)).foldl ConvCount.add {})

/-- PLACE_SCALAR (R287): a value of width bits. -/
def placeScalarBytes (d : TDecl) (tensor : Nat) (word : Nat → Nat) (width v : Nat) : Placed × ConvCount :=
  let i : Int := if d.sgn then signed width v else v
  let (c, n) := convertOne d.dtype d.round d.sat (valInt i) (word 0)
  ({ tensor := tensor, elems := le (elemBytes d.dtype) c, scales := [], padded := false }, n)

/-! ### PACK_TOKENS (R289, R290) -/

/-- Staging of a token record for its slot: (staged ids in the token DTYPE, ids staged, COUNT). -/
def packBytes (d : TDecl) (word : Nat → Nat) (b : Bytes) : Except Status ((Bytes × Nat × Nat) × ConvCount) :=
  let n := fld b 8 4
  if b.length < 32 ∨ b.take 4 ≠ ascii "TOKD" ∨ fld b 4 2 ≠ 1 ∨ b.length ≠ 32 + 4 * n then .error St.PCK_RECORD
  else
    let ids := elemsOf 4 n (b.drop 32)
    if ids.any fun t => decide (fld b 24 4 ≤ t) then .error St.PCK_RECORD
    else
      let keep := ids.take (d.sdims.getD 0 1)
      let r := keep.zipIdx.map fun p => convertOne d.dtype d.round d.sat (valInt p.1) (word p.2)
      .ok ((r.flatMap fun p => le (elemBytes d.dtype) p.1, keep.length, n), (r.map (·.2)).foldl ConvCount.add {})

/-- Where one slot's sequence went: row, column, tokens, segment; none when dropped. -/
structure PackPlace where
  row : Nat
  col : Nat
  tokens : Nat
  segment : Nat
  deriving Repr, DecidableEq, Inhabited

/-- Row with the smallest free space that fits n, the lowest among equals. -/
def bestRow (n : Nat) (free : List (Nat × Nat)) : Option Nat :=
  (free.zipIdx.foldl (fun (a : Option (Nat × Nat)) p =>
    if n ≤ p.1.1 ∧ a.all (fun x => decide (p.1.1 < x.2)) then some (p.2, p.1.1) else a) none).map (·.1)

/-- Lowest row with the largest free space. -/
def widestRow (free : List (Nat × Nat)) : Nat :=
  (free.zipIdx.foldl (fun (a : Nat × Nat) p => if a.2 < p.1.1 then (p.2, p.1.1) else a) (0, (free.headD (0, 1)).1)).1

/-- The packing pass over staged counts by slot, none for a failed slot (R290). Rows hold (free, next segment). -/
def packPass (seq : Nat) (truncate : Bool) : List (Option Nat) → List (Nat × Nat) → List (Option PackPlace)
  | [], _ => []
  | none :: ss, free => none :: packPass seq truncate ss free
  | some 0 :: ss, free => none :: packPass seq truncate ss free
  | some n :: ss, free =>
    let put (r k : Nat) : List (Option PackPlace) :=
      let f := free.getD r (0, 1)
      some { row := r, col := seq - f.1, tokens := k, segment := f.2 } ::
        packPass seq truncate ss (free.set r (f.1 - k, f.2 + 1))
    match bestRow n free with
    | some r => put r n
    | none =>
      let r := widestRow free
      let left := (free.getD r (0, 1)).1
      if truncate ∧ 0 < left then put r left else none :: packPass seq truncate ss free

/-! ### Layout (R293 to R295) -/

/-- One tensor of the parcel (Table 9.5). -/
structure TensorDesc where
  role : Nat
  dtype : Nat
  dims : List Nat
  pad : Nat
  /-- (element, scale) bytes of one slot of a placed tensor -/
  slot : Nat × Nat
  bytes : Nat
  scaleOffset : Nat
  deriving Repr, DecidableEq, Inhabited

/-- Tensor t of a route's parcels of B slots. -/
def RouteBin.tensorDesc (r : RouteBin) (b t : Nat) : TensorDesc :=
  match r.tensorStage t with
  | none => { role := 0, dtype := 0, dims := [], pad := 0, slot := (0, 0), bytes := 0, scaleOffset := 0 }
  | some s =>
    let d := r.decl s
    if s.packs then
      let seq := d.sdims.getD 0 1
      let mk (role dtype pad : Nat) : TensorDesc :=
        { role := role, dtype := dtype, dims := [d.rows, seq], pad := pad, slot := (0, 0),
          bytes := d.rows * seq * (fmtBits dtype / 8), scaleOffset := 0 }
      if s.out.index = t then mk 1 d.dtype d.pad
      else if (s.param 0).kind = 7 ∧ (s.param 0).index = t then mk 2 ((s.param 2).imm % 256) 0
      else mk 3 ((s.param 2).imm / 256 % 256) 0
    else
      let (e, sc) := d.sampleBytes
      let eb := if fmtMx d.dtype then roundUp (b * e) 8 else b * e
      { role := 0, dtype := d.dtype, dims := b :: d.sdims.take d.srank, pad := d.pad, slot := (e, sc),
        bytes := if fmtMx d.dtype then eb + roundUp (b * sc) 8 else eb, scaleOffset := if fmtMx d.dtype then eb else 0 }

/-- Tensors in index order. -/
def RouteBin.tensorDescs (r : RouteBin) (b : Nat) : List TensorDesc := (List.range r.tensorCount).map (r.tensorDesc b)

/-- Offsets of tensors from the first on. -/
def tensorOffsets : Nat → List TensorDesc → List Nat
  | _, [] => []
  | at_, t :: ts => at_ :: tensorOffsets (roundUp (at_ + t.bytes) 256) ts

/-- Offset of the sample table. -/
def sampleTableAt (tensors : Nat) : Nat := roundUp (256 + 48 * tensors) 64

/-- Offset of tensor 0. -/
def dataOffset (tensors b : Nat) : Nat := roundUp (sampleTableAt tensors + 48 * b) 4096

/-- Offset of the trailer. -/
def trailerAt (ds : List TensorDesc) (b : Nat) : Nat :=
  let offs := tensorOffsets (dataOffset ds.length b) ds
  roundUp ((offs.getLastD 0) + ((ds.getLast?.map (·.bytes)).getD 0)) 256

/-- LENGTH of a route's parcels of B slots (R293). -/
def RouteBin.parcelLength (r : RouteBin) (b : Nat) : Nat := trailerAt (r.tensorDescs b) b + 8

/-! ### Assembly (R286, R290, R291, R294 to R297) -/

/-- Fields of the header that do not follow from the route and the items. -/
structure ParcelHead where
  postmark : Bytes
  stamp : Nat
  rank : Nat
  epoch : Nat
  express : Bool
  lastBatch : Bool
  batch : Nat
  step : Nat
  w : Nat
  b : Nat
  semantics : Nat
  deriving Repr, DecidableEq, Inhabited

/-- What packing did to the slots of a parcel: places, and the row length. -/
def parcelPlaces (r : RouteBin) (es : List Entry) : List (Option PackPlace) :=
  match r.packer with
  | none => es.map fun _ => none
  | some s =>
    let d := r.decl s
    let seq := d.sdims.getD 0 1
    packPass seq (bit (s.param 2).imm 16) (es.map fun e => if e.state = .failed then none else some ((e.tokens.map (·.2.1)).getD 0))
      (List.replicate d.rows (seq, 1))

/-- Tokens of a slot that packing dropped, with R289's. -/
def tokensLost (e : Entry) (p : Option PackPlace) : Nat :=
  if e.state = .failed then 0
  else (e.tokens.map fun t => t.2.2 - ((p.map (·.tokens)).getD 0)).getD 0

/-- The sequence was placed in part (R289, R290). -/
def packTruncated (e : Entry) (p : Option PackPlace) : Bool :=
  e.state != .failed && e.tokens.any fun t => decide (t.2.1 < t.2.2) || p.any fun x => decide (x.tokens < t.2.1)

/-- The sequence was dropped. -/
def packDropped (e : Entry) (p : Option PackPlace) : Bool :=
  e.state != .failed && e.tokens.any (fun t => decide (0 < t.2.1)) && p.isNone

/-- A sample table entry (Table 9.6). -/
def sampleEntry (packed : Bool) (e : Entry) (p : Option PackPlace) : Bytes :=
  let failed := e.state == .failed
  let p := if packed then p else none
  let shape := !failed && e.placed.any (·.padded)
  let flags := b2n failed + 2 * b2n (failed && e.faultCaused) + 4 * b2n e.substituted + 8 * (e.tokFlags % 2) +
    16 * (e.tokFlags / 2 % 2) + 32 * b2n shape + 64 * b2n (packed && packTruncated e p) + 128 * b2n (packed && packDropped e p)
  layout 48 [(0, le 8 e.q), (8, le 8 e.index), (16, le 8 e.label), (24, le 2 (if failed then e.status.toNat else 0)),
    (26, le 2 flags), (28, le 4 ((p.map (·.row)).getD 0xFFFFFFFF)), (32, le 4 ((p.map (·.col)).getD 0)),
    (36, le 4 ((p.map (·.tokens)).getD 0)), (40, le 4 (if packed then (e.tokens.map (·.2.2)).getD 0 else 0)),
    (44, le 4 ((p.map (·.segment)).getD 0))]

/-- A row-major table of cells, some of them set. -/
def paintCells (size n : Nat) (fill : Bytes) (sets : List (Nat × Bytes)) : Bytes :=
  sets.foldl (fun b s => putAt b (size * s.1) s.2) ((List.replicate n fill).flatten)

/-- Bytes of a tensor (R283 to R286, R291). -/
def tensorBytes (t : Nat) (d : TensorDesc) (es : List Entry) (ps : List (Option PackPlace)) : Bytes :=
  if d.role = 0 then
    let fillOne : Bytes :=
      if isMx d.dtype then zeros d.slot.1
      else (List.replicate (d.slot.1 / max 1 (elemBytes d.dtype)) (le (elemBytes d.dtype) d.pad)).flatten
    let sub (e : Entry) : Bytes × Bytes :=
      match if e.state = .failed then none else e.placed.find? (fun p => p.tensor == t) with
      | some p => (p.elems, p.scales)
      | none => (fillOne, zeros d.slot.2)
    let eb := es.flatMap fun e => (sub e).1
    if isMx d.dtype then pad8 eb ++ pad8 (es.flatMap fun e => (sub e).2) else eb
  else
    let size := elemBytes d.dtype
    let seq := d.dims.getD 1 1
    let fillOne := le size (if d.role = 1 then d.pad else 0)
    let sets := (es.zip ps).filterMap fun x => x.2.map fun p =>
      (p.row * seq + p.col,
        if d.role = 1 then ((x.1.tokens.map (·.1)).getD []).take (size * p.tokens)
        else if d.role = 2 then (List.replicate p.tokens (le size p.segment)).flatten
        else (List.range p.tokens).flatMap (le size))
    paintCells size (d.dims.headD 0 * seq) fillOne sets

/-- The parcel of entries es, slot by slot (R293 to R297): its bytes and the trailer's CRC. -/
def parcelBytes (h : ParcelHead) (r : RouteBin) (es : List Entry) : Bytes × Nat :=
  let ds := r.tensorDescs h.b
  let packed := r.packer.isSome
  let ps := parcelPlaces r es
  let n := ds.length
  let offs := tensorOffsets (dataOffset n h.b) ds
  let end_ := trailerAt ds h.b
  let failed := (es.filter fun e => e.state == .failed).length
  let subs := (es.filter (·.substituted)).length
  let shape := es.any fun e => e.state != .failed && e.placed.any (·.padded)
  let packDecl := (r.packer.map r.decl)
  let flags := b2n h.express + 2 * b2n (failed != 0) + 4 * b2n (subs != 0) + 8 * b2n packed + 16 * b2n h.lastBatch + 32 * b2n shape
  let placed := (ps.map fun p => (p.map (·.tokens)).getD 0).sum
  let dropped := ((es.zip ps).map fun x => if packed then tokensLost x.1 x.2 else 0).sum
  let head := layout 256 [(0, ascii "PRCL"), (4, le 2 1), (6, le 2 256), (8, le 8 (end_ + 8)), (16, fit 16 h.postmark),
    (32, le 4 h.stamp), (36, le 4 h.rank), (40, le 4 h.epoch), (44, le 4 flags), (48, le 8 h.batch), (56, le 8 h.step),
    (64, le 4 h.w), (68, le 4 h.b), (72, le 1 n), (73, le 1 (b2n h.express)), (76, le 4 failed), (80, le 4 subs),
    (84, le 4 h.semantics), (88, le 8 256), (96, le 8 (sampleTableAt n)), (104, le 8 (dataOffset n h.b)),
    (112, le 4 ((packDecl.map (·.rows)).getD 0)), (116, le 4 ((packDecl.map fun d => d.sdims.getD 0 1).getD 0)),
    (120, le 8 placed), (128, le 8 dropped)]
  let table := (ds.zip offs).flatMap fun p =>
    layout 48 [(0, le 1 p.1.dtype), (1, le 1 p.1.dims.length), (2, le 1 p.1.role), (4, le 4 p.1.pad),
      (8, (List.range 4).flatMap fun i => le 4 (p.1.dims.getD i 1)), (24, le 8 p.2), (32, le 8 p.1.bytes), (40, le 4 p.1.scaleOffset)]
  let samples := (es.zip ps).flatMap fun x => sampleEntry packed x.1 x.2
  let body := layout end_ ([(0, head), (256, table), (sampleTableAt n, samples)] ++
    ((ds.zip offs).zipIdx.map fun p => (p.1.2, tensorBytes p.2 p.1.1 es ps)))
  let crc := crc32c body
  (body ++ le 4 crc ++ ascii "PEND", crc)

end Sys2Proof.Machine
end

