-- ==== Sys2Proof/Machine/Store.lean ====
section
/-! DEFINITION. The sample store (14): identifiers, slots and cells, the journal and its buffers, versions taking effect, pins,
and reads of an object. -/

namespace Sys2Proof.Machine

open Sys2Proof

/-! ### Identifiers and pages (R400 to R402, R407) -/

/-- Partition of an identifier (R407). -/
def partitionOf (id : Nat) : Nat := crc32c (le 16 id) % 8

/-- A system identifier (R401). -/
def isSystemId (id : Nat) : Bool := id / 2 ^ 112 == 0xFFFF

/-- Identifier of a system object: kind 0 the seal record of a job, 1 the segment directory of a dataset. -/
def systemObjId (kind key : Nat) : Nat := 0xFFFF * 2 ^ 112 + (Config.systemId kind key).toNat

/-- Pages of an object (R402). -/
def objPages (stored : Nat) : Nat := (64 + stored + 4095) / 4096

/-- Object header (Table 14.1). -/
def Obj.header (o : Obj) : Bytes :=
  let b := layout 64 [(0, ascii "OBJH"), (4, le 2 1), (6, le 2 (b2n o.system + 2 * b2n o.direct)), (8, le 16 o.id),
    (24, le 8 o.stored.length), (32, le 8 o.origLen), (40, le 4 o.franking), (48, le 8 o.putSeq)]
  putAt b 56 (le 4 (crc32c (b.take 56)))

/-- Page i of an object version, 0 after its end (R402). -/
def Obj.page (o : Obj) (i : Nat) : Bytes := fit 4096 (cut (o.header ++ o.stored) (4096 * i) 4096)

/-! ### Physical slots (Table 15.1) and cell numbers (R410) -/

/-- Sled, channel, LUN, plane, block and cell of a slot. -/
def slotSled (s : Nat) : Nat := bits s 31 28
def slotChannel (s : Nat) : Nat := bits s 27 25
def slotLun (s : Nat) : Nat := bits s 24 21
def slotPlane (s : Nat) : Nat := bits s 20 19
def slotBlock (s : Nat) : Nat := bits s 18 6
def slotCell (s : Nat) : Nat := bits s 5 0

/-- Slot of its fields. -/
def mkSlot (sled channel lun plane block cell : Nat) : Nat :=
  sled * 2 ^ 28 + channel * 2 ^ 25 + lun * 2 ^ 21 + plane * 2 ^ 19 + block * 64 + cell

/-- Key of a slot's LUN, and of its block. -/
def lunKey (s : Nat) : Nat := s / 2 ^ 21 * 2 ^ 21
def blockKey (s : Nat) : Nat := s / 64 * 64

/-- Die of a cell number (R410). -/
def cellDie (n : Nat) : Nat := bits n 29 27

/-- Sled slot k. -/
def Store.sled (s : Store) (k : Nat) : Sled := s.sleds.getD k {}

/-- s with a sled changed. -/
def Store.onSled (s : Store) (k : Nat) (f : Sled → Sled) : Store := { s with sleds := s.sleds.modify k f }

/-- d with a sled changed. -/
def Dev.onSled (d : Dev) (k : Nat) (f : Sled → Sled) : Dev := d.onStore fun s => s.onSled k f

/-- A sled takes new cells. -/
def Sled.allocates (x : Sled) : Bool := x.state == .inService

/-- A sled can be read. -/
def Sled.reads (x : Sled) : Bool := x.state == .inService || x.state == .preparing

/-- A slot can be read: its sled is in service and its LUN is not retired. -/
def Store.slotReads (s : Store) (slot : Nat) : Bool := (s.sled (slotSled slot)).reads && !(s.retiredLuns.contains (lunKey slot))

/-- State of a block: one not yet written has its sled's floor strength (R443). -/
def Store.block (s : Store) (key : Nat) : Block :=
  (s.blocks.find? fun b => b.key == key).getD { key := key, strength := (s.sled (slotSled key)).slcFloor }

/-- s with a block changed. -/
def Store.onBlock (s : Store) (key : Nat) (f : Block → Block) : Store :=
  if s.blocks.any fun b => b.key == key then { s with blocks := updWhere s.blocks (fun b => b.key == key) f }
  else { s with blocks := s.blocks ++ [f (s.block key)] }

/-- Cell of a number. -/
def Store.cell (s : Store) (n : Nat) : Option Cell := s.cells.find? fun c => c.number == n

/-- s with a cell changed. -/
def Store.onCell (s : Store) (n : Nat) (f : Cell → Cell) : Store := { s with cells := updWhere s.cells (fun c => c.number == n) f }

/-! ### Capacity (R409, R440, R450) -/

/-- Blocks of a sled, and the cells they hold less the label block's (R440, R457). -/
def Sled.blockCount (x : Sled) : Nat := 8 * x.lunsPerChannel * x.planes * x.blocks
def Sled.cellCount (x : Sled) : Nat := (x.blockCount - 1) * x.cellsPerBlock

/-- Cells not yet written on the allocating sleds of a die (R409). -/
def Store.freeCells (s : Store) (die : Nat) : Nat :=
  ([2 * die, 2 * die + 1].map fun k =>
    let x := s.sled k
    if x.allocates then
      x.cellCount - ((s.blocks.filter fun b => slotSled b.key == k).map fun b => if b.retired then x.cellsPerBlock else b.used).sum
    else 0).sum

/-- Die that takes a partition's new cells (R409). -/
def Store.dieFor (s : Store) (p : Nat) : Nat :=
  if 0 < s.freeCells p then p
  else if 0 < s.freeCells ((p + 4) % 8) then (p + 4) % 8
  else (List.range 8).foldl (fun best i => if s.freeCells best < s.freeCells i then i else best) 0

/-- Raw blocks in service, and SLC blocks in use. -/
def Store.rawBlocks (s : Store) : Nat := ((s.sleds.filter Sled.allocates).map Sled.blockCount).sum
def Store.slcBlocks (s : Store) : Nat := (s.blocks.filter fun b => decide (0 < b.used) && !b.native && !b.retired).length

/-- Native stripe cells, and those allocated (R450). -/
def Store.nativeCells (s : Store) : Nat :=
  (s.groups.flatMap (·.members)).foldl (fun a x => let y := s.sled (slotSled x.lun); a + y.planes * y.blocks * y.cellsPerBlock) 0
def Store.nativeUsed (s : Store) : Nat := (s.stripes.map fun x => x.cells.length).sum

/-- SLC blocks the cache may hold: (12 % − 11.5 % × f) of raw (R450). -/
def Store.slcAllowance (s : Store) : Nat :=
  let n := max 1 s.nativeCells
  s.rawBlocks * (12000 * n - 11500 * min n s.nativeUsed) / (100000 * n)

/-! ### Allocation (R441, R447) -/

/-- A block that can take the next cell: of the mode, not retired, not full, and not the label block (R447, R457). -/
def Store.takes (s : Store) (native : Bool) (key : Nat) : Bool :=
  let b := s.block key
  !b.retired && decide (b.used < (s.sled (slotSled key)).cellsPerBlock) && (b.used == 0 || b.native == native) &&
    !(slotChannel key == 0 && slotLun key == 0 && slotPlane key == 0 && slotBlock key == 0)

/-- Block of a LUN for the next cell: the one already open, else the free block with fewest erases, lowest plane, then lowest
block (R447). -/
def Store.pickBlock (s : Store) (lun : Nat) (native : Bool) : Option Nat :=
  let x := s.sled (slotSled lun)
  let keys := (List.range x.planes).flatMap fun p => (List.range x.blocks).map fun b => lun + p * 2 ^ 19 + b * 64
  let ok := keys.filter fun k => s.takes native k
  match ok.find? fun k => decide (0 < (s.block k).used) with
  | some k => some k
  | none => ok.foldl (fun (best : Option Nat) k => match best with
    | none => some k
    | some b => if (s.block k).erases < (s.block b).erases then some k else best) none

/-- A cell allocated on a LUN (R410, R441, R444, R447). -/
def Store.allocOn (s : Store) (lun : Nat) (native : Bool) (now : Nat) : Option (Nat × Store) :=
  if (s.sled (slotSled lun)).allocates = false ∨ s.retiredLuns.contains lun then none
  else match s.pickBlock lun native with
    | none => none
    | some key =>
      let die := slotSled lun / 2
      let number := die * 2 ^ 27 + s.nextCell.getD die 0 % 2 ^ 27
      let slot := key + (s.block key).used
      let s := s.onBlock key fun b => { b with used := b.used + 1, native := native }
      some (number, { s with
        nextCell := s.nextCell.modify die (· + 1)
        cells := s.cells ++ [{ number := number, slot := slot, programmedAt := now / 1000000000, temp := (s.sled (slotSled lun)).temp }] })

/-- LUN of turn t of a die's rotation: 16 channels in turn, then the next LUN of each (R447). -/
def Store.lunOfTurn (s : Store) (die t : Nat) : Nat :=
  let sled := 2 * die + t % 16 / 8
  mkSlot sled (t % 8) (t / 16 % max 1 (s.sled sled).lunsPerChannel) 0 0 0

/-- A cell at the first of n turns that has room, and the turn after it. -/
def Store.allocTurn (s : Store) (die : Nat) (now : Nat) : Nat → Nat → Option (Nat × Nat × Store)
  | 0, _ => none
  | n + 1, t => match s.allocOn (s.lunOfTurn die t) false now with
    | some (c, s) => some (c, t + 1, s)
    | none => s.allocTurn die now n (t + 1)

/-- A cell on a given sled, from a channel and LUN onward, in turn. -/
def Store.allocSled (s : Store) (sled : Nat) (now : Nat) : Nat → Nat → Option (Nat × Store)
  | 0, _ => none
  | n + 1, t =>
    match s.allocOn (mkSlot sled (t % 8) (t / 8 % max 1 (s.sled sled).lunsPerChannel) 0 0 0) false now with
    | some r => some r
    | none => s.allocSled sled now n (t + 1)

/-- Sleds for a second SLC copy: the die's other sled, else those of die (d + 4) mod 8 (R447). -/
def mirrorSleds (sled : Nat) : List Nat :=
  let d := (sled / 2 + 4) % 8
  [sled / 2 * 2 + 1 - sled % 2, 2 * d, 2 * d + 1]

/-- The second SLC copy of a cell; none where no sled can take it (R412, R447). -/
def Store.allocMirror (s : Store) (c now : Nat) : Store :=
  match s.cell c with
  | none => s
  | some x =>
    let start := slotChannel x.slot + 8 * slotLun x.slot
    match (mirrorSleds (slotSled x.slot)).findSome? fun k => s.allocSled k now 128 start with
    | some (m, s) => s.onCell c fun y => { y with mirror := m }
    | none => s

/-- An SLC cell with its second copy, on a die's rotation (R412, R447). -/
def Store.allocSlc (s : Store) (die now : Nat) : Option (Nat × Store) :=
  match s.allocTurn die now 256 (s.turns.getD die 0) with
  | none => none
  | some (c, t, s) => some (c, ({ s with turns := s.turns.set die t } : Store).allocMirror c now)

/-! ### Write streams (R412, R413) -/

/-- A free write stream of a die, the lowest number (R412). -/
def Store.freeStream (s : Store) (die : Nat) : Option Nat :=
  (List.range 16).find? fun n => !(s.streams.any fun x => x.die == die && x.number == n && x.busy)

/-- Write stream of a die. -/
def Store.stream (s : Store) (die n : Nat) : WStream :=
  (s.streams.find? fun x => x.die == die && x.number == n).getD { die := die, number := n }

/-- s with a write stream set. -/
def Store.setStream (s : Store) (x : WStream) : Store :=
  { s with streams := (s.streams.filter fun y => !(y.die == x.die && y.number == x.number)) ++ [x] }

/-- Four cells reserved for a stream, as many as there are (Table 14.6). -/
def Store.reserve (s : Store) (die now : Nat) : Nat → List Nat × Store
  | 0 => ([], s)
  | n + 1 => match s.allocSlc die now with
    | none => ([], s)
    | some (c, s) => let r := s.reserve die now n; (c :: r.1, r.2)

/-- Result of placing pages on a stream: the store, first cell and page, and STREAM_CELLS records made. -/
structure Placing where
  store : Store
  first : Option (Nat × Nat) := none
  made : List (List Nat) := []

/-- Object pages i, i + 1, … placed from a stream's position on, cell by cell (R412, R413). None where cells run out. -/
def placePages (die n now : Nat) (o : Obj) : Nat → Nat → Nat → Placing → Option Placing
  | 0, _, left, r => if left = 0 then some r else none
  | fuel + 1, i, left, r =>
    if left = 0 then some r
    else
      let x := r.store.stream die n
      match x.cell with
      | some c =>
        if x.page < 256 then
          let k := min (256 - x.page) left
          let h : Hold := { id := o.id, putSeq := o.putSeq, first := i, at_ := x.page, count := k }
          let m := ((r.store.cell c).map (·.mirror)).getD 0xFFFFFFFF
          let put := fun (y : Cell) => { y with holds := y.holds ++ [h] }
          let s := ((r.store.onCell c put).onCell m put).setStream { x with page := x.page + k }
          placePages die n now o fuel (i + k) (left - k) { r with store := s, first := some (r.first.getD (c, x.page)) }
        else
          match x.reserved with
          | c' :: rest =>
            let s := (r.store.onCell c fun y => { y with next := c', state := .full }).setStream { x with cell := some c', page := 0, reserved := rest }
            placePages die n now o fuel i left { r with store := s }
          | [] =>
            let (cs, s) := r.store.reserve die now 4
            if cs = [] then none
            else placePages die n now o fuel i left { r with store := s.setStream { x with reserved := cs }, made := r.made ++ [cs] }
      | none =>
        match x.reserved with
        | c' :: rest => placePages die n now o fuel i left { r with store := r.store.setStream { x with cell := some c', page := 0, reserved := rest } }
        | [] =>
          let (cs, s) := r.store.reserve die now 4
          if cs = [] then none
          else placePages die n now o fuel i left { r with store := s.setStream { x with reserved := cs }, made := r.made ++ [cs] }

/-- All pages of an object placed on a stream. -/
def Store.placeObj (s : Store) (die n now : Nat) (o : Obj) : Option Placing :=
  let pages := objPages o.stored.length
  placePages die n now o (4 * (pages / 256 + 2)) 0 pages { store := s }

/-! ### The journal (R421 to R424) -/

/-- Bytes of a record (Table 14.6). -/
def JRec.len : JRec → Nat
  | .commit _ => 72
  | .discard .. | .preDiscard .. | .pin .. | .streamCells .. | .secureBegin _ | .secureEnd _ | .dirUpdate .. => 40
  | .dset .. => 88
  | .foldRec .. => 48
  | .cellMove .. | .cellFree .. | .mediaState .. => 24
  | .ledger .. | .checkpoint _ => 32
  | .cleanLoss => 16

/-- Bytes of entries. -/
def jBytes (l : List JEntry) : Nat := (l.map fun e => e.what.len).sum

/-- The sync page of a partition goes to programming, in every copy (R422). -/
def Dev.programSync (d : Dev) (p : Nat) : Dev :=
  let x := d.part p
  if x.sync = [] then d
  else
    let d := d.onStore fun s => { s with
      programs := s.programs ++ [{ number := s.nextOp, work := .journal p x.sync }]
      nextOp := s.nextOp + 1 }
    d.onPart p fun x => { x with sync := [], syncSince := none }

/-- The lazy buffer of a partition goes to programming (R423). -/
def Dev.programLazy (d : Dev) (p : Nat) : Dev :=
  let x := d.part p
  if x.lazy_ = [] then d
  else
    let d := d.onStore fun s => { s with
      programs := s.programs ++ [{ number := s.nextOp, work := .journal p x.lazy_ }]
      nextOp := s.nextOp + 1 }
    d.onPart p fun x => { x with lazy_ := [] }

/-- A sync record enters the sync buffer; a page that would not hold it goes to programming first (R422). Answers the record's
(partition, SEQ). -/
def Dev.pushSync (d : Dev) (p : Nat) (r : JRec) : (Nat × Nat) × Dev :=
  let d := if 4096 < jBytes (d.part p).sync + r.len then d.programSync p else d
  let seq := (d.part p).seq
  ((p, seq), d.onPart p fun x => { x with
    sync := x.sync ++ [{ seq := seq, what := r }]
    syncSince := if x.sync = [] then some d.now else x.syncSince
    seq := x.seq + 1 })

/-- A lazy record enters the lazy buffer, written once 256 KiB have gathered (R423). -/
def Dev.pushLazy (d : Dev) (p : Nat) (r : JRec) : Dev :=
  let d := d.onPart p fun x => { x with lazy_ := x.lazy_ ++ [{ seq := x.seq, what := r }], seq := x.seq + 1 }
  if 262144 ≤ jBytes (d.part p).lazy_ then d.programLazy p else d

/-- Sync records pushed in order, and their (partition, SEQ) pairs. -/
def Dev.pushAll (d : Dev) : List (Nat × JRec) → List (Nat × Nat) × Dev
  | [] => ([], d)
  | (p, r) :: rest =>
    let x := d.pushSync p r
    let y := x.2.pushAll rest
    (x.1 :: y.1, y.2)

/-- A pigeonhole command whose effect sync records carry: its answer follows when each record's page is programmed (R422). -/
def Dev.answerAfter (d : Dev) (p : Nat) (a : Answer) (recs : List (Nat × JRec)) : Dev :=
  match recs with
  | [] => d.answer p a
  | _ =>
    let x := d.pushAll recs
    x.2.onStore fun s => { s with waits := s.waits ++ [{ hole := p, status := a.status, detail := a.detail, body := a.body, left := x.1 }] }

/-! ### Versions (R403, R432, R433) -/

/-- Pages of an object version become stale: its holds end and the ledger names each slot (R433). -/
def Dev.staleHolds (d : Dev) (id putSeq : Nat) : Dev :=
  let hit := fun (c : Cell) => c.holds.any fun h => h.id == id && h.putSeq == putSeq
  let slots := (d.store.cells.filter hit).map (·.slot)
  let d := d.onStore fun s => { s with
    cells := s.cells.map fun c => { c with holds := c.holds.filter fun h => !(h.id == id && h.putSeq == putSeq) }
    ledger := s.ledger ++ slots.map fun x => (id, putSeq, x) }
  slots.foldl (fun d x => d.pushLazy (partitionOf id) (.ledger putSeq x false)) d

/-- VALID_PAGES and PINNED_PAGES of every cell counted anew (R417). -/
def Store.recount (s : Store) : Store :=
  let live := fun (h : Hold) => s.objs.find? fun o => o.id == h.id && o.putSeq == h.putSeq
  { s with cells := s.cells.map fun c => { c with
      validPages := ((c.holds.filter fun h => (live h).isSome).map (·.count)).sum
      pinnedPages := min 255 ((c.holds.filter fun h => (live h).any fun o => decide (0 < o.pins)).map (·.count)).sum } }

/-- The version in effect of an identifier ends; its pages become stale (R403, R432). -/
def Dev.dropVersion (d : Dev) (id : Nat) : Dev :=
  match d.object id with
  | none => d
  | some o =>
    let d := d.onStore fun s => { s with objs := s.objs.filter fun x => x.id != id }
    (d.staleHolds id o.putSeq).onStore Store.recount

/-- A version takes effect (R403). -/
def Dev.commitObj (d : Dev) (o : Obj) : Dev :=
  ((d.dropVersion o.id).onStore fun s => { s with objs := s.objs ++ [o] }).onStore Store.recount

/-- d with the object of an identifier changed. -/
def Dev.onObj (d : Dev) (id : Nat) (f : Obj → Obj) : Dev :=
  d.onStore fun s => { s with objs := updWhere s.objs (fun o => o.id == id) f }

/-! ### Pins (R405) -/

/-- One more pin on an object, with its record (R405, Table 14.6). -/
def Dev.pin (d : Dev) (id : Nat) : Dev × List (Nat × JRec) :=
  match d.object id with
  | none => (d, [])
  | some o => ((d.onObj id fun o => { o with pins := o.pins + 1 }).onStore Store.recount, [(partitionOf id, .pin id (o.pins + 1) false)])

/-- One pin fewer on an object, with its record (R405). -/
def Dev.unpin (d : Dev) (id : Nat) : Dev × List (Nat × JRec) :=
  match d.object id with
  | none => (d, [])
  | some o => ((d.onObj id fun o => { o with pins := o.pins - 1 }).onStore Store.recount, [(partitionOf id, .pin id (o.pins - 1) true)])

/-- Pins of several objects changed in order. -/
def Dev.pinAll (d : Dev) (f : Dev → Nat → Dev × List (Nat × JRec)) : List Nat → Dev × List (Nat × JRec)
  | [] => (d, [])
  | id :: r =>
    let x := f d id
    let y := Dev.pinAll x.1 f r
    (y.1, x.2 ++ y.2)

/-! ### System objects (R58, R401, R418) -/

/-- A system object written: its pages placed, and its COMMIT record to buffer; nothing where cells run out. Die p's stream 15
serves it. -/
def Dev.systemObj (d : Dev) (id : Nat) (isSeal : Bool) (stored : Bytes) : Dev × List (Nat × JRec) :=
  let p := partitionOf id
  let o : Obj :=
    { id := id, stored := stored, origLen := stored.length, franking := crc32c stored, system := true, isSeal := isSeal,
      direct := d.store.direct, putSeq := p * 2 ^ 48 + d.store.putSeq.getD p 1 }
  let d := d.onStore fun s => { s with putSeq := s.putSeq.modify p (· + 1) }
  match d.store.placeObj (d.store.dieFor p) 15 d.now o with
  | none => (d, [])
  | some r =>
    let f := r.first.getD (0, 0)
    (d.onStore fun _ => r.store, [(p, .commit { o with firstCell := f.1, firstPage := f.2 })])

/-! ### Reading an object (R404, R454) -/

/-- Stripe that holds a cell. -/
def Store.stripeOf (s : Store) (c : Nat) : Option Stripe := s.stripes.find? fun x => x.cells.contains c

/-- A cell of a stripe can be read. -/
def Store.cellReads (s : Store) (n : Nat) : Bool := match s.cell n with
  | some c => s.slotReads c.slot
  | none => false

/-- A stripe has K readable cells (R454). -/
def Store.stripeReads (s : Store) (x : Stripe) : Bool := decide (s.k ≤ (x.cells.filter s.cellReads).length)

/-- How a hold of an object is read: directly or from its other copy, degraded at a page each, or not at all. -/
def Store.holdReads (s : Store) (c : Cell) (h : Hold) : Option Nat :=
  if s.slotReads c.slot ∨ s.cells.any fun x => x.holds.contains h && s.slotReads x.slot then some 0
  else match s.stripeOf c.number with
    | some x => if s.stripeReads x then some h.count else none
    | none => none

/-- Pages a read of an object rebuilds; none where a page cannot be read (R454). -/
def Store.objReads (s : Store) (o : Obj) : Option Nat :=
  s.cells.foldl (fun a c => (c.holds.filter fun h => h.id == o.id && h.putSeq == o.putSeq).foldl (fun a h =>
    match a, s.holdReads c h with
    | some n, some k => some (n + k)
    | _, _ => none) a) (some 0)

/-- Die that serves a partition's requests (R407). -/
def Dev.servingDie (d : Dev) (p : Nat) : Nat := (d.part p).die

/-- An object's stored bytes read whole: degraded pages counted, STO_READ_FAILED where a page cannot be read (R404, R454). -/
def Dev.readObj (d : Dev) (o : Obj) : Except Status Bytes × Dev :=
  match d.store.objReads o with
  | none => (.error St.STO_READ_FAILED, d)
  | some n => (.ok o.stored, d.onCtrs (d.servingDie (partitionOf o.id)) fun c => { c with degradedReads := c.degradedReads + n })

/-- Original bytes recovered from stored bytes in the two steps of R475. -/
def recoverOriginal (stored : Bytes) (origLen franking : Nat) : Res Bytes :=
  if stored.length = origLen ∧ crc32c stored = franking then .ok stored
  else
    match decodeBy (autoFormat stored) { expectLen := some origLen, expectCrc := some franking, bound := origLen } none stored with
    | .ok b => .ok b
    | .error e => if stored.length = origLen then .error { e with status := St.INFL_FRANKING } else .error e

/-! ### Requests and partitions (R408, R431) -/

/-- What a partition does with a request. -/
inductive Gate where
  | serve | wait | notReady
  deriving DecidableEq, Repr

/-- A partition whose die does not run makes requests wait; a starting one answers STO_NOT_READY (R408, R431). -/
def Dev.gate (d : Dev) (p : Nat) : Gate :=
  let x := d.part p
  if d.store.started = false then .notReady
  else if x.unserved ∨ d.dieUp x.die = false then .wait
  else if x.ready then .serve
  else .notReady

/-- An identifier is under secure discard (R435). -/
def Store.securing (s : Store) (id : Nat) : Bool := s.secures.any fun x => x.id == id

/-- Refusal common to PUT, DISCARD and SECURE_DISCARD (R401, R405, R435). -/
def Dev.storeRefusal (d : Dev) (id : Nat) : Option Status :=
  if isSystemId id then some St.STO_ID_RESERVED
  else if d.store.securing id then some St.STO_SECURE_PENDING
  else match d.object id with
    | some o => if 0 < o.pins then some St.STO_PINNED else none
    | none => none

/-- Store core unit of a die, for reports. -/
def storeUnit (die : Nat) : UnitRef := { kind := 0x0C, die := die }

end Sys2Proof.Machine
end

