-- ==== Sys2Proof/Machine/Letterbox.lean ====
section
/-! DEFINITION. Letterbox queues (16): the queue table entry, completions and replay records, freezes, fetching, doorbells, and
the LBX pigeonhole commands. -/

namespace Sys2Proof.Machine

open Sys2Proof

/-- Queue q, when it is not deleted. -/
def Dev.queue (d : Dev) (q : Nat) : Option Queue := d.lbx.queues.find? fun x => x.number == q

/-- d with a queue changed. -/
def Dev.onQueue (d : Dev) (q : Nat) (f : Queue → Queue) : Dev :=
  { d with lbx := { d.lbx with queues := updWhere d.lbx.queues (fun x => x.number == q) f } }

/-- d with a command of a queue changed. -/
def Dev.onCmd (d : Dev) (q tag : Nat) (f : Cmd → Cmd) : Dev :=
  d.onQueue q fun x => { x with cmds := updWhere x.cmds (fun c => c.sub.tag == tag) f }

/-- Command in flight on a tag. -/
def Queue.cmd (x : Queue) (tag : Nat) : Option Cmd := x.cmds.find? fun c => c.sub.tag == tag

/-- The letterbox unit of a port serves: its die runs and its port is trained (R465, R531), and no supply loss has stopped it
(R487). -/
def Dev.lbxRuns (d : Dev) (port : Nat) : Bool :=
  d.dieUp (2 * port) && d.pins.trained.getD port false && d.seqs.powerFailAt.isNone

/-- Counters of the letterbox unit of a queue's port (R488). -/
def Dev.lbxCount (d : Dev) (x : Queue) (f : DieCtrs → DieCtrs) : Dev := d.onCtrs (2 * x.port) f

/-! ### The queue table entry (R466 to R468) -/

/-- STATE of Table 16.1. -/
def QState.code : QState → Nat
  | .idle => 0
  | .running => 1
  | .frozen => 2
  | .resetting => 3
  | .deleted => 4

/-- Bytes 64 to 127 of a queue table entry (Table 16.1). -/
def Queue.entryBytes (x : Queue) : Bytes :=
  layout 64 [(0, le 2 x.sqHead), (2, le 2 x.cqTail), (4, le 1 (b2n x.cqPhase)), (5, le 1 x.state.code),
    (6, le 2 x.freezeStatus.toNat), (8, le 4 x.freezeCount), (16, le 8 x.fetched), (24, le 8 x.completed)]

/-- Bytes 64 to 127 written back; a refused write-back is owed (R467). -/
def Dev.lbxWriteback (d : Dev) (q : Nat) : Dev :=
  match d.queue q with
  | none => d
  | some x => match d.lbx.tableBase.getD x.port none with
    | none => d
    | some base =>
      if d.lbxRuns x.port = false then d.onQueue q fun x => { x with stale := true }
      else match d.hostRefused x.port (base + 128 * q + 64) 64 true with
        | some _ => (d.lbxCount x fun k => { k with lbxWritebackLost := k.lbxWritebackLost + 1 }).onQueue q fun x => { x with stale := true }
        | none => (d.hostPut x.port (base + 128 * q + 64) x.entryBytes).onQueue q fun x => { x with stale := false }

/-- A queue's state changes, and its entry is written back (R467). -/
def Dev.lbxState (d : Dev) (q : Nat) (st : QState) : Dev := (d.onQueue q fun x => { x with state := st }).lbxWriteback q

/-- The queue's MSI-X message, with a write-back (R467, R473). -/
def Dev.lbxInterrupt (d : Dev) (q : Nat) : Dev :=
  match d.queue q with
  | none => d
  | some x =>
    let d := d.onQueue q fun x => { x with unsignalled := 0 }
    if x.intEnabled ∧ d.lbxRuns x.port then (d.lbxWriteback q).msix x.port x.vector else d

/-- A queue that can leave the cache: no command in flight, no write-back owed (R467, R468). -/
def Dev.evictable (d : Dev) (q : Nat) : Bool := match d.queue q with
  | some x => x.cmds.isEmpty && !x.stale
  | none => true

/-- A doorbell or completion uses the entry; a miss loads it, evicting the least recently used entry it may (R468). -/
def Dev.lbxTouch (d : Dev) (x : Queue) : Dev :=
  let q := x.number
  let c := d.lbx.cache
  if c.contains q then { d with lbx := { d.lbx with cache := q :: c.erase q } }
  else
    let d := d.lbxCount x fun k => { k with lbxCacheMisses := k.lbxCacheMisses + 1 }
    if c.length < 512 then { d with lbx := { d.lbx with cache := q :: c } }
    else match c.reverse.find? d.evictable with
      | some old => ({ d with lbx := { d.lbx with cache := q :: c.erase old } } : Dev).lbxWriteback old
      | none => d

/-! ### Freezes and completions (R471 to R473, R479 to R482) -/

/-- First refused address of a host access. -/
def Dev.refusedAt (d : Dev) (port a len : Nat) (write : Bool) : Nat :=
  match d.env.refuse.find? fun r => r.port == port && decide (a < r.hi) && decide (r.lo < a + len) &&
      (if write then r.writes else r.reads) with
  | some r => max a r.lo
  | none => 0

/-- What a freezing event names: status, SQ_INDEX, the submission if it has one, and the refused access (Table 16.8). -/
structure FreezeInfo where
  status : Status
  index : Nat
  sub : Bytes := []
  dmaAddr : Nat := 0
  error : Nat := 0

/-- The error log page of a freeze (Table 16.8). -/
def FreezeInfo.page (f : FreezeInfo) (x : Queue) (now : Nat) : ErrPage :=
  { status := f.status, freezeCount := x.freezeCount + 1, sqIndex := f.index,
    tag := if f.sub = [] then 0xFF else bits (fld f.sub 1 1) 4 0, pcieError := f.error, time := now, dmaAddr := f.dmaAddr,
    doorbell := x.doorbell, inFlight := x.cmds.length + (x.cmds.map (·.held)).sum, later := 0,
    seq := if f.sub = [] then 0 else fld f.sub 4 4, submission := fit 64 f.sub }

/-- A freezing event is taken: the first stops a running queue, a later one is counted (R482). Answers true for the first. -/
def Dev.lbxFreezeMark (d : Dev) (q : Nat) (f : FreezeInfo) : Dev × Bool :=
  match d.queue q with
  | none => (d, false)
  | some x => match x.state with
    | .running =>
      let d := d.lbxCount x fun k => { k with lbxFreezes := k.lbxFreezes + 1 }
      (d.onQueue q fun x => { x with
        state := .frozen, freezeStatus := f.status, freezeCount := x.freezeCount + 1, errPage := some (f.page x d.now) }, true)
    | .frozen =>
      (d.onQueue q fun x => { x with errPage := x.errPage.map fun e => { e with later := e.later + 1 } }, false)
    | _ => (d, false)

/-- End of a freeze: write-back, and the interrupt whatever INT_COUNT holds (R473, R482). -/
def lbxFreezeEnd (q : Nat) (r : Dev × Bool) : Dev := if r.2 then (r.1.lbxWriteback q).lbxInterrupt q else r.1

/-- A freezing event without a completion. -/
def Dev.lbxFreeze (d : Dev) (q : Nat) (f : FreezeInfo) : Dev := lbxFreezeEnd q (d.lbxFreezeMark q f)

/-- A completion's fields (Table 16.2). -/
structure Cpl where
  tag : Nat
  /-- FLAGS[2:1] -/
  flags : Nat := 0
  status : Status
  seq : Nat
  result : Nat := 0

/-- The 16 bytes (Table 16.2, R472). -/
def Cpl.bytes (c : Cpl) (x : Queue) : Bytes :=
  layout 16 [(0, le 1 c.tag), (1, le 1 (c.flags + b2n x.cqPhase)), (2, le 2 c.status.toNat), (4, le 4 c.seq),
    (8, le 6 c.result), (14, le 2 x.sqHead)]

/-- CQ_TAIL and CQ_PHASE move on (R472). -/
def Queue.posted (x : Queue) (now : Nat) : Queue :=
  let wrap := decide (x.cqSize ≤ x.cqTail + 1)
  { x with
    cqTail := if wrap then 0 else x.cqTail + 1
    cqPhase := if wrap then !x.cqPhase else x.cqPhase
    completed := x.completed + 1
    unreleased := x.unreleased + 1
    unsignalled := x.unsignalled + 1
    unsignalledAt := if x.unsignalled = 0 then now else x.unsignalledAt }

/-- A completion written at CQ_TAIL (R472, R473); a refused write freezes the queue and leaves CQ_TAIL (R481). The submission
is the one the completion is for. -/
def Dev.lbxPost (d : Dev) (q : Nat) (c : Cpl) (index : Nat) (sub : Bytes) : Dev :=
  match d.queue q with
  | none => d
  | some x =>
    if d.lbxRuns x.port = false then d
    else
      let d := d.lbxTouch x
      let a := x.cqBase + 16 * x.cqTail
      match d.hostRefused x.port a 16 true with
      | some e =>
        d.lbxFreeze q { status := St.LBX_DMA_DATA, index := index, sub := sub, dmaAddr := d.refusedAt x.port a 16 true, error := e }
      | none =>
        let d := (d.hostPut x.port a (c.bytes x)).onQueue q fun x => x.posted d.now
        if x.intEnabled ∧ max 1 x.intCount ≤ x.unsignalled + 1 then d.lbxInterrupt q else d

/-- A freezing event with its completion, FLAGS[2] set (Table 16.7). -/
def Dev.lbxFreezeWith (d : Dev) (q : Nat) (f : FreezeInfo) : Dev :=
  let r := d.lbxFreezeMark q f
  let c : Cpl := { tag := bits (fld f.sub 1 1) 4 0, flags := 4, status := f.status, seq := fld f.sub 4 4 }
  lbxFreezeEnd q (r.1.lbxPost q c f.index f.sub, r.2)

/-- A command ends with an outcome (R472, R479, R480): its tag is free, its record is set, its completion and those of its held
duplicates are written; none is written once a reset has begun (R485). dma is the refused access that ended it (R481). -/
def Dev.lbxFinish (d : Dev) (q tag : Nat) (st : Status) (result : Nat) (dma : Option (Nat × Nat) := none) : Dev :=
  match d.queue q with
  | none => d
  | some x => match x.cmd tag with
    | none => d
    | some c =>
      let rec_ : Replay := { seq := c.sub.seq, crc := c.crc, status := st, result := result }
      let d := d.onQueue q fun x => { x with
        cmds := x.cmds.filter fun y => y.sub.tag != tag
        replays := (x.replays.filter fun r => r.1 != tag) ++ [(tag, rec_)] }
      if c.detached ∨ x.state = .resetting ∨ x.state = .idle then d
      else
        let k : Cpl := { tag := tag, status := st, seq := c.sub.seq, result := result }
        let d := match dma with
          | none => d.lbxPost q k c.index c.sub.raw
          | some (a, e) => d.lbxFreezeWith q { status := st, index := c.index, sub := c.sub.raw, dmaAddr := a, error := e }
        (List.range c.held).foldl (fun d _ => d.lbxPost q { k with flags := 2 } c.index c.sub.raw) d

/-! ### Submissions (R474 to R477, R479) -/

/-- The submission in 64 bytes (Table 16.3). -/
def subOf (b : Bytes) : Sub :=
  { raw := b, opcode := fld b 0 1, tag := bits (fld b 1 1) 4 0, flags := fld b 2 2, seq := fld b 4 4, id := fld b 8 16,
    addr := fld b 24 8, len := fld b 32 8, offset := fld b 40 8, origLen := fld b 48 8, franking := fld b 56 4,
    control := fld b 60 2 }

/-- Format, level and window log of an ingest lie in range (R156, R476). -/
def ingestOk (control : Nat) : Bool :=
  let f := bits control 1 0
  let level := bits control 7 4
  let w := bits control 12 8
  bits control 3 2 == 0 && bits control 15 13 == 0 && decide (1 ≤ level ∧ level ≤ 12) &&
    (w == 0 || (if f = 3 then decide (10 ≤ w ∧ w ≤ 31) else decide (9 ≤ w ∧ w ≤ 15)))

/-- No reserved field, bit or use is nonzero (Table 16.4, R476). -/
def Sub.clean (s : Sub) : Bool :=
  let noBuf := s.addr == 0 && s.len == 0
  let noObj := s.origLen == 0 && s.franking == 0
  bits (fld s.raw 1 1) 7 5 == 0 && fld s.raw 62 2 == 0 &&
    (match s.opcode with
    | 1 => decide (s.flags < 2) && noObj && s.control == 0
    | 2 =>
      decide (s.flags < 8) && s.offset == 0 &&
        (if bit s.flags 0 then !bit s.flags 2 && s.origLen == 0 && (bit s.flags 1 || s.franking == 0) && ingestOk s.control
          else !bit s.flags 1 && s.control == 0)
    | 5 => s.flags == 0 && s.offset == 0 && noObj && s.control == 0
    | 6 => s.flags == 0 && s.offset == 0 && noObj && decide (s.control < 8)
    | _ => s.flags == 0 && noBuf && s.offset == 0 && noObj && s.control == 0)

/-- Completion entries reserved for commands in flight (R471). -/
def Queue.reserved (x : Queue) : Nat := ((x.cmds.filter fun c => !c.detached).map fun c => 1 + c.held).sum

/-- A fetched submission that passed its checks, by the first matching row of Table 16.6. -/
def Dev.lbxHandle (d : Dev) (q index : Nat) (x : Queue) (s : Sub) : Dev :=
  let crc := crc32c s.raw
  let f := fun st => ({ status := st, index := index, sub := s.raw } : FreezeInfo)
  match x.cmd s.tag with
  | some c =>
    if c.sub.seq ≠ s.seq then d.lbxFreezeWith q (f St.LBX_TAG_BUSY)
    else if c.crc ≠ crc then d.lbxFreezeWith q (f St.LBX_REPLAY_MISMATCH)
    else (d.lbxCount x fun k => { k with lbxHeld := k.lbxHeld + 1 }).onCmd q s.tag fun c => { c with held := c.held + 1 }
  | none =>
    let fresh := d.onQueue q fun x => { x with cmds := x.cmds ++ [{ sub := s, crc := crc, index := index, at_ := d.now }] }
    match x.replays.find? fun r => r.1 == s.tag with
    | none => fresh
    | some (_, r) =>
      if r.seq ≠ s.seq then fresh
      else if r.crc ≠ crc then d.lbxFreezeWith q (f St.LBX_REPLAY_MISMATCH)
      else (d.lbxCount x fun k => { k with lbxReplays := k.lbxReplays + 1 }).lbxPost q
        { tag := s.tag, flags := 2, status := r.status, seq := r.seq, result := r.result } index s.raw

/-- One submission fetched from SQ_HEAD (R471, R479, R481). -/
def Dev.lbxFetchOne (m : Mem) (d : Dev) (x : Queue) : Dev :=
  let q := x.number
  let a := x.sqBase + 64 * x.sqHead
  match hostRead m d x.port a 64 with
  | none =>
    let e := (d.hostRefused x.port a 64 false).getD 0
    d.lbxFreeze q { status := St.LBX_DMA_FETCH, index := x.sqHead, dmaAddr := d.refusedAt x.port a 64 false, error := e }
  | some b =>
    let s := subOf b
    let d := d.lbxCount x fun k => { k with lbxFetched := k.lbxFetched + 1 }
    let d := d.onQueue q fun x => { x with sqHead := if x.sqSize ≤ x.sqHead + 1 then 0 else x.sqHead + 1, fetched := x.fetched + 1 }
    if s.opcode < 1 ∨ 7 < s.opcode then d.lbxFreezeWith q { status := St.LBX_OPCODE, index := x.sqHead, sub := b }
    else if s.clean = false then d.lbxFreezeWith q { status := St.LBX_RESERVED, index := x.sqHead, sub := b }
    else d.lbxHandle q x.sqHead x s

/-- SQ_TAIL of the last doorbell, and its CQ_HEAD (R470). -/
def Queue.sqTail (x : Queue) : Nat := bits x.doorbell.toNat 15 0
def Queue.newCqHead (x : Queue) : Nat := bits x.doorbell.toNat 31 16

/-- Fetching goes on: running, entries left, and a completion entry to reserve (R471). -/
def Queue.fetches (x : Queue) : Bool :=
  x.state == .running && x.sqHead != x.sqTail && decide (x.unreleased + x.reserved < x.cqSize)

/-- Entries fetched in ring order (R471). -/
def Dev.lbxFetch (m : Mem) (q : Nat) : Nat → Dev → Dev
  | 0, d => d
  | n + 1, d => match d.queue q with
    | none => d
    | some x => if x.fetches && d.lbxRuns x.port then Dev.lbxFetch m q n (Dev.lbxFetchOne m d x) else d

/-- A running queue acts on its last doorbell value (R470, R471, R481). -/
def Dev.lbxApply (m : Mem) (d : Dev) (q : Nat) : Dev :=
  match d.queue q with
  | none => d
  | some x =>
    if x.state ≠ .running ∨ d.lbxRuns x.port = false then d
    else
      let adv := (x.newCqHead + x.cqSize - x.cqHead) % x.cqSize
      if x.sqSize ≤ x.sqTail ∨ x.cqSize ≤ x.newCqHead ∨ x.unreleased < adv then
        d.lbxFreeze q { status := St.LBX_DOORBELL, index := 0xFFFF }
      else
        let d := d.onQueue q fun x => { x with cqHead := x.newCqHead, unreleased := x.unreleased - adv }
        Dev.lbxFetch m q x.sqSize d

/-- Port whose doorbell block holds a BAR4 offset (R470, R636). -/
def doorbellPort (offset : Nat) : Option Nat :=
  (List.range 4).find? fun k => decide (Config.doorbellBase k ≤ offset ∧ offset < Config.doorbellBase k + 32768)

/-- DOORBELL_WRITE (R470, R471, R482): a BAR4 write in a doorbell block reaches DRAM and the letterbox unit. -/
def doorbellWriteEffect (port offset size : Nat) (value : BitVec 64) (m : Mem) (d : Dev) : Dev :=
  match doorbellPort offset with
  | none => d
  | some k =>
    if d.pins.trained.getD port false = false then d
    else
      let d := d.dramWrite offset (le size value.toNat)
      if size ≠ 8 ∨ (offset - Config.doorbellBase k) % 8 ≠ 0 then
        d.onCtrs (2 * k) fun c => { c with lbxDoorbellIgnored := c.lbxDoorbellIgnored + 1 }
      else
        let q := (offset - Config.doorbellBase k) / 8
        match d.queue q with
        | none => d
        | some x =>
          if x.port ≠ k ∨ d.lbxRuns k = false then d
          else Dev.lbxApply m ((d.onQueue q fun x => { x with doorbell := value }).lbxTouch x) q

/-- A write to a queue's doorbell word: fetching of submissions, and completion space released. -/
def execDoorbellWrite (port offset size : Nat) (value : BitVec 64) (s : State) : Host.Outcome State Fault Refusal :=
  .next (s.put (doorbellWriteEffect port offset size value s.mem s.dev))

/-- INT_DELAY_EXPIRY (R473): INT_DELAY µs after the first completion not yet signalled. -/
def intDelayExpiryEffect (queue : Nat) (_m : Mem) (d : Dev) : Dev :=
  match d.queue queue with
  | none => d
  | some x =>
    if x.unsignalled = 0 ∨ x.intEnabled = false then d
    else (d.until (x.unsignalledAt + x.intDelay * 1000)).lbxInterrupt queue

/-- INT_DELAY passing since the first unsignalled completion of a queue. -/
def execIntDelayExpiry (queue : Nat) (s : State) : Host.Outcome State Fault Refusal :=
  .next (s.put (intDelayExpiryEffect queue s.mem s.dev))

/-! ### LBX pigeonhole commands (R465, R469, R483 to R485) -/

/-- TABLE_BASE of a port lasts while a queue of the port is not deleted (R466). -/
def Lbx.tidy (x : Lbx) : Lbx :=
  { x with tableBase := x.tableBase.zipIdx.map fun p => if (x.queues.any fun q => q.port == p.2) then p.1 else none }

/-- Fields 0 to 63 of an entry lie within Table 16.1 and its rings are aligned (R469). -/
def entryOk (q port : Nat) (e : Bytes) : Bool :=
  cut e 0 4 == ascii "LBXQ" && fld e 4 2 == q && fld e 6 1 == port && fld e 7 1 == 0 &&
    fld e 8 8 % 4096 == 0 && fld e 16 8 % 4096 == 0 && decide (2 ≤ fld e 24 2 ∧ fld e 24 2 ≤ 4096) &&
    decide (2 ≤ fld e 26 2 ∧ fld e 26 2 ≤ 4096) && decide (fld e 28 2 ≤ 2047) && decide (fld e 31 1 < 2) &&
    (cut e 34 30).all (· == 0)

/-- The queue an entry describes, just created (R469). -/
def queueOf (q port : Nat) (e : Bytes) (replays : List (Nat × Replay)) (cmds : List Cmd) : Queue :=
  { number := q, port := port, sqBase := fld e 8 8, cqBase := fld e 16 8, sqSize := fld e 24 2, cqSize := fld e 26 2,
    vector := fld e 28 2, intCount := fld e 30 1, intEnabled := bit (fld e 31 1) 0, intDelay := fld e 32 2,
    replays := replays, cmds := cmds }

/-- LBX_CREATE (R465, R466, R469). -/
def lbxCreateRun (p : Nat) (b : Bytes) (m : Mem) (d : Dev) : Dev :=
  let q := fld b 0 2
  let port := fld b 2 1
  let base := fld b 8 8
  let old := d.queue q
  if 4096 ≤ q ∨ 3 < port ∨ base % 4096 ≠ 0 then d.answer p (fail St.PGH_FIELD)
  else if (old.any fun x => x.state != .idle) then d.answer p (fail St.LBX_QUEUE_STATE)
  else if ((d.lbx.tableBase.getD port none).any fun t => t != base) then d.answer p (fail St.LBX_TABLE_BASE)
  else match hostRead m d port (base + 128 * q) 64 with
    | none => d.answer p (fail St.LBX_QUEUE_BAD)
    | some e =>
      if entryOk q port e = false then d.answer p (fail St.LBX_QUEUE_BAD)
      else
        let x := queueOf q port e (old.elim [] (·.replays)) (old.elim [] (·.cmds))
        let l := ({ d.lbx with
          queues := (d.lbx.queues.filter fun y => y.number != q) ++ [x]
          tableBase := d.lbx.tableBase.set port (some base) } : Lbx)
        (({ d with lbx := l.tidy } : Dev).lbxWriteback q).answer p { body := le 8 (Config.doorbellBase port + 8 * q) }

/-- Bytes 0 to 4,063 of a queue's error log page (Table 16.8). -/
def Queue.errorLog (x : Queue) (e : ErrPage) : Bytes :=
  layout 4064 [(0, ascii "LBXE"), (4, le 2 x.number), (6, le 2 e.status.toNat), (8, le 4 e.freezeCount), (12, le 2 e.sqIndex),
    (14, le 1 e.tag), (15, le 1 e.pcieError), (16, le 8 e.time), (24, le 8 e.dmaAddr), (32, le 8 x.doorbell.toNat),
    (40, le 2 e.inFlight), (42, le 2 (min 0xFFFF e.later)), (44, le 4 e.seq), (48, e.submission),
    (112, le 4 (x.cmds.foldl (fun a c => a + 2 ^ c.sub.tag) 0))]

/-- LBX_ERROR_LOG (R483). -/
def lbxErrorLogRun (p : Nat) (b : Bytes) (_m : Mem) (d : Dev) : Dev :=
  if 4096 ≤ fld b 0 2 then d.answer p (fail St.PGH_FIELD)
  else match (d.queue (fld b 0 2)).bind fun x => x.errPage.map x.errorLog with
    | none => d.answer p (fail St.LBX_QUEUE_STATE)
    | some page => d.answer p { body := page }

/-- LBX_RESTART (R484). -/
def lbxRestartRun (p : Nat) (b : Bytes) (m : Mem) (d : Dev) : Dev :=
  let q := fld b 0 2
  if 4096 ≤ q then d.answer p (fail St.PGH_FIELD)
  else match d.queue q with
    | none => d.answer p (fail St.LBX_QUEUE_STATE)
    | some x =>
      if x.state ≠ .frozen then d.answer p (fail St.LBX_QUEUE_STATE)
      else if fld b 4 4 ≠ x.freezeCount then d.answer p (fail St.LBX_RESTART_STALE)
      else Dev.lbxApply m ((d.lbxState q .running).answer p {}) q

/-- A command that runs to its end under LBX_RESET: a PUT whose COMMIT is buffered, DISCARD, FLUSH (R485). -/
def Cmd.runsOn (c : Cmd) : Bool := c.sub.opcode == 3 || c.sub.opcode == 7 || (c.sub.opcode == 2 && c.phase == .committing)

/-- A SECURE_DISCARD past SECURE_BEGIN, which goes on detached (R485). -/
def Cmd.goesDetached (c : Cmd) : Bool := c.sub.opcode == 4 && (c.phase == .securing || c.phase == .committing)

/-- PUTs of a queue that no command holds any more end with nothing committed; their streams are free (R412, R485). -/
def Store.dropPuts (s : Store) (p : PutRun → Bool) : Store :=
  let gone := s.puts.filter p
  { s with
    puts := s.puts.filter fun x => !p x
    programs := s.programs.filter fun x => match x.work with
      | .page q t => !(gone.any fun g => g.queue == q && g.tag == t)
      | _ => true
    streams := s.streams.map fun x => if (gone.any fun g => g.stream == (x.die, x.number)) then { x with busy := false } else x }

/-- The reset of a queue responds: idle with SQ_HEAD, CQ_TAIL and FREEZE_COUNT 0, or deleted with its records (R485). -/
def Dev.lbxResetDone (d : Dev) (q : Nat) : Dev :=
  match d.queue q with
  | none => d
  | some x => match x.resetting with
    | none => d
    | some (mode, ph) =>
      let d := d.onQueue q fun x => { x with
        state := if mode = 1 then .deleted else .idle
        sqHead := 0, cqTail := 0, cqPhase := true, freezeCount := 0, freezeStatus := 0, cqHead := 0, unreleased := 0,
        doorbell := 0, resetting := none, later := [] }
      let d := (d.lbxWriteback q).lbxInterrupt q
      let d := if mode = 1 then
          let d := d.onStore fun s => { s with secures := s.secures.map fun y =>
            if (y.queue.any fun z => z.1 == q) then { y with queue := none } else y }
          let l := ({ d.lbx with queues := d.lbx.queues.filter fun y => y.number != q, cache := d.lbx.cache.erase q } : Lbx)
          { d with lbx := l.tidy }
        else d
      d.answerTo ph {}

/-- A queue being reset has nothing left to wait for. -/
def Queue.settled (x : Queue) : Bool := x.resetting.isSome && !(x.cmds.any Cmd.runsOn)

/-- LBX_RESET of a queue that is not deleted begins (R485): commands in flight end or go on by kind, and the response follows
when those that run on have ended. -/
def Dev.lbxResetBegin (d : Dev) (q mode : Nat) (ph : Option Nat) : Dev :=
  match d.queue q with
  | none => d
  | some x =>
    let keep := fun (c : Cmd) => c.detached || c.runsOn || c.goesDetached
    let d := d.onQueue q fun x => { x with
      cmds := (x.cmds.filter keep).map fun c => { c with held := 0, detached := c.detached || c.goesDetached }
      errPage := none, resetting := some (mode, ph) }
    let d := d.onStore fun s => s.dropPuts fun w => w.queue == q && !(x.cmds.any fun c => c.sub.tag == w.tag && keep c)
    let d := d.lbxState q .resetting
    if (d.queue q).any Queue.settled then d.lbxResetDone q else d

/-- LBX_RESET (R485). -/
def lbxResetRun (p : Nat) (b : Bytes) (_m : Mem) (d : Dev) : Dev :=
  let q := fld b 0 2
  if 4096 ≤ q ∨ 1 < fld b 2 1 then d.answer p (fail St.PGH_FIELD)
  else match d.queue q with
    | none => d.answer p (fail St.LBX_QUEUE_STATE)
    | some _ => d.lbxResetBegin q (fld b 2 1) (some p)

/-- A command naming a queue that is resetting acts after the reset has responded (R485). -/
def lbxOrdered (run : Nat → Bytes → Mem → Dev → Dev) (p : Nat) (b : Bytes) (m : Mem) (d : Dev) : Dev :=
  match d.queue (fld b 0 2) with
  | some x => if x.state = .resetting then d.onQueue x.number fun x => { x with later := x.later ++ [p] } else run p b m d
  | none => run p b m d

/-- The command of opcode 0x0C01. -/
def lbxCreateOp : PghOp where
  opcode := 0x0C01
  used := [(0, 2), (2, 1), (8, 8)]
  run := lbxOrdered lbxCreateRun

/-- The command of opcode 0x0C02. -/
def lbxErrorLogOp : PghOp where
  opcode := 0x0C02
  used := [(0, 2)]
  run := lbxOrdered lbxErrorLogRun

/-- The command of opcode 0x0C03. -/
def lbxRestartOp : PghOp where
  opcode := 0x0C03
  used := [(0, 2), (4, 4)]
  run := lbxOrdered lbxRestartRun

/-- The command of opcode 0x0C04. -/
def lbxResetOp : PghOp where
  opcode := 0x0C04
  used := [(0, 2), (2, 1)]
  run := lbxOrdered lbxResetRun

/-- The LBX command a pigeonhole that waited is serving. -/
def lbxAgain (m : Mem) (d : Dev) (p : Nat) : Dev :=
  let req := (d.hole p).request
  let op := if fld req 6 2 = 0x0C01 then lbxCreateOp else if fld req 6 2 = 0x0C02 then lbxErrorLogOp
    else if fld req 6 2 = 0x0C03 then lbxRestartOp else lbxResetOp
  op.run p (cut req 32 op.size) m d

/-- Resets whose last command has ended respond, and the commands behind them act (R485). -/
def Dev.lbxSettle (m : Mem) (d : Dev) : Dev :=
  (d.lbx.queues.filter Queue.settled).foldl (fun d x => x.later.foldl (lbxAgain m) (d.lbxResetDone x.number)) d

/-- LBX_CREATE: a letterbox queue created from its table entry. -/
def execLbxCreate (p : Nat) (frame : Bytes) (s : State) : Host.Outcome State Fault Refusal :=
  .next (s.put (lbxCreateOp.ring p frame s.mem s.dev))

/-- LBX_ERROR_LOG: the page of a queue's last freeze. -/
def execLbxErrorLog (p : Nat) (frame : Bytes) (s : State) : Host.Outcome State Fault Refusal :=
  .next (s.put (lbxErrorLogOp.ring p frame s.mem s.dev))

/-- LBX_RESTART: a frozen queue runs again. -/
def execLbxRestart (p : Nat) (frame : Bytes) (s : State) : Host.Outcome State Fault Refusal :=
  .next (s.put (lbxRestartOp.ring p frame s.mem s.dev))

/-- LBX_RESET: a queue reset or deleted. -/
def execLbxReset (p : Nat) (frame : Bytes) (s : State) : Host.Outcome State Fault Refusal :=
  .next (s.put (lbxResetOp.ring p frame s.mem s.dev))

end Sys2Proof.Machine
end

