-- ==== Sys2Proof/Machine/Media.lean ====
section
/-! DEFINITION. Moving data on the media (14, 15): cells moved whole, objects placed anew, parity of stripes, blocks erased and
retired, garbage, and check values of an object that disagree. -/

namespace Sys2Proof.Machine

open Sys2Proof

/-! ### GF(2^8) and parity (R414, R453) -/

/-- Multiplication over GF(2^8) with 0x11D. -/
def gfMulLoop : Nat → Nat → Nat → Nat → Nat
  | 0, _, _, r => r
  | n + 1, a, b, r =>
    let a2 := if 128 ≤ a then (2 * a) ^^^ 0x11D else 2 * a
    gfMulLoop n a2 (b / 2) (if b % 2 = 1 then r ^^^ a else r)

/-- gf_mul (R453). -/
def gfMul (a b : Nat) : Nat := gfMulLoop 8 a b 0

/-- gf_inv (R453): the element whose product with a is 1, and 0 for 0. -/
def gfInv (a : Nat) : Nat := ((List.range 256).find? fun x => gfMul a x == 1).getD 0

/-- coeff(i, t) with m parity members (R453). -/
def parityCoeff (m i t : Nat) : Nat := gfInv ((i ^^^ (m + t)) % 256)

/-- Byte-wise sum of a page and c times another. -/
def gfAddPage (acc page : Bytes) (c : Nat) : Bytes := (acc.zip page).map fun p => p.1 ^^^ BitVec.ofNat 8 (gfMul c p.2.toNat)

/-- Page j of a cell as the version in effect fills it, 0 where nothing does (R413). -/
def Store.cellPage (s : Store) (n j : Nat) : Bytes :=
  match s.cell n with
  | none => zeros 4096
  | some c => match c.holds.find? fun h => decide (h.at_ ≤ j ∧ j < h.at_ + h.count) with
    | none => zeros 4096
    | some h => match s.objs.find? fun o => o.id == h.id && o.putSeq == h.putSeq with
      | none => zeros 4096
      | some o => o.page (h.first + j - h.at_)

/-- Parity pages of a stripe, parity member by parity member (R453). -/
def Store.parityOf (s : Store) (cells : List Nat) : List (List Bytes) :=
  let data := cells.take s.k
  (List.range s.m).map fun i => (List.range 256).map fun j =>
    data.zipIdx.foldl (fun acc p => gfAddPage acc (s.cellPage p.1 j) (parityCoeff s.m i p.2)) (zeros 4096)

/-- Parity of the stripes that p picks out computed anew. -/
def Store.reparity (s : Store) (p : Stripe → Bool) : Store :=
  { s with stripes := s.stripes.map fun x => if p x then { x with parity := s.parityOf x.cells } else x }

/-! ### Directories (R418, R419) -/

/-- Directory of a dataset: its identifier. -/
def directoryId (handle : Nat) : Nat := systemObjId 1 handle

/-- The directory page that names offset o of a dataset is rewritten under a lazy record (R419). -/
def Dev.dirRewrite (d : Dev) (handle o : Nat) : Dev :=
  let id := directoryId handle
  match d.object id with
  | none => d
  | some x => d.pushLazy (partitionOf id) (.dirUpdate id ((o + 1) / 64) x.firstCell)

/-- Directory pages that name an object are rewritten (R419). -/
def Dev.dirTouched (d : Dev) (id : Nat) : Dev :=
  (d.datasets.filter (·.closed)).foldl (fun d x =>
    match x.entries.findIdx? fun e => e.id == id with
    | some o => d.dirRewrite x.handle o
    | none => d) d

/-! ### Moving (R410, R412, R433, R445, R449) -/

/-- The cell a store has just allocated gives its slot to cell c and is no cell itself. -/
def Store.takeSlot (s : Store) (fresh c now : Nat) : Store :=
  match s.cell fresh with
  | none => s
  | some y =>
    let s := { s with cells := s.cells.filter fun x => x.number != fresh }
    s.onCell c fun x => { x with slot := y.slot, programmedAt := now / 1000000000, temp := y.temp, refreshBy := none }

/-- A store in which cell c lies in a slot elsewhere: on its own LUN, else, for an SLC cell, on another sled that p allows or in
its die's rotation; none without room. -/
def Store.moveCell (s : Store) (c now : Nat) (p : Nat → Bool) : Option Store :=
  match s.cell c with
  | none => none
  | some x =>
    let sled := slotSled x.slot
    let native := (s.block (blockKey x.slot)).native
    let here := if p sled then s.allocOn (lunKey x.slot) native now else none
    match here with
    | some (f, s) => some (s.takeSlot f c now)
    | none =>
      if native then none
      else
        let die := sled / 2
        let twin := (s.cells.find? fun y => y.mirror == c || y.number == x.mirror).map fun y => slotSled y.slot
        let sleds := ((sled :: mirrorSleds sled) ++ [2 * die, 2 * die + 1]).filter fun k => p k && some k != twin
        match sleds.findSome? fun k => s.allocSled k now 128 0 with
        | some (f, s) => some (s.takeSlot f c now)
        | none => none

/-- Cell c moved whole (R410): its old slot joins the ledger for each page it holds, and a CELL_MOVE record follows. -/
def Dev.relocate (d : Dev) (c : Nat) (p : Nat → Bool := fun _ => true) : Dev :=
  match d.store.cell c, d.store.moveCell c d.now p with
  | some x, some s =>
    let d := d.onStore fun _ => { s with ledger := s.ledger ++ x.holds.map fun h => (h.id, h.putSeq, x.slot) }
    let d := x.holds.foldl (fun d h => d.pushLazy (partitionOf h.id) (.ledger h.putSeq x.slot false)) d
    d.pushLazy (cellDie c) (.cellMove c (((s.cell c).map (·.slot)).getD 0))
  | _, _ => d

/-- An object placed anew in SLC cells; its former pages are stale (R433, R434 step 2). Unchanged without room. -/
def Dev.rehome (d : Dev) (id : Nat) : Dev :=
  match d.object id with
  | none => d
  | some o =>
    let e := d.staleHolds id o.putSeq
    match e.store.placeObj (e.store.dieFor (partitionOf id)) 15 d.now o with
    | none => d
    | some r =>
      let f := r.first.getD (0, 0)
      let e := e.onStore fun _ => r.store
      let e := e.onObj id fun o => { o with firstCell := f.1, firstPage := f.2, inSlc := true }
      let e := e.pushLazy (partitionOf id) (.foldRec id o.putSeq f.1 f.2)
      (e.onStore Store.recount).dirTouched id

/-- A PUT under way is placed anew, from its first page: its former pages are garbage. -/
def Dev.replacePut (d : Dev) (w : PutRun) : Dev :=
  let e := d.staleHolds w.obj.id w.obj.putSeq
  match e.store.placeObj w.stream.1 w.stream.2 d.now w.obj with
  | none => d
  | some r =>
    let f := r.first.getD (0, 0)
    e.onStore fun _ => { r.store with
      puts := updWhere r.store.puts (fun x => x.queue == w.queue && x.tag == w.tag) fun x => { x with next := 0, obj := { x.obj with firstCell := f.1, firstPage := f.2 } } }

/-! ### Cells freed and blocks erased (R412, R423, R433) -/

/-- A cell is freed under a CELL_FREE record; a write stream no longer uses it. -/
def Dev.freeCell (d : Dev) (c : Nat) : Dev :=
  match d.store.cell c with
  | none => d
  | some x =>
    let d := d.onStore fun s => { s with
      cells := (s.cells.filter fun y => y.number != c).map fun y => { y with
        mirror := if y.mirror = c then 0xFFFFFFFF else y.mirror
        next := if y.next = c then 0xFFFFFFFF else y.next }
      streams := s.streams.map fun y => { y with
        cell := if y.cell = some c then none else y.cell
        page := if y.cell = some c then 0 else y.page
        reserved := y.reserved.filter (· != c) } }
    d.pushLazy (cellDie c) (.cellFree c x.slot)

/-- Lazy records not yet programmed (R423). -/
def Dev.lazyPending (d : Dev) : List JRec :=
  (d.store.parts.flatMap fun p => p.lazy_.map (·.what)) ++ d.store.programs.flatMap fun x => match x.work with
    | .journal _ recs => recs.map (·.what)
    | .page .. => []

/-- A block waits for a record that released a cell of it (R423). -/
def Dev.blockHeld (d : Dev) (key : Nat) : Bool :=
  let stale := fun (id ps : Nat) => d.store.ledger.any fun l => l.1 == id && l.2.1 == ps && blockKey l.2.2 == key
  d.lazyPending.any fun r => match r with
    | .cellFree _ slot => blockKey slot == key
    | .foldRec id ps _ _ => stale id ps
    | .cellMove c _ => ((d.store.cell c).map fun x => x.holds.any fun h => stale h.id h.putSeq).getD false
    | _ => false

/-- A block whose cells are all free can be erased: its sled takes cells, and no record is owed (R423). -/
def Dev.erasable (d : Dev) (key : Nat) : Bool :=
  let b := d.store.block key
  decide (0 < b.used) && !b.retired && (d.store.sled (slotSled key)).allocates &&
    !(d.store.cells.any fun c => blockKey c.slot == key) && !d.blockHeld key

/-- Ledger entries of a block dropped, with their records (R433). -/
def Dev.ledgerDrop (d : Dev) (p : Nat → Bool) : Dev :=
  let gone := d.store.ledger.filter fun l => p l.2.2
  let d := d.onStore fun s => { s with ledger := s.ledger.filter fun l => !p l.2.2 }
  gone.foldl (fun d l => d.pushLazy (partitionOf l.1) (.ledger l.2.1 l.2.2 true)) d

/-- Floor strength of a block's mode on its sled (R443). -/
def Store.floorOf (s : Store) (b : Block) : Nat :=
  let x := s.sled (slotSled b.key)
  if b.native then x.nativeFloor else x.slcFloor

/-- A block is erased: its strength follows its floor and its raise, and a MEDIA_STATE record is made (R443, R447). -/
def Dev.eraseBlock (d : Dev) (key : Nat) : Dev :=
  let b := d.store.block key
  let strength := min 8 (max (d.store.floorOf b) (b.strength + b2n b.raise))
  let d := d.onStore fun s => s.onBlock key fun b => { b with erases := b.erases + 1, used := 0, raise := false, strength := strength }
  let d := if strength = b.strength then d else d.pushLazy (slotSled key / 2) (.mediaState key 0 strength)
  (d.pushLazy (slotSled key / 2) (.mediaState key 3 (b.erases + 1))).ledgerDrop fun s => blockKey s == key

/-! ### Retired blocks and LUNs (R449, R455) -/

/-- Unit of a LUN or block in a fault report: die, sled of the die and channel. -/
def lunUnit (slot : Nat) : UnitRef := { kind := 0x08, die := slotSled slot / 2, cluster := 0xF, core := slotSled slot % 2, slot := slotChannel slot }

/-- Members on LUNs that p picks out are lost (R455). -/
def Store.loseMembers (s : Store) (p : Nat → Bool) : Store :=
  { s with groups := s.groups.map fun g => { g with members := g.members.map fun x => if p x.lun then { x with lost := true } else x } }

/-- A LUN is retired when more than 2 % of its blocks are (R449). -/
def Dev.retireLun (d : Dev) (lun : Nat) : Dev :=
  let x := d.store.sled (slotSled lun)
  let n := (d.store.blocks.filter fun b => b.retired && lunKey b.key == lun).length
  if d.store.retiredLuns.contains lun ∨ 50 * n ≤ x.planes * x.blocks then d
  else
    let d := d.onStore fun s => ({ s with retiredLuns := s.retiredLuns ++ [lun], freeLuns := s.freeLuns.filter (· != lun) } : Store).loseMembers (· == lun)
    d.report St.MED_LUN_RETIRED (lunUnit lun) (BitVec.ofNat 64 lun)

/-- A block is retired; what its cells hold is written again elsewhere (R449). -/
def Dev.retireBlock (d : Dev) (key : Nat) : Dev :=
  let die := slotSled key / 2
  let d := d.onStore fun s => s.onBlock key fun b => { b with retired := true }
  let d := d.onCtrs die fun c => { c with blocksRetired := c.blocksRetired + 1 }
  let d := d.report St.MED_BLOCK_RETIRED (lunUnit key) (BitVec.ofNat 64 key)
  let d := (d.store.cells.filter fun c => blockKey c.slot == key).foldl (fun d c => d.relocate c.number) d
  d.retireLun (lunKey key)

/-! ### Check values that disagree (R517) -/

/-- Header and directory value of one entry compared with what decoding gives; the wrong one is rewritten (R517, Table 17.9). -/
def Dev.checkValue (d : Dev) (id handle o : Nat) : Dev :=
  match d.object id, d.dataset handle with
  | some x, some s =>
    let dir := s.dirFranking.getD o x.franking
    if dir = x.franking then d
    else
      let die := d.servingDie (partitionOf id)
      let holds := fun crc => (recoverOriginal x.stored x.origLen crc).isOk
      if holds x.franking then
        let d := { d with datasets := updWhere d.datasets (fun y => y.handle == handle) fun y => { y with dirFranking := y.dirFranking.set o x.franking } }
        let d := (d.dirRewrite handle o).onInteg die fun c => { c with settleRepaired := c.settleRepaired + 1 }
        d.report St.INT_CHECK_REPAIRED (storeUnit die)
      else if holds dir then
        let d := (d.onObj id fun x => { x with franking := dir }).onInteg die fun c => { c with settleRepaired := c.settleRepaired + 1 }
        d.report St.INT_CHECK_REPAIRED (storeUnit die)
      else
        (d.onInteg die fun c => { c with settleUndecided := c.settleUndecided + 1 }).report St.INT_SETTLE_UNDECIDED (storeUnit die)
  | _, _ => d

/-- The comparison for every closed dataset that names an object (R517). -/
def Dev.checkValues (d : Dev) (id : Nat) : Dev :=
  (d.datasets.filter (·.closed)).foldl (fun d x =>
    match x.entries.findIdx? fun e => e.id == id with
    | some o => d.checkValue id x.handle o
    | none => d) d

end Sys2Proof.Machine
end

