-- ==== Sys2Proof/Machine/Datasets.lean ====
section
/-! DEFINITION. Datasets (R38 to R43, R405, R406, R418, R590): opening, filling, closing, verifying, deleting. -/

namespace Sys2Proof.Machine

open Sys2Proof

/-- A dataset handle that is held (R587). -/
def dsetHeld (b : Bytes) (d : Dev) : Bool := (d.dataset (fld b 0 4)).isSome

/-- d with a dataset changed. -/
def Dev.onDataset (d : Dev) (h : Nat) (f : Dataset → Dataset) : Dev :=
  { d with datasets := updWhere d.datasets (fun x => x.handle == h) f }

/-- A DSET record of a dataset, in the partition of its directory (Table 14.6). -/
def dsetRec (h op segment directory count : Nat) (digest : Bytes) : Nat × JRec :=
  (partitionOf (directoryId h), .dset h op segment directory count digest)

/-- SEGMENT field of a dataset. -/
def Dataset.segField (x : Dataset) : Nat := x.segment.getD 0xFFFFFFFF

/-! ### DSET_OPEN (R39, R587) -/

/-- DSET_OPEN: a slot taken, its handle answered once the record is durable. -/
def dsetOpenRun (p : Nat) (b : Bytes) (_m : Mem) (d : Dev) : Dev :=
  let seg := fld b 0 4
  if seg ≠ 0xFFFFFFFF ∧ 65536 ≤ seg then d.answer p (fail St.PGH_FIELD)
  else match freeSlot 1024 (d.datasets.map (·.handle)) with
    | none => d.answer p (fail St.PGH_DATASET_TABLE_FULL)
    | some s =>
      let h := handleOf s (d.dsetGens.getD s 0)
      let x : Dataset := { handle := h, segment := if seg = 0xFFFFFFFF then none else some seg }
      let d := { d with datasets := d.datasets ++ [x] }
      d.answerAfter p { body := le 4 h } [dsetRec h 0 seg 0 0 []]

/-- The command of opcode 0x0301. -/
def dsetOpenOp : PghOp where
  opcode := 0x0301
  used := [(0, 4)]
  run := dsetOpenRun

/-- DSET_OPEN: new dataset handle. -/
def execDsetOpen (p : Nat) (frame : Bytes) (s : State) : Host.Outcome State Fault Refusal :=
  .next (s.put (dsetOpenOp.ring p frame s.mem s.dev))

/-! ### DSET_ADD_MANIFEST (R39, R41, R405, R406) -/

/-- A manifest entry (Table 2.1). -/
def manifestOf (b : Bytes) : Manifest :=
  { id := fld b 0 16, storedLen := fld b 16 8, origLen := fld b 24 8, franking := fld b 32 4, format := fld b 36 2, label := fld b 40 8 }

/-- Bytes of a manifest entry (Table 2.1). -/
def Manifest.bytes (x : Manifest) : Bytes :=
  layout 48 [(0, le 16 x.id), (16, le 8 x.storedLen), (24, le 8 x.origLen), (32, le 4 x.franking), (36, le 2 x.format), (40, le 8 x.label)]

/-- Why an entry cannot be added, the pins of the entries before it counted: R406, then R405. -/
def Dev.manifestRefusal (d : Dev) (before : List Manifest) (e : Manifest) : Option Status :=
  match d.object e.id with
  | none => some St.STO_NO_OBJECT
  | some o =>
    if e.storedLen ≠ o.stored.length ∨ e.origLen ≠ o.origLen ∨ e.franking ≠ o.franking then some St.STO_OBJECT_DIFFERS
    else if 65535 ≤ o.pins + before.countP fun x => x.id == e.id then some St.STO_PIN_LIMIT
    else none

/-- First entry that cannot be added: status and index. -/
def Dev.firstRefused (d : Dev) : List Manifest → Nat → List Manifest → Option (Status × Nat)
  | _, _, [] => none
  | before, i, e :: es => match d.manifestRefusal before e with
    | some st => some (st, i)
    | none => d.firstRefused (before ++ [e]) (i + 1) es

/-- DSET_ADD_MANIFEST (R39, R406, R590): all entries appended and pinned, or none. -/
def dsetAddManifestRun (p : Nat) (b : Bytes) (m : Mem) (d : Dev) : Dev :=
  let h := fld b 0 4
  let n := fld b 4 4
  match d.dataset h with
  | none => d.answer p (fail St.PGH_HANDLE)
  | some x =>
    if x.closed ∨ x.segment.isNone then d.answer p (fail St.PGH_DATASET_STATE)
    else if fld b 8 8 ≠ x.entries.length ∨ 2 ^ 36 < x.entries.length + n then d.answer p (fail St.PGH_FIELD)
    else match pghRead m d p (fld b 16 8, 48 * n) with
      | none => d.answer p (fail St.PGH_DMA)
      | some bytes =>
        let raw := chunks 48 (n + 1) bytes
        match raw.findIdx? fun e => fld e 38 2 != 0 with
        | some i => d.answer p (fail St.PGH_FIELD i)
        | none =>
          let es := raw.map manifestOf
          match d.firstRefused [] 0 es with
          | some (st, i) => d.answer p (fail st i)
          | none =>
            let d := d.onDataset h fun x => { x with entries := x.entries ++ es }
            let r := d.pinAll Dev.pin (es.map (·.id))
            r.1.answerAfter p { body := le 8 (x.entries.length + n) } r.2

/-- The command of opcode 0x0302. -/
def dsetAddManifestOp : PghOp where
  opcode := 0x0302
  used := [(0, 4), (4, 4), (8, 8), (16, 8)]
  handles := dsetHeld
  run := dsetAddManifestRun

/-- DSET_ADD_MANIFEST: entries appended to an open dataset. -/
def execDsetAddManifest (p : Nat) (frame : Bytes) (s : State) : Host.Outcome State Fault Refusal :=
  .next (s.put (dsetAddManifestOp.ring p frame s.mem s.dev))

/-! ### DSET_CLOSE (R42, R418) -/

/-- Segment digest over entries (R42). -/
def segmentDigest (es : List Manifest) : Bytes := sha256 (es.flatMap Manifest.bytes)

/-- Rows of a segment table (Table 2.2). -/
def segRows (t : Bytes) : List (Nat × Bytes) := (chunks 40 (t.length + 1) (t.drop 16)).map fun r => (fld r 0 8, cut r 8 32)

/-- The table itself holds (R42). -/
def segTableOk (x : Dataset) (t : Bytes) : Bool :=
  let n := fld t 4 4
  let rows := segRows t
  let total := (rows.map (·.1)).sum
  decide (16 ≤ t.length) && t.take 4 == ascii "MNFT" && decide (1 ≤ n ∧ n ≤ 65536) && t.length == 16 + 40 * n &&
    rows.all (fun r => decide (r.1 ≤ 2 ^ 36)) && fld t 8 8 == total && decide (total ≤ 2 ^ 48) &&
    x.segment.all fun s => decide (s < n)

/-- The device's own row equals what it holds (R42); a dataset with no segment has none to compare. -/
def segRowOk (x : Dataset) (t : Bytes) : Bool := match x.segment with
  | none => true
  | some s =>
    let r := (segRows t).getD s (0, [])
    r.1 == x.entries.length && r.2 == segmentDigest x.entries

/-- A directory entry of Table 2.1's entry and the place of its object (R418). -/
def Dev.directoryEntry (d : Dev) (e : Manifest) : Bytes :=
  match d.object e.id with
  | none => fit 64 e.bytes
  | some o => layout 64 [(0, e.bytes), (48, le 4 o.firstCell), (52, le 1 o.firstPage), (53, le 1 (b2n o.inSlc)), (56, le 8 o.putSeq)]

/-- The dataset is closed and its directory written; the answer follows the records (R42, R418, R422). -/
def Dev.closeDataset (d : Dev) (p : Nat) (x : Dataset) (t : Bytes) : Dev :=
  let dg := sha256 t
  let sd := segmentDigest x.entries
  let d := d.onDataset x.handle fun x => { x with
    closed := true, segs := segRows t, digest := dg, segDigest := sd, dirFranking := x.entries.map (·.franking) }
  let a : Answer := { body := dg ++ le 8 (fld t 8 8) }
  match x.segment with
  | none => d.answerAfter p a [dsetRec x.handle 1 x.segField 0 0 []]
  | some _ =>
    let id := directoryId x.handle
    let r := d.systemObj id false (x.entries.flatMap d.directoryEntry)
    r.1.answerAfter p a (r.2 ++ [dsetRec x.handle 1 x.segField id x.entries.length sd])

/-- DSET_CLOSE (R39, R42). -/
def dsetCloseRun (p : Nat) (b : Bytes) (m : Mem) (d : Dev) : Dev :=
  let buf := hostBuf b 8
  match d.dataset (fld b 0 4) with
  | none => d.answer p (fail St.PGH_HANDLE)
  | some x =>
    if x.closed then d.answer p (fail St.PGH_DATASET_STATE)
    else if buf.2 < 56 ∨ 16 + 40 * 65536 < buf.2 then d.answer p (fail St.PGH_FIELD)
    else match pghRead m d p buf with
      | none => d.answer p (fail St.PGH_DMA)
      | some t =>
        if segTableOk x t = false then d.answer p (fail St.PGH_FIELD)
        else if segRowOk x t = false then d.answer p (fail St.PGH_MANIFEST_MISMATCH)
        else d.closeDataset p x t

/-- The command of opcode 0x0303. -/
def dsetCloseOp : PghOp where
  opcode := 0x0303
  used := [(0, 4), (8, 16)]
  handles := dsetHeld
  run := dsetCloseRun

/-- DSET_CLOSE: dataset closed and its directory written. -/
def execDsetClose (p : Nat) (frame : Bytes) (s : State) : Host.Outcome State Fault Refusal :=
  .next (s.put (dsetCloseOp.ring p frame s.mem s.dev))

/-! ### DSET_VERIFY (R43, R517) -/

/-- Entry o of a dataset checked: its failure, where it has one. -/
def Dev.verifyEntry (d : Dev) (h o : Nat) (e : Manifest) : Dev × Option Status :=
  match d.object e.id with
  | none => (d, some St.STO_NO_OBJECT)
  | some x =>
    let r := d.readObj x
    match r.1 with
    | .error st => (r.2, some st)
    | .ok bytes =>
      let d := r.2.checkValue e.id h o
      match recoverOriginal bytes e.origLen e.franking with
      | .ok _ => (d, none)
      | .error err => (d, some err.status)

/-- Every entry from offset o on checked: failures as (offset, status). -/
def Dev.verifyAll (d : Dev) (h : Nat) : List Manifest → Nat → Dev × List (Nat × Status)
  | [], _ => (d, [])
  | e :: es, o =>
    let r := d.verifyEntry h o e
    let rest := r.1.verifyAll h es (o + 1)
    (rest.1, match r.2 with
      | some st => (o, st) :: rest.2
      | none => rest.2)

/-- Manifest entries as the directory holds them. -/
def Dataset.dirEntries (x : Dataset) : List Manifest :=
  (x.entries.zip x.dirFranking).map fun (p : Manifest × Nat) => ({ p.1 with franking := p.2 } : Manifest)

/-- DSET_VERIFY (R43, R590): RESULT takes as many failures as it holds. -/
def dsetVerifyRun (p : Nat) (b : Bytes) (_m : Mem) (d : Dev) : Dev :=
  let buf := hostBuf b 8
  match d.dataset (fld b 0 4) with
  | none => d.answer p (fail St.PGH_HANDLE)
  | some x =>
    if x.closed = false then d.answer p (fail St.PGH_DATASET_STATE)
    else
      let r := d.verifyAll x.handle x.entries 0
      let start := segmentStart (x.segs.map (·.1)) (x.segment.getD 0)
      let out := (r.2.map fun f => le 8 (start + f.1) ++ le 2 f.2.toNat ++ zeros 6).take (buf.2 / 16)
      let same := x.segment.isNone || (r.1.dataset x.handle).any fun y => segmentDigest y.dirEntries == x.segDigest
      let a : Answer := { body := le 8 x.entries.length ++ le 8 r.2.length ++ le 4 out.length ++ le 1 (b2n same) }
      if out = [] then r.1.answer p a
      else
        let w := r.1.hostWrite (portOf p) buf.1 buf.2 out.flatten
        if w.2 then w.1.answer p a else w.1.answer p (fail St.PGH_DMA)

/-- The command of opcode 0x0304. -/
def dsetVerifyOp : PghOp where
  opcode := 0x0304
  used := [(0, 4), (8, 16)]
  handles := dsetHeld
  run := dsetVerifyRun

/-- DSET_VERIFY: every object of the segment checked. -/
def execDsetVerify (p : Nat) (frame : Bytes) (s : State) : Host.Outcome State Fault Refusal :=
  .next (s.put (dsetVerifyOp.ring p frame s.mem s.dev))

/-! ### DSET_DELETE (R53, R405) -/

/-- DSET_DELETE (R39, R53): pins end, the directory goes, the slot's generation advances (R587). -/
def dsetDeleteRun (p : Nat) (b : Bytes) (_m : Mem) (d : Dev) : Dev :=
  let h := fld b 0 4
  match d.dataset h with
  | none => d.answer p (fail St.PGH_HANDLE)
  | some x =>
    if d.jobs.any fun j => j.dataset == h then d.answer p (fail St.PGH_DATASET_IN_USE)
    else
      let r := d.pinAll Dev.unpin (x.entries.map (·.id))
      let d := { r.1 with
        datasets := r.1.datasets.filter fun y => y.handle != h
        dsetGens := r.1.dsetGens.modify (slotOf h) fun g => (g + 1) % 2 ^ 22 }
      let d := (d.dropVersion (directoryId h)).onStore fun s => { s with dirPages := s.dirPages.filter fun y => y.1 != h }
      d.answerAfter p {} (r.2 ++ [dsetRec h 2 x.segField 0 0 []])

/-- The command of opcode 0x0305. -/
def dsetDeleteOp : PghOp where
  opcode := 0x0305
  used := [(0, 4)]
  handles := dsetHeld
  run := dsetDeleteRun

/-- DSET_DELETE: dataset removed and its objects unpinned. -/
def execDsetDelete (p : Nat) (frame : Bytes) (s : State) : Host.Outcome State Fault Refusal :=
  .next (s.put (dsetDeleteOp.ring p frame s.mem s.dev))

end Sys2Proof.Machine
end

