-- ==== Sys2Proof/Machine/Text.lean ====
section
/-! DEFINITION. Vocabularies, byte-level BPE, detokenisation and grammar automata (R240 to R257, R268 to R275): pure
functions of images and text. -/

namespace Sys2Proof.Machine

open Sys2Proof

/-! ### Vocabulary images (R240, R241) -/

/-- A vocabulary image's header fields. -/
structure Voc where
  v : Nat
  merges : Nat
  specials : Nat
  ranges : Nat
  pieceMax : Nat
  replace : Bool
  defaultClass : Nat
  bos : Nat
  eos : Nat
  strings : Nat
  offTokens : Nat
  offStrings : Nat
  offBytes : Nat
  offMerges : Nat
  offClasses : Nat
  offJoin : Nat
  offFlags : Nat
  offSpecials : Nat
  image : Bytes
  deriving Repr, DecidableEq, Inhabited

/-- Header of an image (Table 8.1). -/
def vocOf (b : Bytes) : Voc :=
  { v := fld b 12 4, merges := fld b 16 4, specials := fld b 20 2, ranges := fld b 22 2, pieceMax := fld b 24 2,
    replace := fld b 26 1 == 1, defaultClass := fld b 27 1, bos := fld b 28 4, eos := fld b 32 4, strings := fld b 36 4,
    offTokens := fld b 40 4, offStrings := fld b 44 4, offBytes := fld b 48 4, offMerges := fld b 52 4,
    offClasses := fld b 56 4, offJoin := fld b 60 4, offFlags := fld b 64 4, offSpecials := fld b 68 4, image := b }

/-- String of token t. -/
def Voc.str (x : Voc) (t : Nat) : Bytes :=
  let a := fld x.image (x.offTokens + 4 * t) 4
  cut x.image (x.offStrings + a) (fld x.image (x.offTokens + 4 * t + 4) 4 - a)

/-- Identifiers of the specials. -/
def Voc.specialIds (x : Voc) : List Nat := (List.range x.specials).map fun i => fld x.image (x.offSpecials + 4 * i) 4

/-- t is a special. -/
def Voc.isSpecial (x : Voc) (t : Nat) : Bool := x.specialIds.contains t

/-- Token of a byte value. -/
def Voc.byteTok (x : Voc) (b : Nat) : Nat := fld x.image (x.offBytes + 4 * b) 4

/-- (LEFT, RIGHT, RESULT) of rank r. -/
def Voc.merge (x : Voc) (r : Nat) : Nat × Nat × Nat :=
  let o := x.offMerges + 12 * r
  (fld x.image o 4, fld x.image (o + 4) 4, fld x.image (o + 8) 4)

/-- (FIRST, LAST, CLASS) of class range i. -/
def Voc.range (x : Voc) (i : Nat) : Nat × Nat × Nat :=
  let o := x.offClasses + 8 * i
  (fld x.image o 4, fld x.image (o + 4) 3, fld x.image (o + 7) 1)

/-- Sections: (offset, length). -/
def Voc.sections (x : Voc) : List (Nat × Nat) :=
  [(x.offTokens, 4 * (x.v + 1)), (x.offStrings, x.strings), (x.offBytes, 1024), (x.offMerges, 12 * x.merges),
   (x.offClasses, 8 * x.ranges), (x.offJoin, 32), (x.offFlags, 32), (x.offSpecials, 4 * x.specials)]

/-- Two sections share no byte; an empty one shares none. -/
def disjointSec (a b : Nat × Nat) : Bool :=
  a.2 == 0 || b.2 == 0 || decide (a.1 + a.2 ≤ b.1) || decide (b.1 + b.2 ≤ a.1)

/-- Every pair of a list satisfies r. -/
def pairsAll {α : Type} (r : α → α → Bool) : List α → Bool
  | [] => true
  | x :: xs => xs.all (r x) && pairsAll r xs

/-- Header ranges and section places hold. -/
def Voc.layoutOk (x : Voc) (b : Bytes) : Bool :=
  let len := fld b 8 4
  decide (128 ≤ b.length) && b.take 4 == ascii "VOCB" && fld b 4 2 == 1 && fld b 6 2 == 128 && len == b.length &&
    decide (len ≤ 67108864) && decide (256 ≤ x.v) && decide (x.v ≤ 262144) && decide (x.merges ≤ x.v - 256) &&
    decide (x.specials ≤ 1024) && decide (1 ≤ x.ranges) && decide (x.ranges ≤ 8192) && decide (64 ≤ x.pieceMax) &&
    decide (x.pieceMax ≤ 16384) && decide (fld b 26 1 ≤ 1) && decide (x.defaultClass ≤ 15) && (cut b 72 56).all (· == 0) &&
    x.sections.all (fun s => s.1 % 8 == 0 && decide (128 ≤ s.1) && decide (s.1 + s.2 ≤ len)) && pairsAll disjointSec x.sections

/-- Contents of the sections hold (R241, first list). -/
def Voc.contentOk (x : Voc) : Bool :=
  let offs := (List.range (x.v + 1)).map fun i => fld x.image (x.offTokens + 4 * i) 4
  let sp := x.specialIds
  let bytes := (List.range 256).map x.byteTok
  let rs := (List.range x.ranges).map x.range
  (offs.zip offs.tail).all (fun p => decide (p.1 ≤ p.2)) && offs.all (fun o => decide (o ≤ x.strings)) &&
    sp.all (fun t => decide (t < x.v)) &&
    (List.range x.v).all (fun t =>
      let n := (x.str t).length
      decide (1 ≤ n) && decide (n ≤ if sp.contains t then 256 else 1024)) &&
    pairsAll (fun a b => a != b && x.str a != x.str b) sp &&
    (List.range 256).all (fun k =>
      let t := x.byteTok k
      decide (t < x.v) && !sp.contains t && x.str t == [BitVec.ofNat 8 k]) &&
    pairsAll (fun (a b : Nat) => a != b) bytes &&
    rs.all (fun r => decide (r.1 ≤ r.2.1) && decide (r.2.1 ≤ 0x10FFFF) && decide (r.2.2 ≤ 15)) &&
    (rs.zip rs.tail).all (fun p => decide (p.1.2.1 < p.2.1)) &&
    (List.range 16).all (fun c => fld x.image (x.offFlags + 2 * c) 2 / 2 % 128 == 0) &&
    (x.bos == 0xFFFFFFFF || sp.contains x.bos) && (x.eos == 0xFFFFFFFF || sp.contains x.eos)

/-- The merge table is consistent (R241, second list). -/
def Voc.mergesOk (x : Voc) : Bool :=
  let ms := (List.range x.merges).map x.merge
  let bytes := (List.range 256).map x.byteTok
  ms.all (fun m => decide (m.1 < x.v) && decide (m.2.1 < x.v) && decide (m.2.2 < x.v) &&
    x.str m.2.2 == x.str m.1 ++ x.str m.2.1 && !x.isSpecial m.2.2 && !bytes.contains m.2.2) &&
  pairsAll (fun (a b : Nat × Nat × Nat) => !(a.1 == b.1 && a.2.1 == b.2.1) && a.2.2 != b.2.2) ms

/-- VOCAB_LOAD's check of an image: the status that refuses it, if any. -/
def vocabRefusal (b : Bytes) : Option Status :=
  let x := vocOf b
  if ¬(x.layoutOk b && x.contentOk) then some St.TOK_VOCAB_BAD
  else if ¬x.mergesOk then some St.TOK_VOCAB_MERGE else none

/-! ### UTF-8 (R246) -/

/-- What the first bytes of a text are. -/
inductive Utf8 where
  /-- a well-formed sequence: code point and length -/
  | ok (cp len : Nat)
  /-- an invalid unit of a length -/
  | bad (len : Nat)
  /-- the text ends inside a sequence that may still become well-formed -/
  | more
  deriving Repr, DecidableEq, Inhabited

/-- Ranges of the continuation bytes after a lead byte (Table 3-7 of the Unicode Standard); none for no lead byte. -/
def utf8Tail (x : Nat) : Option (List (Nat × Nat)) :=
  let c := (0x80, 0xBF)
  if x < 0x80 then some []
  else if x < 0xC2 then none
  else if x < 0xE0 then some [c]
  else if x = 0xE0 then some [(0xA0, 0xBF), c]
  else if x = 0xED then some [(0x80, 0x9F), c]
  else if x < 0xF0 then some [c, c]
  else if x = 0xF0 then some [(0x90, 0xBF), c, c]
  else if x < 0xF4 then some [c, c, c]
  else if x = 0xF4 then some [(0x80, 0x8F), c, c]
  else none

/-- Continuation bytes checked in turn. -/
def utf8Cont : List (Nat × Nat) → Bytes → Nat → Nat → Utf8
  | [], _, cp, n => .ok cp n
  | _, [], _, _ => .more
  | (lo, hi) :: rs, b :: bs, cp, n =>
    if lo ≤ b.toNat ∧ b.toNat ≤ hi then utf8Cont rs bs (cp * 64 + b.toNat % 64) (n + 1) else .bad n

/-- The first unit of a text that is not empty. -/
def utf8First : Bytes → Utf8
  | [] => .more
  | b :: bs =>
    match utf8Tail b.toNat with
    | none => .bad 1
    | some t => utf8Cont t bs (if t.length = 0 then b.toNat else b.toNat % 2 ^ (6 - t.length)) 1

/-- One unit of a segment: its class input, the bytes it is tokenised as, and the raw bytes it took. -/
structure TUnit where
  /-- code point, or none for an invalid unit under byte fallback -/
  cp : Option Nat
  bytes : Bytes
  raw : Nat
  invalid : Bool := false
  deriving Repr, DecidableEq, Inhabited

/-- U+FFFD in UTF-8. -/
def replacement : Bytes := [0xEF, 0xBF, 0xBD]

/-- Units of a segment; closed says that nothing follows it, so that an incomplete sequence is an invalid unit. Second:
raw bytes held. -/
def unitsOf (replace closed : Bool) : Nat → Bytes → List TUnit × Bytes
  | 0, b => ([], b)
  | _, [] => ([], [])
  | f + 1, b =>
    let bad (n : Nat) : TUnit :=
      if replace then { cp := some 0xFFFD, bytes := replacement, raw := n, invalid := true }
      else { cp := none, bytes := b.take n, raw := n, invalid := true }
    let go (u : TUnit) : List TUnit × Bytes :=
      let (l, h) := unitsOf replace closed f (b.drop u.raw)
      (u :: l, h)
    match utf8First b with
    | .ok cp n => go { cp := some cp, bytes := b.take n, raw := n }
    | .bad n => go (bad n)
    | .more => if closed then go (bad b.length) else ([], b)

/-! ### Pieces (R247) -/

/-- Class of a code point. -/
def Voc.classOf (x : Voc) (cp : Nat) : Nat :=
  (((List.range x.ranges).map x.range).find? fun r => decide (r.1 ≤ cp) && decide (cp ≤ r.2.1)).elim x.defaultClass (·.2.2)

/-- J[a][b]. -/
def Voc.join (x : Voc) (a b : Nat) : Bool := bit (fld x.image (x.offJoin + 2 * a) 2) b

/-- GIVE_LAST of a class. -/
def Voc.giveLast (x : Voc) (a : Nat) : Bool := bit (fld x.image (x.offFlags + 2 * a) 2) 0

/-- MAX_RUN of a class. -/
def Voc.maxRun (x : Voc) (a : Nat) : Nat := fld x.image (x.offFlags + 2 * a) 2 / 256

/-- Bytes of units. -/
def unitBytes (l : List TUnit) : Bytes := l.flatMap (·.bytes)

/-- Raw bytes of units. -/
def unitRaw (l : List TUnit) : Nat := (l.map (·.raw)).sum

/-- Units of class a at the head of the open piece, newest first. -/
def runOf (x : Voc) (a : Nat) (l : List TUnit) : Nat := (l.takeWhile fun u => x.classOf (u.cp.getD 0) == a).length

/-- Closed pieces of code-point units in order, and the open one (units newest first). -/
def piecesOf (x : Voc) : List TUnit → List TUnit → List (List TUnit) × List TUnit
  | [], cur => ([], cur)
  | u :: us, [] => piecesOf x us [u]
  | u :: us, p :: ps =>
    let cur := p :: ps
    let a := x.classOf (p.cp.getD 0)
    let b := x.classOf (u.cp.getD 0)
    let run := runOf x a cur
    let emit (done rest : List TUnit) : List (List TUnit) × List TUnit :=
      let (l, o) := piecesOf x us (u :: rest)
      (done.reverse :: l, o)
    if ¬x.join a b then emit cur []
    else if a = b ∧ x.maxRun a ≠ 0 ∧ run = x.maxRun a then emit cur []
    else if x.pieceMax < (unitBytes (u :: cur)).length then emit cur []
    else if x.giveLast a ∧ a ≠ b ∧ run = cur.length ∧ 2 ≤ run then emit ps [p]
    else piecesOf x us (u :: cur)

/-- Split of a segment's units at invalid units of byte fallback: runs of code points, and invalid units alone. -/
def splitBad : List TUnit → List TUnit → List (List TUnit × Option TUnit)
  | [], cur => [(cur.reverse, none)]
  | u :: us, cur => if u.cp.isNone then (cur.reverse, some u) :: splitBad us [] else splitBad us (u :: cur)

/-! ### Byte-pair merging (R248) -/

/-- Rank of a pair. -/
def Voc.rank (x : Voc) (a b : Nat) : Option Nat :=
  (List.range x.merges).find? fun r => (x.merge r).1 == a && (x.merge r).2.1 == b

/-- Best pair: (rank, place), strictly lower ranks first, then leftmost. -/
def bestPair (x : Voc) : Nat → List Nat → Option (Nat × Nat) → Option (Nat × Nat)
  | p, a :: b :: r, best =>
    let best := match x.rank a b with
      | some k => if best.all fun q => decide (k < q.1) then some (k, p) else best
      | none => best
    bestPair x (p + 1) (b :: r) best
  | _, _, best => best

/-- Merging until no pair is left. -/
def bpeLoop (x : Voc) : Nat → List Nat → List Nat
  | 0, ids => ids
  | f + 1, ids =>
    match bestPair x 0 ids none with
    | none => ids
    | some (r, p) => bpeLoop x f (ids.take p ++ [(x.merge r).2.2] ++ ids.drop (p + 2))

/-- bpe (R248). -/
def Voc.bpe (x : Voc) (b : Bytes) : List Nat := bpeLoop x b.length (b.map fun y => x.byteTok y.toNat)

/-! ### Tokenisation (R244, R245, R254) -/

/-- Tokens gathered, invalid units counted, and raw bytes held. -/
structure TokOut where
  ids : List Nat := []
  invalid : Nat := 0
  held : Bytes := []
  deriving Repr, DecidableEq, Inhabited

/-- One after another: the second starts where nothing is held. -/
def TokOut.then (a b : TokOut) : TokOut := { ids := a.ids ++ b.ids, invalid := a.invalid + b.invalid, held := b.held }

/-- A run of code points, closed or open at its end: its tokens, and the raw bytes of the open piece. -/
def tokRun (x : Voc) (closed : Bool) (l : List TUnit) : List Nat × Nat × Nat :=
  let (ps, o) := piecesOf x l []
  let ps := if closed ∧ o ≠ [] then ps ++ [o.reverse] else ps
  (ps.flatMap fun p => x.bpe (unitBytes p), ((ps.flatten).filter (·.invalid)).length, if closed then 0 else unitRaw o)

/-- A segment: text between specials. -/
def tokSegment (x : Voc) (closed : Bool) (b : Bytes) : TokOut :=
  let (us, inc) := unitsOf x.replace closed (b.length + 1) b
  let parts := splitBad us []
  let last := parts.length - 1
  let outs := parts.zipIdx.map fun p =>
    let (ids, inv, open_) := tokRun x (closed || decide (p.2 < last)) p.1.1
    match p.1.2 with
    | some u => (ids ++ u.bytes.map fun (y : Byte) => x.byteTok y.toNat, inv + 1, 0)
    | none => (ids, inv, open_)
  let openRaw := (outs.map (·.2.2)).sum
  { ids := outs.flatMap (·.1), invalid := (outs.map (·.2.1)).sum, held := b.drop (b.length - inc.length - openRaw) }

/-- Longest special that matches at the start of b. -/
def specialAt (x : Voc) (b : Bytes) : Option Nat :=
  x.specialIds.foldl (fun best t =>
    let s := x.str t
    if s.isPrefixOf b ∧ best.all (fun o => decide ((x.str o).length < s.length)) then some t else best) none

/-- The text from here may still become a longer special than any that matches. -/
def specialOpen (x : Voc) (b : Bytes) : Bool :=
  x.specialIds.any fun t => decide (b.length < (x.str t).length) && b.isPrefixOf (x.str t)

/-- Scan for specials: the segment in progress so far, and the text left. -/
def tokScan (x : Voc) (final : Bool) : Nat → Bytes → Bytes → TokOut
  | 0, seg, b => tokSegment x final (seg ++ b)
  | _, seg, [] => tokSegment x final seg
  | f + 1, seg, c :: cs =>
    if ¬final ∧ specialOpen x (c :: cs) then
      let o := tokSegment x false seg
      { o with held := o.held ++ c :: cs }
    else match specialAt x (c :: cs) with
      | some t =>
        let o := (tokSegment x true seg)
        TokOut.then { o with ids := o.ids ++ [t] } (tokScan x final f [] ((c :: cs).drop (x.str t).length))
      | none => tokScan x final f (seg ++ [c]) cs

/-- Tokens of a text, without BOS, EOS or truncation; with final clear the unsettled bytes are held (R254). -/
def Voc.tokens (x : Voc) (parse final : Bool) (b : Bytes) : TokOut :=
  if parse then tokScan x final (b.length + 1) [] b else tokSegment x final b

/-- BOS, EOS and truncation (R249): identifiers, truncated, BOS added, EOS added. -/
def Voc.finish (x : Voc) (addBos addEos : Bool) (m : Nat) (ids : List Nat) : List Nat × Bool × Bool × Bool :=
  let bos := addBos && x.bos != 0xFFFFFFFF
  let eos := addEos && x.eos != 0xFFFFFFFF
  let body := (if bos then [x.bos] else []) ++ ids
  let keep := if m = 0 then body.length else if eos then m - 1 else m
  let cutOff := decide (keep < body.length)
  (body.take keep ++ (if eos then [x.eos] else []), cutOff, bos && decide (0 < keep), eos)

/-- A token record (Table 8.3). -/
def tokRecord (v flags invalid input : Nat) (ids : List Nat) : Bytes :=
  Sys2Proof.Machine.layout 32 [(0, ascii "TOKD"), (4, le 2 1), (6, le 2 flags), (8, le 4 ids.length), (12, le 4 invalid),
    (16, le 8 input), (24, le 4 v)] ++ ids.flatMap (le 4)

/-- What TOKENISE counts for its job: FLAGS of its record, bytes and invalid units. -/
structure TokInfo where
  flags : Nat
  bytes : Nat
  invalid : Nat
  deriving Repr, DecidableEq, Inhabited

/-- TOKENISE (R251). -/
def tokeniseBytes (image : Bytes) (ctl m : Nat) (b : Bytes) : Bytes × TokInfo :=
  let x := vocOf image
  let o := x.tokens (bit ctl 2) true b
  let (ids, t, bos, eos) := x.finish (bit ctl 0) (bit ctl 1) m o.ids
  let flags := b2n (o.invalid != 0) + 2 * b2n t + 4 * b2n bos + 8 * b2n eos
  (tokRecord x.v flags o.invalid b.length ids, { flags := flags, bytes := b.length, invalid := o.invalid })

/-! ### Detokenisation (R256, R257) -/

/-- Rendered bytes examined as UTF-8: output, invalid units, bytes held when final is clear. -/
def renderText (replace final : Bool) (b : Bytes) : Bytes × Nat × Bytes :=
  let (us, h) := unitsOf replace final (b.length + 1) b
  (unitBytes us, (us.filter (·.invalid)).length, h)

/-- Strings of tokens in order, specials only with RENDER_SPECIAL. -/
def Voc.render (x : Voc) (special : Bool) (ids : List Nat) : Bytes :=
  ids.flatMap fun t => if x.isSpecial t ∧ ¬special then [] else x.str t

/-- u32 identifiers of a body. -/
def idsOf : Nat → Bytes → List Nat
  | 0, _ => []
  | f + 1, b => if b.length < 4 then [] else leNat (b.take 4) :: idsOf f (b.drop 4)

/-- A token record read: identifiers; none where its header is wrong. -/
def readTokens (b : Bytes) : Option (List Nat) :=
  if b.length < 32 ∨ b.take 4 ≠ ascii "TOKD" ∨ fld b 4 2 ≠ 1 ∨ b.length ≠ 32 + 4 * fld b 8 4 then none
  else some (idsOf (b.length + 1) (b.drop 32))

/-- DETOKENISE (R251, R256): its output and invalid units, or the status that fails the item. -/
def detokeniseBytes (image : Bytes) (ctl : Nat) (b : Bytes) : Except Status (Bytes × Nat) :=
  let x := vocOf image
  match readTokens b with
  | none => .error St.TOK_RECORD
  | some ids =>
    if ids.any fun t => decide (x.v ≤ t) then .error St.TOK_TOKEN_RANGE
    else
      let (out, inv, _) := renderText x.replace true (x.render (bit ctl 0) ids)
      .ok (out, inv)

/-! ### Grammars (R268 to R275) -/

/-- A grammar image's header fields. -/
structure Gram where
  states : Nat
  classes : Nat
  stackMax : Nat
  start : Nat
  endTok : Nat
  vocab : Bytes
  image : Bytes
  deriving Repr, DecidableEq, Inhabited

/-- Header of an image (Table 8.6). -/
def gramOf (b : Bytes) : Gram :=
  { states := fld b 12 4, classes := fld b 16 1, stackMax := fld b 18 2, start := fld b 20 4, endTok := fld b 24 4,
    vocab := cut b 32 32, image := b }

/-- Offset of TRANSITIONS. -/
def Gram.offTrans (g : Gram) : Nat := 352 + roundUp g.states 8

/-- Transition entry of a state and class: (ACTION, NEXT, RET). -/
def Gram.entry (g : Gram) (s c : Nat) : Nat × Nat × Nat :=
  let o := g.offTrans + 8 * (s * g.classes + c)
  (fld g.image o 1 % 4, fld g.image (o + 2) 2, fld g.image (o + 4) 2)

/-- Class of a byte. -/
def Gram.byteClass (g : Gram) (x : Nat) : Nat := fld g.image (96 + x) 1

/-- ACCEPT of a state. -/
def Gram.accept (g : Gram) (s : Nat) : Bool := bit (fld g.image (352 + s) 1) 0

/-- Layout and ranges of an image, its END_TOKEN apart (R268). -/
def Gram.layoutOk (g : Gram) (b : Bytes) : Bool :=
  decide (96 ≤ b.length) && b.take 4 == ascii "GRMR" && fld b 4 2 == 1 && fld b 6 2 == 96 && fld b 8 4 == b.length &&
    decide (1 ≤ g.states) && decide (g.states ≤ 65536) && decide (1 ≤ g.classes) && decide (g.classes ≤ 64) &&
    decide (1 ≤ g.stackMax) && decide (g.stackMax ≤ 1024) && decide (g.start < g.states) && fld b 17 1 == 0 &&
    fld b 28 4 == 0 && (cut b 64 32).all (· == 0) && b.length == g.offTrans + 8 * g.states * g.classes &&
    (List.range 256).all (fun x => decide (g.byteClass x < g.classes)) &&
    (List.range g.states).all (fun s => decide (fld b (352 + s) 1 < 2)) &&
    (cut b (352 + g.states) (roundUp g.states 8 - g.states)).all (· == 0) &&
    (List.range (g.states * g.classes)).all (fun i =>
      let o := g.offTrans + 8 * i
      fld b o 2 / 4 == 0 && decide (fld b (o + 2) 2 < g.states) && decide (fld b (o + 4) 2 < g.states) && fld b (o + 6) 2 == 0)

/-- One byte acts on a configuration (R269). -/
def Gram.step (g : Gram) (c : GConf) (x : Byte) : Option GConf :=
  let (a, n, r) := g.entry c.state (g.byteClass x.toNat)
  match a with
  | 1 => some { c with state := n }
  | 2 => if c.stack.length = g.stackMax then none else some { state := n, stack := r :: c.stack }
  | 3 => match c.stack with
    | [] => none
    | s :: st => some { state := s, stack := st }
  | _ => none

/-- Bytes act in turn. -/
def Gram.run (g : Gram) : Bytes → GConf → Option GConf
  | [], c => some c
  | x :: xs, c => (g.step c x).bind (g.run xs)

/-- END_TOKEN is allowed in a configuration. -/
def Gram.endAllowed (g : Gram) (c : GConf) : Bool := g.accept c.state && c.stack.isEmpty

/-- A token is allowed in a configuration (R270). -/
def Gram.allowed (g : Gram) (x : Voc) (c : GConf) (t : Nat) : Bool :=
  if x.isSpecial t then t == g.endTok && g.endAllowed c else (g.run (x.str t) c).isSome

/-- Tokens allowed, ascending. -/
def Gram.mask (g : Gram) (x : Voc) (c : GConf) : List Nat := (List.range x.v).filter (g.allowed x c)

/-- The start configuration. -/
def Gram.init (g : Gram) : GConf := { state := g.start, stack := [] }

/-- A walk reaches a POP with its own stack empty (R275). -/
def Gram.popsEmpty (g : Gram) : Bytes → GConf → Bool
  | [], _ => false
  | x :: xs, c =>
    match g.step c x with
    | some c => g.popsEmpty xs c
    | none => (g.entry c.state (g.byteClass x.toNat)).1 == 3 && c.stack.isEmpty

/-- D(s). -/
def Gram.depthSum (g : Gram) (x : Voc) (s : Nat) : Nat :=
  ((List.range x.v).map fun t =>
    if !x.isSpecial t && g.popsEmpty (x.str t) { state := s, stack := [] } then (x.str t).length else 0).sum

/-- STEP_NS (R275). -/
def Gram.stepNs (g : Gram) (x : Voc) : Nat :=
  (List.range g.states).foldl (fun m s => max m (1000 + (x.v + 15) / 16 + 4 * g.depthSum x s)) 0

/-- Intervals of an ascending list (R272). -/
def intervals : List Nat → List (Nat × Nat)
  | [] => []
  | t :: ts => match intervals ts with
    | (a, b) :: r => if t + 1 = a then (t, b) :: r else (t, t) :: (a, b) :: r
    | [] => [(t, t)]

/-- Mask bytes and whether the interval form is used (R272). -/
def maskBytes (v : Nat) (bitmap : Bool) (m : List Nat) : Bytes × Bool :=
  let words := (v + 31) / 32
  let iv := intervals m
  if ¬bitmap ∧ 8 * iv.length < 4 * words then (iv.flatMap fun p => le 4 p.1 ++ le 4 p.2, true)
  else ((List.range words).flatMap fun w => le 4 ((m.filter fun t => t / 32 == w).foldl (fun a t => a + 2 ^ (t % 32)) 0), false)

end Sys2Proof.Machine
end

