-- ==== Sys2Proof/Machine/RouteCmds.lean ====
section
/-! DEFINITION. Routes, vocabularies and grammars loaded and unloaded (R117, R118, R240 to R242, R268, R275, R590). -/

namespace Sys2Proof.Machine

open Sys2Proof

/-- Firmware semantics version of the Roist image in service (R315). -/
def Dev.semantics (d : Dev) : Nat := if d.seqs.image = 1 then d.nor.imageB.semantics else d.nor.imageA.semantics

/-! ### ROUTE_LOAD, ROUTE_VALIDATE, ROUTE_UNLOAD -/

/-- The resident route of a digest (R118). -/
def Dev.route (d : Dev) (dg : Bytes) : Option Route := d.routes.find? fun r => r.digest == dg

/-- DETAIL of a refused route (Table 20.2): stage index, FORMAT. -/
def routeDetail (x : RouteBad) : Nat := x.2.1 + x.2.2 * 65536

/-- The binary in a host buffer. A buffer no binary can fill fails check 1 unread (Table 4.14). -/
def Dev.binaryIn (d : Dev) (m : Mem) (p : Nat) (buf : Nat × Nat) : Except Answer Bytes :=
  if buf.2 < 64 ∨ 68160 < buf.2 then .error (fail St.RTE_ROUTE_BAD 0xFFFFFFFF)
  else match pghRead m d p buf with
    | none => .error (fail St.PGH_DMA)
    | some b => .ok b

/-- ROUTE_LOAD (R117, R118): a binary already resident needs no second copy. -/
def routeLoadRun (p : Nat) (b : Bytes) (m : Mem) (d : Dev) : Dev :=
  match d.binaryIn m p (hostBuf b 0) with
  | .error a => d.answer p a
  | .ok bin =>
    let dg := sha256 bin
    if (d.route dg).isSome then d.answer p { body := dg }
    else match routeCheck d.semantics (decide (64 ≤ d.routes.length)) bin with
      | some x => d.answer p (fail x.1 (routeDetail x))
      | none =>
        let r : Route := { digest := dg, binary := bin }
        ({ d with routes := d.routes ++ [r] } : Dev).answer p { body := dg }

/-- The command of opcode 0x0401. -/
def routeLoadOp : PghOp where
  opcode := 0x0401
  used := [(0, 16)]
  run := routeLoadRun

/-- ROUTE_LOAD: a route binary checked and made resident. -/
def execRouteLoad (p : Nat) (frame : Bytes) (s : State) : Host.Outcome State Fault Refusal :=
  .next (s.put (routeLoadOp.ring p frame s.mem s.dev))

/-- ROUTE_VALIDATE (R117): the checks, and nothing loaded. -/
def routeValidateRun (p : Nat) (b : Bytes) (m : Mem) (d : Dev) : Dev :=
  match d.binaryIn m p (hostBuf b 0) with
  | .error a => d.answer p a
  | .ok bin => match routeCheck d.semantics false bin with
    | some x => d.answer p (fail x.1 (routeDetail x))
    | none => d.answer p { body := sha256 bin }

/-- The command of opcode 0x0402. -/
def routeValidateOp : PghOp where
  opcode := 0x0402
  used := [(0, 16)]
  run := routeValidateRun

/-- ROUTE_VALIDATE: a route binary checked. -/
def execRouteValidate (p : Nat) (frame : Bytes) (s : State) : Host.Outcome State Fault Refusal :=
  .next (s.put (routeValidateOp.ring p frame s.mem s.dev))

/-- Configurations a job not destroyed uses, the staged one among them (R118, R242). -/
def Job.confs (j : Job) : List JobConf := j.conf :: (j.old.filter j.live).map (·.conf) ++ (j.staged.map (·.conf)).toList

/-- A route is used (R118). -/
def Dev.routeUsed (d : Dev) (dg : Bytes) : Bool := d.jobs.any fun j => j.confs.any fun c => c.routeDigest == dg

/-- ROUTE_UNLOAD (R118). -/
def routeUnloadRun (p : Nat) (b : Bytes) (_m : Mem) (d : Dev) : Dev :=
  let dg := cut b 0 32
  if d.routeUsed dg then d.answer p (fail St.RTE_ROUTE_IN_USE)
  else ({ d with routes := d.routes.filter fun r => r.digest != dg } : Dev).answer p {}

/-- The command of opcode 0x0403; its digest is its handle (Table 20.8). -/
def routeUnloadOp : PghOp where
  opcode := 0x0403
  used := [(0, 32)]
  handles := fun b d => (d.route (cut b 0 32)).isSome
  run := routeUnloadRun

/-- ROUTE_UNLOAD: a route removed. -/
def execRouteUnload (p : Nat) (frame : Bytes) (s : State) : Host.Outcome State Fault Refusal :=
  .next (s.put (routeUnloadOp.ring p frame s.mem s.dev))

/-! ### VOCAB_LOAD and VOCAB_UNLOAD (R240 to R242) -/

/-- Resident vocabulary of a digest. -/
def Dev.vocab (d : Dev) (dg : Bytes) : Option Vocab := d.vocabs.find? fun v => v.digest == dg

/-- Resident vocabulary of a slot. -/
def Dev.vocabAt (d : Dev) (slot : Nat) : Option Vocab := d.vocabs.find? fun v => v.slot == slot

/-- Stored bytes of an object; none is the empty string, which no digest of an image has. -/
def Dev.objectBytes (d : Dev) (id : Nat) : Bytes := ((d.object id).map (·.stored)).getD []

/-- The object can take one more pin (R405). -/
def Dev.pinRoom (d : Dev) (id : Nat) : Bool := (d.object id).all fun o => decide (o.pins < 65535)

/-- VOCAB_LOAD (R240 to R242). -/
def vocabLoadRun (p : Nat) (b : Bytes) (_m : Mem) (d : Dev) : Dev :=
  let id := fld b 0 16
  let image := d.objectBytes id
  let dg := sha256 image
  if dg ≠ cut b 16 32 then d.answer p (fail St.TOK_VOCAB_DIGEST)
  else match d.vocab dg with
    | some v => d.answer p { body := le 1 v.slot }
    | none => match vocabRefusal image with
      | some st => d.answer p (fail st)
      | none => match (List.range 16).find? fun s => (d.vocabAt s).isNone with
        | none => d.answer p (fail St.TOK_VOCAB_TABLE_FULL)
        | some s =>
          if d.pinRoom id = false then d.answer p (fail St.STO_PIN_LIMIT)
          else
            let v : Vocab := { slot := s, digest := dg, object := id, image := image }
            let r := ({ d with vocabs := d.vocabs ++ [v] } : Dev).pin id
            r.1.answerAfter p { body := le 1 s } r.2

/-- The command of opcode 0x0501. -/
def vocabLoadOp : PghOp where
  opcode := 0x0501
  used := [(0, 16), (16, 32)]
  run := vocabLoadRun

/-- VOCAB_LOAD: a vocabulary image made resident in a slot. -/
def execVocabLoad (p : Nat) (frame : Bytes) (s : State) : Host.Outcome State Fault Refusal :=
  .next (s.put (vocabLoadOp.ring p frame s.mem s.dev))

/-- A stream request or a text held in a context names a slot (R242, R259). -/
def Stream.names (s : Stream) (slot : Nat) : Bool :=
  (s.running.toList ++ s.waiting.toList).any (fun r => r.op != 3 && r.vocab == slot) || (!s.tokCtx.isEmpty && s.tokSlot == slot)

/-- A vocabulary is in use (R242). -/
def Dev.vocabUsed (d : Dev) (v : Vocab) : Bool :=
  (d.jobs.any fun j => j.confs.any fun c => (routeOf c.route).vocabs.contains v.digest) ||
    (d.grammars.any fun g => (gramOf g.image).vocab == v.digest) || d.streams.any fun s => s.names v.slot

/-- VOCAB_UNLOAD with KIND 0 (R242); KIND above 1 is out of range. -/
def vocabUnloadRun (p : Nat) (b : Bytes) (_m : Mem) (d : Dev) : Dev :=
  if fld b 0 1 ≠ 0 then d.answer p (fail St.PGH_FIELD)
  else match d.vocabAt (fld b 4 4) with
    | none => d.answer p (fail St.TOK_VOCAB_SLOT)
    | some v =>
      if d.vocabUsed v then d.answer p (fail St.TOK_VOCAB_IN_USE)
      else
        let r := d.unpin v.object
        ({ r.1 with vocabs := r.1.vocabs.filter fun x => x.slot != v.slot } : Dev).answerAfter p {} r.2

/-- The command of opcode 0x0502 for a KIND other than 1. -/
def vocabUnloadOp : PghOp where
  opcode := 0x0502
  used := [(0, 1), (4, 4)]
  run := vocabUnloadRun

/-- KIND of an unload request (Table 20.6). -/
def unloadKind (frame : Bytes) : Nat := fld frame 32 1

/-- VOCAB_UNLOAD: a vocabulary removed from its slot. A request of KIND 1 is the other command of the opcode. -/
def execVocabUnload (p : Nat) (frame : Bytes) (s : State) : Host.Outcome State Fault Refusal :=
  .next (s.put (if unloadKind frame = 1 then s.dev else vocabUnloadOp.ring p frame s.mem s.dev))

/-! ### GRAMMAR_LOAD and its unload (R268, R275) -/

/-- Grammar of a handle (R587). -/
def Dev.grammar (d : Dev) (h : Nat) : Option Grammar := d.grammars.find? fun g => g.handle == h

/-- A grammar whose image and vocabulary hold is made resident (R268, R275). -/
def Dev.grammarTake (d : Dev) (p id : Nat) (dg image : Bytes) (x : Voc) : Dev :=
  let ns := (gramOf image).stepNs x
  if 34000 < ns then d.answer p (fail St.GRM_TOO_COMPLEX)
  else match freeSlot 256 (d.grammars.map (·.handle)) with
    | none => d.answer p (fail St.GRM_TABLE_FULL)
    | some s =>
      if d.pinRoom id = false then d.answer p (fail St.STO_PIN_LIMIT)
      else
        let h := handleOf s (d.gramGens.getD s 0)
        let g : Grammar := { handle := h, digest := dg, object := id, image := image, stepNs := ns }
        let r := ({ d with grammars := d.grammars ++ [g] } : Dev).pin id
        r.1.answerAfter p { body := le 4 h ++ le 4 ns } r.2

/-- GRAMMAR_LOAD (R268): digest, layout, vocabulary, END_TOKEN, STEP_NS, table. -/
def grammarLoadRun (p : Nat) (b : Bytes) (_m : Mem) (d : Dev) : Dev :=
  let id := fld b 0 16
  let image := d.objectBytes id
  let dg := sha256 image
  let g := gramOf image
  if dg ≠ cut b 16 32 then d.answer p (fail St.GRM_IMAGE_BAD)
  else match d.grammars.find? fun x => x.digest == dg with
    | some x => d.answer p { body := le 4 x.handle ++ le 4 x.stepNs }
    | none =>
      if g.layoutOk image = false then d.answer p (fail St.GRM_IMAGE_BAD)
      else match d.vocab g.vocab with
        | none => d.answer p (fail St.GRM_VOCAB_MISSING)
        | some v =>
          if (vocOf v.image).isSpecial g.endTok = false then d.answer p (fail St.GRM_IMAGE_BAD)
          else d.grammarTake p id dg image (vocOf v.image)

/-- The command of opcode 0x0503. -/
def grammarLoadOp : PghOp where
  opcode := 0x0503
  used := [(0, 16), (16, 32)]
  run := grammarLoadRun

/-- GRAMMAR_LOAD: a grammar image made resident. -/
def execGrammarLoad (p : Nat) (frame : Bytes) (s : State) : Host.Outcome State Fault Refusal :=
  .next (s.put (grammarLoadOp.ring p frame s.mem s.dev))

/-- VOCAB_UNLOAD with KIND 1 (R268, R587). -/
def grammarUnloadRun (p : Nat) (b : Bytes) (_m : Mem) (d : Dev) : Dev :=
  let h := fld b 4 4
  match d.grammar h with
  | none => d.answer p (fail St.PGH_HANDLE)
  | some g =>
    if d.streams.any fun s => s.kind == 2 && s.grammar == h then d.answer p (fail St.GRM_IN_USE)
    else
      let r := d.unpin g.object
      ({ r.1 with
          grammars := r.1.grammars.filter fun x => x.handle != h
          gramGens := r.1.gramGens.modify (slotOf h) fun n => (n + 1) % 2 ^ 22 } : Dev).answerAfter p {} r.2

/-- The command of opcode 0x0502 for KIND 1. -/
def grammarUnloadOp : PghOp where
  opcode := 0x0502
  used := [(0, 1), (4, 4)]
  handles := fun b d => (d.grammar (fld b 4 4)).isSome
  run := grammarUnloadRun

/-- VOCAB_UNLOAD of a grammar: a grammar removed. A request of another KIND is the other command of the opcode. -/
def execGrammarUnload (p : Nat) (frame : Bytes) (s : State) : Host.Outcome State Fault Refusal :=
  .next (s.put (if unloadKind frame = 1 then grammarUnloadOp.ring p frame s.mem s.dev else s.dev))

end Sys2Proof.Machine
end

