-- ==== Sys2Proof/Machine/Sorting.lean ====
section
/-! DEFINITION. The sorting office's windows: sizes, mapping, rebuilding, discarding; the job description and what a job's
configuration must hold (R44, R82 to R88, R107, R206, R207, R292, R308). -/

namespace Sys2Proof.Machine

open Sys2Proof

/-! ### A job's description and configuration -/

/-- The canonical job description under a configuration (R44). -/
def Job.desc (j : Job) (c : JobConf) : JobDesc :=
  let r := routeOf c.route
  { tag := j.tag, manifest := j.manifestDigest, route := c.routeDigest, card := if r.cardLen = 0 then zeros 32 else c.cardDigest,
    vocab := vocabDigest r.vocabs, seed := j.seed, n := j.n, w := j.w, b := j.b, tickMult := j.tickMult, express := j.express }

/-- Postmark of the job (R44, R46). -/
def Job.postmark (j : Job) : Bytes := (j.desc j.conf).postmark

/-- Header of a card object (Table 7.2) against a route's CARD_LEN and a dataset's N (R206, R207). -/
def cardLayoutOk (o : Bytes) (cardLen n : Nat) : Bool :=
  let mode := fld o 6 1
  let epochs := fld o 20 4
  let count := fld o 32 8
  decide (64 ≤ o.length) && o.take 4 == ascii "CARD" && fld o 4 2 == 1 && decide (mode ≤ 1) && fld o 7 1 == 0 &&
    decide (16 ≤ fld o 8 2 ∧ fld o 8 2 ≤ 4096) && fld o 8 2 % 8 == 0 && (cut o 10 6).all (· == 0) &&
    decide (1 ≤ epochs ∧ epochs ≤ 65535) && (mode == 1 || (fld o 16 4 == 0 && epochs == 1)) && fld o 24 8 == n &&
    count == epochs * n && decide (count ≤ 2 ^ 36) && (cut o 40 24).all (· == 0) && fld o 8 2 == cardLen &&
    o.length == 64 + count * cardLen

/-- What is wrong with a card object named for a route, in the order of R207; a route without cards names none. -/
def Dev.cardRefusal (d : Dev) (cardLen n id : Nat) (dg : Bytes) : Option Status :=
  if cardLen = 0 then none
  else
    let o := d.objectBytes id
    if sha256 o ≠ dg then some St.VTE_CARD_DIGEST
    else if cardLayoutOk o cardLen n = false then some St.VTE_CARD_LAYOUT
    else none

/-- Largest vocabulary size of a route (R292). -/
def Dev.vocabMax (d : Dev) (r : RouteBin) : Nat := (r.vocabs.filterMap d.vocab).foldl (fun a v => max a (vocOf v.image).v) 0

/-- Every vocabulary a route names is resident (R118). -/
def Dev.vocabsResident (d : Dev) (r : RouteBin) : Bool := r.vocabs.all fun g => (d.vocab g).isSome

/-- The token DTYPE of a route that packs holds V − 1 (R292). -/
def Dev.tokenDtypeOk (d : Dev) (r : RouteBin) : Bool := match r.packer with
  | some s => decide (d.vocabMax r - 1 ≤ fmtMaxInt (r.decl s).dtype)
  | none => true

/-! ### Windows (R86, R87) -/

/-- Ranks of a job on a die. -/
def Job.ranksOn (j : Job) (die : Nat) : List Rank := j.ranks.filter fun r => r.die == die

/-- Reorder entries of a die that a job's windows hold, or a change it has prepared reserves (R87, R136). -/
def Job.entriesOn (j : Job) (die : Nat) : Nat :=
  let rs := j.ranksOn die
  let next := ((j.staged.bind fun x => x.sizes.find? fun w => w.1 == die).map (·.2)).getD 0
  (rs.map fun r => max r.windowSize next).sum

/-- Reorder entries of a die not held by a window; those of one job left out of the count. -/
def Dev.entriesFree (d : Dev) (die but : Nat) : Nat :=
  1048576 - ((d.jobs.filter fun j => j.handle != but).map fun j => j.entriesOn die).sum

/-- Window of each rank of a job on a die; none where it would be below 16 (R87). -/
def Dev.windowOn (d : Dev) (j : Job) (die look : Nat) : Option Nat :=
  let n := (j.ranksOn die).length
  let want := min (max (look * j.b) 16) 65536
  let size := if n * want ≤ d.entriesFree die j.handle then want else d.entriesFree die j.handle / n
  if size < 16 then none else some size

/-- Windows by die; none where some die's would be short (R87). -/
def Dev.windows (d : Dev) (j : Job) (look : Nat) : Option (List (Nat × Nat)) :=
  ((List.range 8).filter fun i => !(j.ranksOn i).isEmpty).mapM fun i => (d.windowOn j i look).map fun s => (i, s)

/-- Ranks given their windows. -/
def Job.withWindows (j : Job) (ws : List (Nat × Nat)) : Job :=
  { j with ranks := j.ranks.map fun r => match ws.find? fun w => w.1 == r.die with
      | some w => { r with windowSize := w.2 }
      | none => r }

/-! ### Mapping positions (R71, R80, R82, R83, R88) -/

/-- Manifest fields of an index this device holds (R39, R51): none for an index of a segment it does not hold. -/
def Dev.ownManifest (d : Dev) (j : Job) (index : Nat) : Option Manifest :=
  match d.dataset j.dataset, d.segmentOfIndex j index with
  | some x, some (s, off) =>
    if x.segment = some s then (x.entries[off]?).map fun m => { m with franking := x.dirFranking.getD off m.franking } else none
  | _, _ => none

/-- The position that stands in a slot of a step, mapped, and whether its walk was long (R71, R80, R82). -/
def Dev.mapEntry (d : Dev) (j : Job) (rank step slot : Nat) : Entry × Bool :=
  let e := step / max 1 j.k
  let q := position j.w j.b rank (step % max 1 j.k) slot
  let y := permuteCount q e j.seed j.n
  let x : Entry := { q := q, epoch := e, index := y.1, step := step, slot := slot, mappedAt := d.now }
  let x := match (if d.isLocal j y.1 then d.ownManifest j y.1 else none) with
    | some m => { x with storedLen := m.storedLen, origLen := m.origLen, franking := m.franking, format := m.format, label := m.label }
    | none => x
  (x, decide (65536 < y.2))

/-- The window advances over the next positions, at most fuel of them: it does not pass its size or the end step; a slot that an
entry moved by substitution still holds is passed over (R88, R107). -/
def Rank.fill (mk : Nat → Nat → Entry × Bool) (b endStep : Nat) : Nat → Rank → Rank
  | 0, r => r
  | f + 1, r =>
    if r.windowSize ≤ r.window.length ∨ endStep ≤ r.mapStep then r
    else
      let step := r.mapStep
      let slot := r.mapSlot
      let r := if slot + 1 < b then { r with mapSlot := slot + 1 } else { r with mapStep := step + 1, mapSlot := 0 }
      if r.window.any fun e => e.step == step && e.slot == slot then Rank.fill mk b endStep f r
      else
        let x := mk step slot
        Rank.fill mk b endStep f { r with
          window := r.window ++ [x.1]
          sort := if x.2 then { r.sort with longWalks := r.sort.longWalks + 1 } else r.sort }

/-- Step at which mapping stops: the seal's stop cursor, or the end cursor (R57, R88). -/
def Job.mapEnd (j : Job) : Nat := match j.sealRec with
  | some s => if j.state = .sealing then min (stepOf j.k s.stop) j.endStep else j.endStep
  | none => j.endStep

/-- A rank's window advances. -/
def Dev.advance (d : Dev) (job rank : Nat) : Dev :=
  match d.job job with
  | none => d
  | some j => d.onRank job rank fun r =>
    if r.dormant || r.stopped then r
    else r.fill (d.mapEntry j rank) j.b j.mapEnd (r.windowSize + r.window.length)

/-- A rank starts again from a step: its window is empty and stands there (R67, R308, R109). -/
def Rank.startAt (r : Rank) (step : Nat) : Rank :=
  { r with cursor := step, nextStep := step, mapStep := step, mapSlot := 0, window := [], bufferedTo := step, starved := false }

/-- Stop step of a job that is sealing: none before a seal. -/
def Job.stopStep (j : Job) : Option Nat := if j.state = .sealing then j.sealRec.map fun s => stepOf j.k s.stop else none

/-! ### A rank's parcels given up -/

/-- The fetch of an entry ends: a staging handle not being read is released, one being read follows with its READ, and the entry
waits for no reply (R108). -/
def Dev.dropFetch (d : Dev) (i : ItemRef) : Dev :=
  let die := d.postDie i
  let d := match (d.entry i).map (·.remote) with
    | some x =>
      let h := x.handle
      if x.staged = false ∨ x.reading then d
      else
        let qpn := match d.job i.job, d.entry i with
          | some j, some e => let ps := d.peersOf j e.index; j.peerQpn (if e.remote.toAlternate then ps.2 else ps.1)
          | _, _ => 0
        let y : HandleBack := { qpn := qpn, handle := h, since := d.now }
        d.onFetch die fun f => { f with releases := f.releases ++ [y] }
    | none => d
  d.onFetch die fun f => { f with
    waiting := f.waiting.filter fun w => w.item != i
    outstanding := f.outstanding.filter fun o => o.item != i }

/-- Every window entry of a rank is freed: items abandoned, reads given up (R59, R108, R308). -/
def Dev.dropWindow (d : Dev) (job rank : Nat) : Dev :=
  match d.rank job rank with
  | none => d
  | some r =>
    let d := r.window.foldl (fun d e =>
      let i := e.ref job rank
      if e.state = .readIssued then d.dropFetch i else d) d
    d.abandonWhere job rank fun _ => true

/-- Parcels of a rank are discarded and their buffers freed; buffers granted for parcels not yet released too (R299, R308,
R309). -/
def Dev.dropParcels (d : Dev) (job rank : Nat) : Dev :=
  match d.rank job rank with
  | none => d
  | some r =>
    let steps := r.parcels.map (·.step) ++ (List.range (r.bufferedTo - r.nextStep)).map (· + r.nextStep)
    let d := steps.foldl (fun d s => d.freeUse r.die (.parcel job rank s)) d
    d.onRank job rank fun r => { r with parcels := [], bufferedTo := r.nextStep }

end Sys2Proof.Machine
end

