-- ==== Sys2Proof/Machine/Barriers.lean ====
section
/-! DEFINITION. Barriers between the devices of a job (13, R383 to R397): boxes, messages, comparisons, releases, aborts. -/

namespace Sys2Proof.Machine

open Sys2Proof

/-! ### Boxes and tree (R384 to R386) -/

/-- Boxes above a level of n boxes, until they and the child devices are at most 64 (R385). -/
def boxesAbove (children : Nat) : Nat → Nat → Nat
  | 0, _ => 0
  | f + 1, n => if n + children ≤ 64 then 0 else (n + 63) / 64 + boxesAbove children f ((n + 63) / 64)

/-- Boxes a device takes for its bound ranks and child devices (R385). -/
def boxesFor (ranks children : Nat) : Nat :=
  let leaves := (ranks + 63) / 64
  leaves + boxesAbove children 16 leaves + 1

/-- The device numbers of a device's children (R384). -/
def childIndices (d n : Nat) : List Nat := (List.range 63).filterMap fun i => if 63 * d + 1 + i < n then some (63 * d + 1 + i) else none

/-- Parent device of a device (R384). -/
def parentIndex (d : Nat) : Nat := (d - 1) / 63

/-- A peer number stands in the peer list (R84). -/
def Job.hasPeer (j : Job) (n : Nat) : Bool := decide (n < j.peers.length)

/-- The tree peers of R384 are named, inside the peer list, and as many as the formula asks. -/
def Job.treeOk (j : Job) : Bool :=
  (j.deviceIndex == 0 || j.hasPeer j.parentPeer) && j.childPeers.all j.hasPeer &&
    j.childPeers.length == (childIndices j.deviceIndex j.deviceCount).length

/-- Children as (device number, peer number). -/
def Job.children (j : Job) : List (Nat × Nat) := (childIndices j.deviceIndex j.deviceCount).zip j.childPeers

/-- The bound rank of lowest number: its die holds the boxes (R385). -/
def lowestRank : List Rank → Option Rank
  | [] => none
  | r :: rs => match lowestRank rs with
    | some x => if x.rank < r.rank then some x else some r
    | none => some r

/-- Die of the job's boxes (R385). -/
def Job.boxDie (j : Job) : Nat := match lowestRank j.ranks with
  | some r => r.die
  | none => 0

/-- Boxes are free for a job (R386). -/
def Dev.boxesFree (d : Dev) (die : Nat) : Nat := 4096 - (d.die die).boxesUsed

/-- d with a job's barrier changed. -/
def Dev.onBarrier (d : Dev) (job : Nat) (f : Barrier → Barrier) : Dev := d.onJob job fun j => { j with barrier := f j.barrier }

/-- A job's boxes are given back (R386). -/
def Dev.freeBoxes (d : Dev) (job : Nat) : Dev :=
  match d.job job with
  | none => d
  | some j =>
    (d.onDie j.barrier.die fun x => { x with boxesUsed := x.boxesUsed - j.barrier.boxes }).onBarrier job fun b => { b with boxes := 0 }

/-! ### Messages (R387, Table 13.3) -/

/-- Fields of a barrier message that a sender sets. -/
structure BarMsg where
  kind : Nat
  barrier : Nat
  from_ : Nat
  count : Nat := 0
  sumR : Nat := 0
  sumR2 : Nat := 0
  sealed_ : Nat := 0
  echoTx : Nat := 0
  echoRx : Nat := 0
  releaseTime : Nat := 0
  recordCrc : Nat := 0
  status : Status := 0
  origin : Nat := 0

/-- The 128 bytes; TX_TIME is written as the packet leaves (R387). -/
def Dev.barrierBytes (d : Dev) (j : Job) (x : BarMsg) : Bytes :=
  layout 128 [(0, ascii "BARR"), (4, le 2 1), (6, le 1 x.kind), (7, le 1 (b2n (x.sealed_ != 0))), (8, fit 16 j.postmark),
    (24, le 4 d.semantics), (28, le 4 j.stamp), (32, le 4 x.barrier), (36, le 4 x.from_), (40, le 8 x.count), (48, le 8 x.sumR),
    (56, le 8 x.sumR2), (64, le 8 x.sealed_), (80, le 8 x.echoTx), (88, le 8 x.echoRx), (96, le 8 x.releaseTime),
    (104, le 4 x.recordCrc), (108, le 2 x.status.toNat), (112, le 4 x.origin)]

/-- MAGIC, VERSION, KIND and reserved fields of a message hold (R387). -/
def barrierFramed (b : Bytes) : Bool :=
  b.length == 128 && b.take 4 == ascii "BARR" && fld b 4 2 == 1 && decide (1 ≤ fld b 6 1 ∧ fld b 6 1 ≤ 3) &&
    decide (fld b 7 1 ≤ 1) && fld b 110 2 == 0 && (cut b 116 12).all (· == 0)

/-- A message with TX_TIME taken as 0 (R395). -/
def untimed (b : Bytes) : Bytes := putAt b 72 (zeros 8)

/-- A message as a box takes it in. -/
def arrivalOf (b : Bytes) (now : Nat) : Arrival :=
  { from_ := fld b 36 4, body := untimed b, count := fld b 40 8, sumR := fld b 48 8, sumR2 := fld b 56 8, sealed_ := fld b 64 8,
    txTime := fld b 72 8, rxTime := now }

/-- A message sent to the parent and kept as the edge's last (R395). -/
def Dev.sendUp (d : Dev) (job : Nat) (msg : Bytes) : Dev :=
  match d.job job with
  | none => d
  | some j => if j.deviceIndex = 0 then d
    else (d.onBarrier job fun b => { b with lastUp := msg }).sendBarrier job j.parentPeer msg

/-- A message sent to a child and kept as the edge's last (R395). -/
def Dev.sendDown (d : Dev) (job peer : Nat) (msg : Bytes) : Dev :=
  (d.onBarrier job fun b => { b with lastDown := (b.lastDown.filter fun x => x.1 != peer) ++ [(peer, msg)] }).sendBarrier job peer msg

/-! ### Sums (R388, R389) -/

/-- Sums over the inputs of a device box: COUNT, SUM_R, SUM_R2, SEALED. -/
structure Sums where
  count : Nat
  sumR : Nat
  sumR2 : Nat
  sealed_ : Nat
  deriving DecidableEq, Repr, Inhabited

/-- Sums of the device's own ranks and its children's arrivals, the rank sums modulo 2^64. -/
def Job.sums (j : Job) : Sums :=
  let a := j.barrier.arrivals
  { count := j.ranks.length + (a.map (·.count)).sum,
    sumR := ((j.ranks.map (·.rank)).sum + (a.map (·.sumR)).sum) % 2 ^ 64,
    sumR2 := ((j.ranks.map fun r => r.rank * r.rank).sum + (a.map (·.sumR2)).sum) % 2 ^ 64,
    sealed_ := j.barrier.sealedOwn + (a.map (·.sealed_)).sum }

/-- The sums of ranks 0 to W − 1 (R389). -/
def sumsMatch (w : Nat) (s : Sums) : Bool :=
  s.count == w && s.sumR == w * (w - 1) / 2 % 2 ^ 64 && s.sumR2 == (w - 1) * w * (2 * w - 1) / 6 % 2 ^ 64

/-- The device box holds every input it gathers (R388). -/
def Job.boxFull (j : Job) : Bool :=
  j.barrier.opened && j.ranks.all (·.arrived) && j.children.all fun c => j.barrier.arrivals.any fun a => a.from_ == c.1

/-! ### Release (R389, R390, R393) -/

/-- Length in ns of a tick number, a pending DEV_SET_TICK taken into account. -/
def Dev.lenOfTick (d : Dev) (t : Nat) : Nat := match d.clk.pending with
  | some (e, per, _) => if e ≤ t then per * 10 else d.clk.period * 10
  | none => d.clk.period * 10

/-- PTP time at which the tick n after the current one begins. -/
def Dev.tickBegins (d : Dev) (n : Nat) : Nat := d.clk.tickStart + ((List.range n).map fun i => d.lenOfTick (d.clk.tick + i)).sum

/-- RELEASE sent to every child with its own echo fields (R389). -/
def Dev.releaseDown (d : Dev) (job time : Nat) : Dev :=
  match d.job job with
  | none => d
  | some j => j.children.foldl (fun d c =>
      let a := j.barrier.arrivals.find? fun a => a.from_ == c.1
      let s := j.sums
      d.sendDown job c.2 (d.barrierBytes j
        { kind := 2, barrier := j.barrier.number, from_ := j.deviceIndex, count := s.count, sumR := s.sumR, sumR2 := s.sumR2,
          sealed_ := s.sealed_, echoTx := (a.map (·.txTime)).getD 0, echoRx := (a.map (·.rxTime)).getD 0, releaseTime := time,
          recordCrc := if j.barrier.number = 0 then j.barrier.recordCrc else 0 })) d

/-- A release takes effect from a time, or from the next tick where that has passed, counted in LATE_RELEASES (R390). -/
def Dev.releaseTaken (d : Dev) (job time : Nat) : Dev :=
  let late := decide (time < d.now)
  let d := if late then d.onJobCtrs job fun c => { c with lateReleases := c.lateReleases + 1 } else d
  d.onBarrier job fun b => { b with release := some (if late then d.tickBegins 1 else time) }

/-- The root releases the barrier (R389). -/
def Dev.rootRelease (d : Dev) (job : Nat) : Dev :=
  let p := d.clk.period * 10
  let time := d.tickBegins (max 2 ((200000 + p - 1) / p))
  (d.releaseDown job time).releaseTaken job time

/-! ### Aborts (R391, R392, R394) -/

/-- Unit a barrier is in a fault report (Table 18.2). -/
def barrierUnit (die : Nat) : UnitRef := { kind := 0x11, die := die }

/-- A job is back in BOUND after a failed start barrier: boxes and windows freed (R386, R391). -/
def Dev.startFailed (d : Dev) (job : Nat) (st : Status) : Dev :=
  match d.job job with
  | none => d
  | some j =>
    let d := d.freeBoxes job
    let d := d.onJob job fun j => { j with
      ranks := j.ranks.map fun (r : Rank) => { r with windowSize := 0, arrived := false }
      barrier := { offset := j.barrier.offset, early := j.barrier.early } }
    d.answerTo j.barrier.ph (fail st)

/-- The job is held at an epoch barrier (R392). -/
def Dev.holdJob (d : Dev) (job : Nat) : Dev := d.onBarrier job fun b => { b with held := true, opened := false }

/-- An ABORT is acted on: its status and origin are kept for JOB_QUERY, the start fails or the job is held (R391). -/
def Dev.abortActed (d : Dev) (job : Nat) (st : Status) (origin : Nat) : Dev :=
  match d.job job with
  | none => d
  | some j =>
    let d := d.onJob job fun j => { j with abortStatus := st, abortOrigin := origin, barrier := { j.barrier with aborted := true } }
    if j.barrier.number = 0 then d.startFailed job st else d.holdJob job

/-- ABORT sent to every child. -/
def Dev.abortDown (d : Dev) (job : Nat) (st : Status) (origin : Nat) : Dev :=
  match d.job job with
  | none => d
  | some j => j.children.foldl (fun d c => d.sendDown job c.2 (d.barrierBytes j
      { kind := 3, barrier := j.barrier.number, from_ := j.deviceIndex, status := st, origin := origin })) d

/-- ABORT sent to the parent. -/
def Dev.abortUp (d : Dev) (job : Nat) (st : Status) (origin : Nat) : Dev :=
  match d.job job with
  | none => d
  | some j => (d.sendUp job (d.barrierBytes j
      { kind := 3, barrier := j.barrier.number, from_ := j.deviceIndex, status := st, origin := origin })).onBarrier job
        fun b => { b with aborted := true }

/-- An ABORT reaches this device from below, or starts here: the root sends it to every child and acts, another device passes it
to its parent once (R391). -/
def Dev.abortRise (d : Dev) (job : Nat) (st : Status) (origin : Nat) : Dev :=
  match d.job job with
  | none => d
  | some j =>
    if j.barrier.aborted then d
    else if j.deviceIndex = 0 then (d.abortDown job st origin).abortActed job st origin
    else d.abortUp job st origin

/-- A failure this device detects: recorded by its collector, and sent on its way (R391). -/
def Dev.barrierFault (d : Dev) (job : Nat) (st : Status) (origin : Nat) : Dev :=
  match d.job job with
  | none => d
  | some j => (d.report st (barrierUnit j.barrier.die) (BitVec.ofNat 64 origin)).abortRise job st origin

/-! ### Arrivals (R383, R388, R389, R391) -/

/-- The box acts once it holds every input: ARRIVE to the parent, or at the root the comparison of the sums (R388, R389). -/
def Dev.boxCheck (d : Dev) (job : Nat) : Dev :=
  match d.job job with
  | none => d
  | some j =>
    if j.boxFull = false ∨ j.barrier.sentAt.isSome ∨ j.barrier.aborted then d
    else
      let d := d.onBarrier job fun b => { b with sentAt := some d.now }
      let s := j.sums
      if j.deviceIndex ≠ 0 then d.sendUp job (d.barrierBytes j
        { kind := 1, barrier := j.barrier.number, from_ := j.deviceIndex, count := s.count, sumR := s.sumR, sumR2 := s.sumR2,
          sealed_ := s.sealed_, recordCrc := if j.barrier.number = 0 then j.barrier.recordCrc else 0 })
      else if sumsMatch j.w s then d.rootRelease job
      else d.barrierFault job St.SYN_RANK_BINDING 0

/-- The comparisons of Table 13.4 on an ARRIVE, in order. -/
def Dev.arriveFault (d : Dev) (j : Job) (b : Bytes) : Option Status :=
  if cut b 8 16 ≠ fit 16 j.postmark then some St.SYN_POSTMARK_MISMATCH
  else if fld b 24 4 ≠ d.semantics then some St.SYN_SEMANTICS_MISMATCH
  else if fld b 32 4 ≠ j.barrier.number ∨ (j.barrier.number = 0 ∧ fld b 104 4 ≠ j.barrier.recordCrc) then some St.SYN_CURSOR_MISMATCH
  else none

/-- An ARRIVE enters the open box: compared, kept, and the box looked at again. A second, differing ARRIVE of a child fails
comparison 3 (R391, R395). -/
def Dev.arriveTaken (d : Dev) (job : Nat) (a : Arrival) : Dev :=
  match d.job job with
  | none => d
  | some j =>
    match d.arriveFault j a.body with
    | some st => d.barrierFault job st a.from_
    | none =>
      if j.barrier.arrivals.any fun x => x.from_ == a.from_ then d.barrierFault job St.SYN_CURSOR_MISMATCH a.from_
      else (d.onBarrier job fun b => { b with arrivals := b.arrivals ++ [a], accepted := b.accepted ++ [a.body] }).boxCheck job

/-- An ARRIVE of a child reaches the device: a duplicate is counted, one for a barrier not yet open waits (R388, R395). -/
def Dev.arrive (d : Dev) (j : Job) (b : Bytes) : Dev :=
  let a := arrivalOf b d.now
  if j.barrier.accepted.contains a.body ∨ j.barrier.before.contains a.body ∨ j.barrier.early.any (fun x => x.body == a.body) then
    d.onJobCtrs j.handle fun c => { c with dupBarrier := c.dupBarrier + 1 }
  else if j.barrier.held ∨ j.barrier.aborted then d
  else if j.barrier.opened = false ∨ fld b 32 4 = j.barrier.number + 1 then
    d.onBarrier j.handle fun x => { x with early := x.early ++ [a] }
  else d.arriveTaken j.handle a

/-- A barrier opens: own ranks beyond it, and all ranks of a sealed device, count as arrived; messages that came early are
looked at (R388, R396). -/
def Dev.openBarrier (d : Dev) (job number : Nat) : Dev :=
  match d.job job with
  | none => d
  | some j =>
    let done := fun (r : Rank) => number == 0 || decide (number * j.k ≤ r.nextStep)
    let sealedNow := j.state == .sealing || j.state == .sealed_
    let ranks := j.ranks.map fun (r : Rank) => { r with arrived := done r || sealedNow }
    let d := d.onJob job fun j => { j with
      ranks := ranks
      barrier := { j.barrier with
        number := number, opened := decide (number ≤ j.epochs), arrivals := [], before := j.barrier.accepted, accepted := [],
        early := [], sentAt := none, release := none, aborted := false, recordCrc := if number = 0 then j.barrier.recordCrc else 0,
        sealedOwn := if sealedNow then (j.ranks.filter fun r => !done r).length else 0 } }
    let d := j.barrier.early.foldl (fun d a => match d.job job with
      | some j => if j.barrier.opened && !j.barrier.aborted then d.arriveTaken job a else d
      | none => d) d
    d.boxCheck job

/-- A rank arrives at the open barrier (R383). -/
def Dev.rankArrives (d : Dev) (job rank : Nat) : Dev := (d.onRank job rank fun r => { r with arrived := true }).boxCheck job

/-- A device sealed while a barrier is pending arrives for every bound rank not yet arrived (R63, R396). -/
def Dev.sealArrives (d : Dev) (job : Nat) : Dev :=
  (d.onJob job fun j => { j with
    ranks := j.ranks.map fun (r : Rank) => { r with arrived := true }
    barrier := { j.barrier with sealedOwn := (j.ranks.filter fun r => !r.arrived).length } }).boxCheck job

/-! ### The messages as commands -/

/-- The job an ARRIVE or ABORT of a child belongs to: that child's connection, the postmark deciding between several. -/
def Dev.jobOfChild (d : Dev) (qpn : Nat) (b : Bytes) : Option Job :=
  let js := d.jobs.filter fun j => j.children.any fun c => j.peerQpn c.2 == qpn && c.1 == fld b 36 4
  match js.find? fun j => cut b 8 16 == fit 16 j.postmark with
  | some j => some j
  | none => js.head?

/-- The job a RELEASE or ABORT of the parent belongs to. -/
def Dev.jobOfParent (d : Dev) (qpn : Nat) (b : Bytes) : Option Job :=
  let js := d.jobs.filter fun j => j.deviceIndex != 0 && j.peerQpn j.parentPeer == qpn && parentIndex j.deviceIndex == fld b 36 4
  match js.find? fun j => cut b 8 16 == fit 16 j.postmark with
  | some j => some j
  | none => js.head?

/-- A barrier message arrives as a SEND; one of another KIND is not this command, a malformed one is counted (R387). -/
def Dev.barrierMessage (d : Dev) (qpn : Nat) (b : Bytes) (kind : Nat) (act : Dev → Dev) : Dev :=
  if barrierFramed b ∧ fld b 6 1 ≠ kind then d
  else match d.sendArrived qpn b with
    | (none, d) => d
    | (some _, d) =>
      if barrierFramed b then act d
      else d.onCtrs (qpnDie qpn) fun c => { c with barrierBadMsg := c.barrierBadMsg + 1 }

/-- BARRIER_ARRIVE (R388, R391, R395). -/
def barrierArriveEffect (qpn : Nat) (payload : Bytes) (_m : Mem) (d : Dev) : Dev :=
  d.barrierMessage qpn payload 1 fun d => match d.jobOfChild qpn payload with
    | some j => d.arrive j payload
    | none => d

/-- A child device's ARRIVE. -/
def execBarrierArrive (qpn : Nat) (payload : Bytes) (s : State) : Host.Outcome State Fault Refusal :=
  .next (s.put (barrierArriveEffect qpn payload s.mem s.dev))

/-- Offset of the parent's clock from its own on a RELEASE accepted now (R393). -/
def releaseOffset (b : Bytes) (now : Nat) : Int :=
  (((fld b 88 8 : Int) - fld b 80 8) - ((now : Int) - fld b 72 8)).tdiv 2

/-- The offset is kept, and one beyond its bound reported and counted (R393). -/
def Dev.offsetTaken (d : Dev) (j : Job) (o : Int) : Dev :=
  let d := d.onBarrier j.handle fun b => { b with offset := o }
  if max 80000 (d.clk.period * 10) < 16 * o.natAbs then
    (d.onJobCtrs j.handle fun c => { c with timeOffsetEvents := c.timeOffsetEvents + 1 }).report St.SYN_TIME_OFFSET
      (barrierUnit j.barrier.die) (BitVec.ofInt 64 o)
  else d

/-- A RELEASE of the barrier the box holds: forwarded, measured, taken; a repeat is counted, any other discarded (R389, R390,
R393, R395). -/
def Dev.releaseArrives (d : Dev) (j : Job) (b : Bytes) : Dev :=
  let body := untimed b
  if j.barrier.accepted.contains body ∨ j.barrier.before.contains body then
    d.onJobCtrs j.handle fun c => { c with dupBarrier := c.dupBarrier + 1 }
  else if j.barrier.opened = false ∨ fld b 32 4 ≠ j.barrier.number ∨ j.barrier.release.isSome ∨ j.barrier.sentAt.isNone then d
  else
    let d := d.onBarrier j.handle fun x => { x with accepted := x.accepted ++ [body] }
    let d := d.offsetTaken j (releaseOffset b d.now)
    (d.releaseDown j.handle (fld b 96 8)).releaseTaken j.handle (fld b 96 8)

/-- BARRIER_RELEASE (R389, R390, R393, R395). -/
def barrierReleaseEffect (qpn : Nat) (payload : Bytes) (_m : Mem) (d : Dev) : Dev :=
  d.barrierMessage qpn payload 2 fun d => match d.jobOfParent qpn payload with
    | some j => d.releaseArrives j payload
    | none => d

/-- The parent device's RELEASE. -/
def execBarrierRelease (qpn : Nat) (payload : Bytes) (s : State) : Host.Outcome State Fault Refusal :=
  .next (s.put (barrierReleaseEffect qpn payload s.mem s.dev))

/-- An ABORT from the parent is passed to the children and acted on once (R391). -/
def Dev.abortFalls (d : Dev) (j : Job) (st : Status) (origin : Nat) : Dev :=
  if j.barrier.held ∨ (j.barrier.opened = false ∧ j.barrier.ph = none) then d
  else (d.abortDown j.handle st origin).abortActed j.handle st origin

/-- BARRIER_ABORT (R391): from a child it rises, from the parent it falls; one for another barrier is discarded. -/
def barrierAbortEffect (qpn : Nat) (payload : Bytes) (_m : Mem) (d : Dev) : Dev :=
  let st : Status := BitVec.ofNat 16 (fld payload 108 2)
  let origin := fld payload 112 4
  d.barrierMessage qpn payload 3 fun d => match d.jobOfParent qpn payload with
    | some j => if fld payload 32 4 = j.barrier.number then d.abortFalls j st origin else d
    | none => match d.jobOfChild qpn payload with
      | some j => if fld payload 32 4 = j.barrier.number ∧ j.barrier.opened then d.abortRise j.handle st origin else d
      | none => d

/-- An ABORT of the parent or a child. -/
def execBarrierAbort (qpn : Nat) (payload : Bytes) (s : State) : Host.Outcome State Fault Refusal :=
  .next (s.put (barrierAbortEffect qpn payload s.mem s.dev))

/-! ### BARRIER_COMPLETE and BARRIER_TIMEOUT (R390, R394) -/

/-- Tick r of R390: the device's first tick that starts at or after the release time, no later than the current one. -/
def Dev.releaseTick (d : Dev) (t : Nat) : Nat := d.clk.tick - (d.clk.tickStart - t) / (d.clk.period * 10)

/-- The epoch that parcels may be released of when a job starts: 0, or after JOB_RESUME the epoch before which every barrier is
complete (log entry 25). -/
def Job.firstEpoch (j : Job) : Nat := j.openEpoch

/-- The start barrier completes: the job runs, its windows fill, the command answers with t0 (R390, R67). -/
def Dev.startComplete (d : Dev) (j : Job) (r : Nat) : Dev :=
  let d := d.onJob j.handle fun j => { j with state := .running, t0 := r + 1, openFrom := r + 1 }
  let d := j.ranks.foldl (fun d x => d.advance j.handle x.rank) d
  let d := d.answerTo j.barrier.ph { body := le 8 (r + 1) }
  (d.onBarrier j.handle fun b => { b with ph := none }).openBarrier j.handle (j.firstEpoch + 1)

/-- An epoch barrier completes: parcels of the next epoch may go, and the next barrier opens (R388, R390). -/
def Dev.epochComplete (d : Dev) (j : Job) (r : Nat) : Dev :=
  let e := j.barrier.number
  (d.onJob j.handle fun j => { j with openEpoch := e, openFrom := r }).openBarrier j.handle (e + 1)

/-- BARRIER_COMPLETE: the first tick at or after the release time has begun (R390). -/
def barrierCompleteEffect (job : Nat) (_m : Mem) (d : Dev) : Dev :=
  match d.job job with
  | none => d
  | some j =>
    match j.barrier.release with
    | none => d
    | some t =>
      if d.clk.tickStart < t then d
      else if j.barrier.number = 0 then d.startComplete j (d.releaseTick t)
      else d.epochComplete j (d.releaseTick t)

/-- A released barrier taking effect on the device. -/
def execBarrierComplete (job : Nat) (s : State) : Host.Outcome State Fault Refusal :=
  .next (s.put (barrierCompleteEffect job s.mem s.dev))

/-- Instant from which a barrier's timeout runs: the command at the start barrier, ARRIVE sent or the root's inputs complete
(R394). -/
def Barrier.timerFrom (b : Barrier) : Option Nat := if b.number = 0 then some b.begun else b.sentAt

/-- BARRIER_TIMEOUT (R394): the barrier is aborted here, and parent and children told. -/
def barrierTimeoutEffect (job : Nat) (_m : Mem) (d : Dev) : Dev :=
  match d.job job with
  | none => d
  | some j =>
    if j.barrier.opened = false ∨ j.barrier.release.isSome ∨ j.barrier.held then d
    else match j.barrier.timerFrom with
      | none => d
      | some t =>
        let st := St.SYN_BARRIER_TIMEOUT
        let d := d.until (t + j.barrierTimeout * 1000000000)
        let d := d.report st (barrierUnit j.barrier.die) (BitVec.ofNat 64 j.deviceIndex)
        (((d.abortUp job st j.deviceIndex).abortDown job st j.deviceIndex)).abortActed job st j.deviceIndex

/-- A barrier without RELEASE or ABORT for BARRIER_TIMEOUT. -/
def execBarrierTimeout (job : Nat) (s : State) : Host.Outcome State Fault Refusal :=
  .next (s.put (barrierTimeoutEffect job s.mem s.dev))

end Sys2Proof.Machine
end

