-- ==== Sys2Proof/Machine/Jobs.lean ====
section
/-! DEFINITION. Jobs: creation, binding of ranks, destruction and query (R44 to R54, R84, R300, R302, R305, R357, R496, R589,
R634). -/

namespace Sys2Proof.Machine

open Sys2Proof

/-- A job handle that is held (R587). -/
def jobHeld (b : Bytes) (d : Dev) : Bool := (d.job (fld b 0 4)).isSome

/-- A field whose values 0 and all ones take the default (R579, R589). -/
def zeroDefault (body : Bytes) (off size dflt : Nat) : Nat :=
  if fld body off size = 0 then dflt else orDefault body off size dflt

/-- Rows of a table of n-byte rows. -/
def rowsOf (n : Nat) (b : Bytes) : List Bytes := (List.range (b.length / n)).map fun i => cut b (n * i) n

/-! ### JOB_CREATE (R44, R53, R84, R496, R589) -/

/-- The peer list holds installed PEER connections (R84). -/
def Dev.peerListOk (d : Dev) (ps : List Nat) : Bool :=
  ps.all fun q => match d.conn q with
    | some c => c.kind == 1
    | none => false

/-- A peer number of the node map: this device, none, or a place in the peer list. -/
def peerNamed (n peers : Nat) : Bool := n == thisPeer || n == noPeer || decide (n < peers)

/-- The node map against the dataset's segment table (R84). -/
def nodeMapOk (segs : List (Nat × Bytes)) (peers : Nat) (b : Bytes) : Bool :=
  b.length == 16 * segs.length && ((rowsOf 16 b).zipIdx.zip segs).all fun x =>
    let r := x.1.1
    fld r 0 4 == x.1.2 && fld r 12 4 == 0 && peerNamed (fld r 4 4) peers && peerNamed (fld r 8 4) peers &&
      (x.2.1 == 0 || fld r 4 4 != noPeer)

/-- The reserves of every job, of a new one and of Roist's fit the pool of every die in service (R496). -/
def Dev.reservesFit (d : Dev) (reserve : Nat) : Bool :=
  (List.range 8).all fun i => !d.dieUp i ||
    decide (((d.jobs.map fun j => j.bufReserve * 2 ^ 20).sum + reserve * 2 ^ 20) + systemReserve ≤ (d.die i).pool.bytes)

/-- Checks of JOB_CREATE on its fixed fields, in body-field order (R589). -/
def Dev.createRefusal (d : Dev) (b : Bytes) (x : Dataset) : Option Status :=
  let n := (x.segs.map (·.1)).sum
  let w := fld b 24 4
  let bs := fld b 28 4
  let look := zeroDefault b 13 1 4
  let hold := zeroDefault b 36 2 300
  let bt := zeroDefault b 38 2 60
  let route := d.route (cut b 48 32)
  if x.closed = false then some St.PGH_JOB_INPUT
  else if 1 < fld b 12 1 then some St.PGH_FIELD
  else if 64 < look then some St.PGH_FIELD
  else if fld b 14 2 = 0 then some St.SRT_EPOCHS_RANGE
  else if w < 1 ∨ 4194304 < w ∨ bs < 1 ∨ 65536 < bs then some St.PGH_FIELD
  else if n < bs * w then some St.SRT_SHARD_EMPTY
  else if fld b 32 4 < 1 ∨ 65536 < fld b 32 4 then some St.PGH_FIELD
  else if 3600 < hold then some St.PCK_HOLD_RANGE
  else if 3600 < bt then some St.PGH_FIELD
  else if fld b 40 4 < 64 ∨ fld b 44 4 < fld b 40 4 then some St.BUF_QUOTA_RANGE
  else if d.reservesFit (fld b 40 4) = false then some St.BUF_RESERVE_FULL
  else match route with
    | none => some St.PGH_JOB_INPUT
    | some r => d.cardRefusal (routeOf r.binary).cardLen n (fld b 80 16) (cut b 96 32)

/-- A card object of a configuration is pinned while the configuration lives (R405). -/
def Dev.pinCards (d : Dev) (c : JobConf) : Dev × List (Nat × JRec) :=
  if (routeOf c.route).cardLen = 0 then (d, []) else d.pin c.cardObject

/-- The pin ends. -/
def Dev.unpinCards (d : Dev) (c : JobConf) : Dev × List (Nat × JRec) :=
  if (routeOf c.route).cardLen = 0 then (d, []) else d.unpin c.cardObject

/-- The new job of a checked body, with its node map and peers. -/
def newJob (b : Bytes) (x : Dataset) (route : Route) (handle : Nat) (map : Bytes) (peers : List Nat) : Job :=
  { handle := handle, tag := fld b 0 8, dataset := fld b 8 4, express := fld b 12 1 == 1, epochs := fld b 14 2,
    seed := fld b 16 8, w := fld b 24 4, b := fld b 28 4, tickMult := fld b 32 4, prHold := zeroDefault b 36 2 300,
    barrierTimeout := zeroDefault b 38 2 60, bufReserve := fld b 40 4, bufLimit := fld b 44 4,
    n := (x.segs.map (·.1)).sum, manifestDigest := x.digest,
    nodeMap := (rowsOf 16 map).map fun r => (fld r 4 4, fld r 8 4), peers := peers,
    conf := { routeDigest := route.digest, route := route.binary, cardObject := fld b 80 16, cardDigest := cut b 96 32,
              lookahead := zeroDefault b 13 1 4 } }

/-- JOB_CREATE once its fixed fields and host buffers are read. -/
def Dev.createJob (d : Dev) (p : Nat) (b : Bytes) (x : Dataset) (route : Route) (map peerBytes : Bytes) : Dev :=
  let peers := (rowsOf 4 peerBytes).map fun r => fld r 0 4
  if nodeMapOk x.segs peers.length map = false then d.answer p (fail St.SRT_NODE_MAP)
  else if peerBytes.length % 4 ≠ 0 ∨ d.peerListOk peers = false then d.answer p (fail St.PGH_FIELD)
  else match freeSlot 256 (d.jobs.map (·.handle)) with
    | none => d.answer p (fail St.PGH_JOB_TABLE_FULL)
    | some slot =>
      let j := newJob b x route (handleOf slot (d.jobGens.getD slot 0)) map peers
      if (routeOf route.binary).cardLen ≠ 0 ∧ d.pinRoom j.conf.cardObject = false then d.answer p (fail St.STO_PIN_LIMIT)
      else
        let (d, recs) := ({ d with jobs := d.jobs ++ [j] } : Dev).pinCards j.conf
        d.answerAfter p { body := le 4 j.handle ++ le 4 j.stamp ++ fit 16 j.postmark ++ le 8 j.k } recs

/-- JOB_CREATE (R44, R53, R84). -/
def jobCreateRun (p : Nat) (b : Bytes) (m : Mem) (d : Dev) : Dev :=
  match d.dataset (fld b 8 4) with
  | none => d.answer p (fail St.PGH_HANDLE)
  | some x =>
    match d.createRefusal b x with
    | some st => d.answer p (fail st)
    | none =>
      match d.route (cut b 48 32), pghRead m d p (hostBuf b 128), pghRead m d p (hostBuf b 144) with
      | some r, some map, some peers => d.createJob p b x r map peers
      | _, _, _ => d.answer p (fail St.PGH_DMA)

/-- The command of opcode 0x0201. -/
def jobCreateOp : PghOp where
  opcode := 0x0201
  used := [(0, 8), (8, 4), (12, 1), (13, 1), (14, 2), (16, 8), (24, 4), (28, 4), (32, 4), (36, 2), (38, 2), (40, 4), (44, 4),
    (48, 32), (80, 16), (96, 32), (128, 16), (144, 16)]
  handles := fun b d => (d.dataset (fld b 8 4)).isSome
  run := jobCreateRun

/-- JOB_CREATE: a job with its description and postmark. -/
def execJobCreate (p : Nat) (frame : Bytes) (s : State) : Host.Outcome State Fault Refusal :=
  .next (s.put (jobCreateOp.ring p frame s.mem s.dev))

/-! ### JOB_BIND_RANKS (R49, R52, R300, R302, R305, R384, R589) -/

/-- PR_PARCELS of a list entry: all ones is 4 (R305, R579). -/
def prParcelsOf (e : Bytes) : Nat := orDefault e 25 1 4

/-- What is wrong with one list entry (R5, R300, R305, R589). -/
def Dev.bindRefusal (d : Dev) (j : Job) (length : Nat) (e : Bytes) : Option Status :=
  let slot := fld e 20 4
  let depth := fld e 24 1
  if fld e 28 4 ≠ 0 ∨ fld e 52 4 ≠ 0 then some St.PGH_FIELD
  else if j.w ≤ fld e 0 4 then some St.PGH_FIELD
  else if 15 < fld e 26 1 ∨ (fld e 27 1 ≠ 0xFF ∧ 15 < fld e 27 1) then some St.PGH_FIELD
  else if depth < 1 ∨ 64 < depth ∨ slot = 0 ∨ slot % 4096 ≠ 0 ∨ fld e 32 8 < depth * (slot + 16) then some St.PCK_RING
  else if slot < length then some St.PCK_PARCEL_SIZE
  else if prParcelsOf e < 1 ∨ 64 < prParcelsOf e then some St.PCK_HOLD_RANGE
  else match d.conn (fld e 4 4) with
    | some c => if c.kind = 0 then none else some St.CUR_NOT_CONNECTED
    | none => some St.CUR_NOT_CONNECTED

/-- First list entry refused: status and index. -/
def Dev.firstBindRefusal (d : Dev) (j : Job) (length : Nat) (es : List Bytes) : Option (Status × Nat) :=
  es.zipIdx.findSome? fun x => (d.bindRefusal j length x.1).map fun st => (st, x.2)

/-- Address of the credit word of a rank: a whole word of the post office's stack (R302, R636). -/
def creditAddress (die slot rank : Nat) : Nat := die * 2 ^ 36 + (Config.creditAddr slot rank).toNat % 2 ^ 33 * 8

/-- The credit region of a rank: 8 B, write and atomic, scoped to its connection, owned by its job (R302, R346). -/
def creditRegion (die addr qpn job : Nat) (entry gen : Nat) : Region :=
  { die := die, entry := entry, gen := gen, base := addr, len := 8, read := false, write := true, atomic := true,
    scope := .conn qpn, owner := job + 1 }

/-- A rank's values from its entry. -/
def rankOf (e : Bytes) (creditAddr key : Nat) : Rank :=
  { rank := fld e 0 4, qpn := fld e 4 4, remoteAddr := fld e 8 8, rkey := fld e 16 4, slotBytes := fld e 20 4,
    depth := fld e 24 1, prParcels := prParcelsOf e, port := fld e 26 1, altPort := fld e 27 1, regionLen := fld e 32 8,
    creditAddr := creditAddr, creditKey := key }

/-- The rank leaves its dispatch nodes; a job's node goes with its last rank on the port (R357). -/
def Dev.dropRankNode (d : Dev) (port job rank : Nat) : Dev :=
  d.onPort port fun x =>
    let y := x.dropNode (.rank job rank)
    if (y.ring (.job job)).isEmpty then y.dropNode (.job job) else y

/-- The region entry of a key is released at once. -/
def Dev.dropKey (d : Dev) (key : Nat) : Dev :=
  match d.region (key / 2 ^ 29) (key / 256 % 2 ^ 21) with
  | some r => if r.key = key then d.revoke r.die r.entry none else d
  | none => d

/-- The credit word of an entry's rank: the one it has, or a new region; none where the table is full. -/
def Dev.creditFor (d : Dev) (job : Nat) (e : Bytes) : Option ((Nat × Nat) × Dev) :=
  let qpn := fld e 4 4
  let old := d.rank job (fld e 0 4)
  match old with
  | some r =>
    if r.qpn = qpn ∧ r.die = fld e 26 1 / 2 then some ((r.creditAddr, r.creditKey), d)
    else
      let a := creditAddress (fld e 26 1 / 2) (slotOf job) (fld e 0 4)
      ((d.dropKey r.creditKey).register (qpnDie qpn) (creditRegion (qpnDie qpn) a qpn job)).map fun x => ((a, x.1.key), x.2)
  | none =>
    let a := creditAddress (fld e 26 1 / 2) (slotOf job) (fld e 0 4)
    (d.register (qpnDie qpn) (creditRegion (qpnDie qpn) a qpn job)).map fun x => ((a, x.1.key), x.2)

/-- One entry bound: the rank takes its values, the connection its owner, and dispatch its nodes (R49, R330, R357). -/
def Dev.bindEntry (d : Dev) (job : Nat) (e : Bytes) : Option ((Nat × Nat) × Dev) :=
  match d.creditFor job e with
  | none => none
  | some (c, d) =>
    let r := rankOf e c.1 c.2
    let d := match d.rank job r.rank with
      | some old => if old.port = r.port then d else d.dropRankNode old.port job r.rank
      | none => d
    let d := if ((d.port r.port).node (.rank job r.rank)).isSome then d
      else d.addRankNode r.port job r.rank { key := .rank job r.rank, refilled := d.now }
    let d := d.onJob job fun j => { j with ranks := (j.ranks.filter fun x => x.rank != r.rank) ++ [r] }
    some (c, d.onConn r.qpn fun x => { x with owner := job + 1 })

/-- Entries bound in order, with the credit words given; none where the region table fills. -/
def Dev.bindAll (d : Dev) (job : Nat) : List Bytes → Option (List (Nat × Nat) × Dev)
  | [] => some ([], d)
  | e :: es => match d.bindEntry job e with
    | none => none
    | some (c, d) => (d.bindAll job es).map fun x => (c :: x.1, x.2)

/-- CREDIT_ADDR and CREDIT_RKEY written back into the list. -/
def Dev.creditBack (d : Dev) (port addr i : Nat) : List (Nat × Nat) → Dev × Bool
  | [] => (d, true)
  | c :: cs =>
    let w := d.hostWrite port (addr + 56 * i + 40) 12 (le 8 c.1 ++ le 4 c.2)
    if w.2 then w.1.creditBack port addr (i + 1) cs else (w.1, false)

/-- Ranks bound on the device over all its jobs. -/
def Dev.boundRanks (d : Dev) : Nat := (d.jobs.map fun j => j.ranks.length).sum

/-- JOB_BIND_RANKS on a list that has been read: every entry is bound or none is. -/
def Dev.bindList (d : Dev) (p : Nat) (b : Bytes) (j : Job) (es : List Bytes) : Dev :=
  let ranks := es.map fun e => fld e 0 4
  let fresh := (ranks.filter fun r => !(j.ranks.any fun x => x.rank == r)).length
  if decide ranks.Nodup = false then d.answer p (fail St.PGH_FIELD)
  else match d.firstBindRefusal j ((routeOf j.conf.route).parcelLength j.b) es with
    | some (st, i) => d.answer p (fail st i)
    | none =>
      if 65536 < d.boundRanks + fresh then d.answer p (fail St.PGH_RANK_LIMIT)
      else match d.bindAll j.handle es with
        | none => d.answer p (fail St.CUR_REGION_TABLE_FULL)
        | some (cs, d') =>
          let w := d'.creditBack (portOf p) (fld b 8 8) 0 cs
          if w.2 = false then w.1.answer p (fail St.PGH_DMA)
          else
            let d := if bit (fld b 16 4) 0 then w.1.onJob j.handle fun j => { j with
                state := .bound, deviceIndex := fld b 20 4, deviceCount := fld b 24 4, parentPeer := fld b 28 4,
                childPeers := (List.range (fld b 32 4)).map fun i => fld b (36 + 4 * i) 4 }
              else w.1
            d.answer p { body := le 4 (((d.job j.handle).map fun j => j.ranks.length).getD 0) }

/-- JOB_BIND_RANKS (R49, R52). -/
def jobBindRanksRun (p : Nat) (b : Bytes) (m : Mem) (d : Dev) : Dev :=
  match d.job (fld b 0 4) with
  | none => d.answer p (fail St.PGH_HANDLE)
  | some j =>
    let n := fld b 4 4
    if (j.state ≠ .created ∧ j.state ≠ .bound) ∨ j.barrier.ph.isSome then d.answer p (fail St.PGH_JOB_STATE)
    else if n < 1 ∨ 65536 < n ∨ fld b 24 4 < 1 ∨ 65536 < fld b 24 4 ∨ fld b 24 4 ≤ fld b 20 4 ∨ 63 < fld b 32 4 then
      d.answer p (fail St.PGH_FIELD)
    else match pghRead m d p (fld b 8 8, 56 * n) with
      | none => d.answer p (fail St.PGH_DMA)
      | some l => d.bindList p b j (rowsOf 56 l)

/-- The command of opcode 0x0202. -/
def jobBindRanksOp : PghOp where
  opcode := 0x0202
  used := [(0, 4), (4, 4), (8, 8), (16, 4), (20, 4), (24, 4), (28, 4), (32, 4), (36, 252)]
  reserved := fun b => bitsClear b 16 4 1
  handles := jobHeld
  run := jobBindRanksRun

/-- JOB_BIND_RANKS: ranks bound to the device as their post office. -/
def execJobBindRanks (p : Nat) (frame : Bytes) (s : State) : Host.Outcome State Fault Refusal :=
  .next (s.put (jobBindRanksOp.ring p frame s.mem s.dev))

/-! ### JOB_DESTROY (R52, R54, R330, R385) -/

/-- Everything a job holds on the device is given up: windows, parcels, buffers, boxes, nodes, credit words, regions it owns,
connections it owns; its stamps' pins end (R54, R349, R385, R405). -/
def Dev.releaseJob (d : Dev) (j : Job) : Dev × List (Nat × JRec) :=
  let h := j.handle
  let d := j.ranks.foldl (fun (d : Dev) (r : Rank) => (d.dropWindow h r.rank).dropParcels h r.rank) d
  let d := (d.freeBoxes h).dropJobNodes h
  let own := (List.range 8).flatMap fun i => ((d.die i).regions.filter fun r => r.owner == h + 1 || r.scope == .owner (h + 1))
  let d := own.foldl (fun (d : Dev) (r : Region) => d.revoke r.die r.entry none) d
  let d := { d with dies := d.dies.map fun (x : Die) =>
    { x with conns := updWhere x.conns (fun c => c.owner == h + 1) fun c => { c with owner := 0 } } }
  let confs := j.conf :: (j.old.filter fun o => !o.released).map (·.conf)
  confs.foldl (fun (a : Dev × List (Nat × JRec)) c => let x := a.1.unpinCards c; (x.1, a.2 ++ x.2)) (d, [])

/-- A command that waits on a job ends with a status: a staged change, its commit, or a start (R58, R139; DESIGN CHOICE, log
entry 43). -/
def Dev.endWaits (d : Dev) (j : Job) (st : Status) : Dev :=
  let d := d.answerTo j.barrier.ph (fail St.PGH_JOB_STATE)
  match j.staged with
  | none => d
  | some x =>
    let d := d.answerTo x.ph (fail St.RTE_PREPARE_FAILED)
    let d := match x.commit with
      | some (_, _, p) => d.answer p (fail St.RTE_COMMIT_ABORTED)
      | none => d
    d.onJob j.handle fun j => { j with lastStageStatus := st, lastStageId := x.id }

/-- Slot of a destroyed job freed, its generation advanced (R587). -/
def Dev.dropJob (d : Dev) (h : Nat) : Dev :=
  { d with jobs := d.jobs.filter fun j => j.handle != h, jobGens := d.jobGens.modify (slotOf h) fun g => (g + 1) % 2 ^ 22 }

/-- JOB_DESTROY is accepted in a job's state (Table 2.4). -/
def Job.destroyable (j : Job) (force : Bool) : Bool := match j.state with
  | .running => force
  | .sealing => false
  | _ => true

/-- JOB_DESTROY (R52, R54). -/
def jobDestroyRun (p : Nat) (b : Bytes) (_m : Mem) (d : Dev) : Dev :=
  match d.job (fld b 0 4) with
  | none => d.answer p (fail St.PGH_HANDLE)
  | some j =>
    if j.destroyable (bit (fld b 4 4) 0) = false then d.answer p (fail St.PGH_JOB_STATE)
    else
      let d := d.endWaits j St.PGH_STAGE_ABANDONED
      let (d, recs) := d.releaseJob j
      (d.dropJob j.handle).answerAfter p {} recs

/-- The command of opcode 0x0206. -/
def jobDestroyOp : PghOp where
  opcode := 0x0206
  used := [(0, 4), (4, 4)]
  reserved := fun b => bitsClear b 4 4 1
  handles := jobHeld
  run := jobDestroyRun

/-- JOB_DESTROY: the job and all it holds end. -/
def execJobDestroy (p : Nat) (frame : Bytes) (s : State) : Host.Outcome State Fault Refusal :=
  .next (s.put (jobDestroyOp.ring p frame s.mem s.dev))

/-! ### JOB_QUERY (R589, R634) -/

/-- Sums of a counter over a job's ranks. -/
def Job.rankSum (j : Job) (f : Rank → Nat) : Nat := (j.ranks.map f).sum

/-- Counters of Table 3.6 of a rank. -/
def SortCtrs.values (c : SortCtrs) : List Nat :=
  [c.substitutions, c.subStarved, c.slips, c.longWalks, c.remoteRetries, c.alternateFetches]

/-- Counters of Table 9.9 kept per rank. -/
def ParcelCtrs.values (c : ParcelCtrs) : List Nat :=
  [c.released, c.delivered, c.slotsFailed, c.shapePadded, c.tokensDropped, c.seqTruncated, c.seqDropped, c.prHeld, c.prReturned,
   c.prExpired, c.creditIgnored]

/-- Element-wise sums of lists of n counters. -/
def sumLists (n : Nat) (l : List (List Nat)) : List Nat := (List.range n).map fun i => (l.map fun x => x.getD i 0).sum

/-- Counters of chapters 3, 4, 5, 7 and 8 of a job. -/
def Job.earlyCounters (j : Job) : List Nat :=
  let c := j.ctrs
  let s := sumLists 6 (j.ranks.map fun r => r.sort.values)
  (s.headD 0 + c.substitutionsBase) :: s.tail ++
  [c.admitted, c.spilled, c.overrunItems, c.longItems, c.restarts, c.rereads, c.rereadRecovered, c.frankSettled,
   c.convSaturated, c.convNan, c.convOverflowInf, c.cardReads, c.tokBytes, c.tokInvalidUnits, c.tokInvalidItems, c.tokTruncated]

/-- A value of the job's node on each port (Table 12.5). -/
def Dev.jobNodeValues (d : Dev) (job : Nat) (f : Node → Nat) : List Nat :=
  d.ports.map fun x => ((x.node (.job job)).map f).getD 0

/-- The job block (R634). -/
def Dev.jobBlock (d : Dev) (j : Job) : Bytes :=
  let c := j.ctrs
  (j.earlyCounters ++ sumLists 11 (j.ranks.map fun r => r.parcel.values) ++
    [j.rankSum (·.runDepSlots), c.timedCommits, j.rankSum (·.parcelCount), j.rankSum (fun r => r.parcelSum.toNat) % 2 ^ 64,
     j.rankSum (fun r => r.releaseSum.toNat) % 2 ^ 64] ++
    d.jobNodeValues j.handle (·.txCounted) ++ d.jobNodeValues j.handle (·.shaperHolds) ++
    [c.barrierWaits, c.lateReleases, c.timeOffsetEvents, c.dupBarrier, c.bufWaits, c.itemsStarted, c.itemsDone, c.itemsFailed,
     c.itemsAbandoned, c.dllOverwritten]).flatMap (le 8)

/-- The rank block (R634). -/
def Dev.rankBlock (d : Dev) (job : Nat) (r : Rank) : Bytes :=
  let c := d.conn r.qpn
  let node := (d.port r.port).node (.rank job r.rank)
  let cv := fun (f : Conn → Nat) => (c.map f).getD 0
  let nv := fun (f : Node → Nat) => (node.map f).getD 0
  (r.sort.values ++ r.parcel.values ++
    [r.runDepSlots, r.parcelCount, r.parcelSum.toNat, r.releaseSum.toNat, r.stepLow.getD (ones 64), r.stepHigh, cv (·.retransmits),
     cv (·.cnpRx), cv (·.cnpTx), cv (·.keyRefused), nv (·.txCounted), nv (·.shaperHolds)]).flatMap (le 8)

/-- Counters in a rank block. -/
def rankBlockCount : Nat := 29

/-- RESULT of JOB_QUERY (R589). -/
def Dev.queryResult (d : Dev) (j : Job) (first count : Nat) : Bytes :=
  d.jobBlock j ++ (List.range count).flatMap fun i => match j.rank (first + i) with
    | some r => le 8 (cursorOf j.k r.cursor) ++ d.rankBlock j.handle r
    | none => List.replicate (8 + 8 * rankBlockCount) 0xFF

/-- Number of a job state (R589). -/
def JobState.code : JobState → Nat
  | .created => 0
  | .bound => 1
  | .running => 2
  | .sealing => 3
  | .sealed_ => 4
  | .lost => 5

/-- STAGE_STATE: none, staged, committing (R140). -/
def Job.stageState (j : Job) : Nat := match j.staged with
  | none => 0
  | some x => if x.commit.isSome then 2 else 1

/-- Response body of JOB_QUERY. -/
def Job.queryBody (j : Job) : Bytes :=
  layout 56 [(0, le 1 j.state.code), (1, le 1 j.stageState), (2, le 1 (b2n j.barrier.held)), (3, le 1 (b2n j.express)),
    (4, le 4 j.stamp), (8, fit 16 j.postmark), (24, le 2 j.lastStageStatus.toNat), (26, le 2 j.abortStatus.toNat),
    (28, le 4 j.abortOrigin), (32, le 8 ((j.sealRec.map (·.nonce)).getD 0)),
    (40, le 4 ((j.staged.map (·.id)).getD j.lastStageId)), (44, le 4 j.ranks.length), (48, le 8 j.ctrs.itemsInFlight)]

/-- JOB_QUERY. -/
def jobQueryRun (p : Nat) (b : Bytes) (_m : Mem) (d : Dev) : Dev :=
  match d.job (fld b 0 4) with
  | none => d.answer p (fail St.PGH_HANDLE)
  | some j => d.answerBuf p (hostBuf b 16) (d.queryResult j (fld b 4 4) (fld b 8 4)) { body := j.queryBody }

/-- The command of opcode 0x0207. -/
def jobQueryOp : PghOp where
  opcode := 0x0207
  used := [(0, 4), (4, 4), (8, 4), (16, 16)]
  handles := jobHeld
  run := jobQueryRun

/-- JOB_QUERY: state, counters and cursors of a job. -/
def execJobQuery (p : Nat) (frame : Bytes) (s : State) : Host.Outcome State Fault Refusal :=
  .next (s.put (jobQueryOp.ring p frame s.mem s.dev))

end Sys2Proof.Machine
end

