-- ==== Sys2Proof/Machine/JobRun.lean ====
section
/-! DEFINITION. Starting, resuming and sealing jobs (R56 to R67, R74, R87, R118, R292, R383 to R386). -/

namespace Sys2Proof.Machine

open Sys2Proof

/-! ### Starting (R383, R589) -/

/-- What a start takes from a seal record, or from nothing: each rank's step, the stamp, the sums carried, the record's CRC, and
the epoch that parcels may be released of. -/
structure StartFrom where
  step : Nat → Nat
  stamp : Nat
  substitutions : Nat
  recordCrc : Nat
  openEpoch : Nat

/-- JOB_START begins at (0, 0) with stamp 1 (R46, R74). -/
def startFresh : StartFrom := { step := fun _ => 0, stamp := 1, substitutions := 0, recordCrc := 0, openEpoch := 0 }

/-- What stops a start, in the order of R589. -/
def Dev.startRefusal (d : Dev) (j : Job) : Option Status :=
  let r := routeOf j.conf.route
  let n := boxesFor j.ranks.length j.childPeers.length
  if (d.windows j j.conf.lookahead).isNone then some St.SRT_WINDOW_SHORT
  else if d.vocabsResident r = false then some St.RTE_VOCAB_MISSING
  else if d.tokenDtypeOk r = false then some St.PCK_TOKEN_DTYPE
  else if d.boxesFree j.boxDie < n then some St.SYN_NO_BOX
  else if j.treeOk = false then some St.SYN_TREE_PEER
  else none

/-- A rank as a start leaves it: at its cursor, its sums at zero (R67, R74, R323). -/
def Rank.started (r : Rank) (step : Nat) : Rank :=
  { r.startAt step with parcels := [], releasedTo := step, refused := false, dormant := false, stopped := false, arrived := false,
                        runDepSlots := 0, parcelCount := 0, parcelSum := 0, releaseSum := 0, stepLow := none, stepHigh := 0 }

/-- The start barrier opens: windows and boxes taken, ranks at their cursors, credit words set (R302, R386, R383). The command
waits for it. -/
def Dev.beginStart (d : Dev) (p : Nat) (j : Job) (x : StartFrom) : Dev :=
  match d.startRefusal j, d.windows j j.conf.lookahead with
  | none, some ws =>
    let n := boxesFor j.ranks.length j.childPeers.length
    let die := j.boxDie
    let d := d.onDie die fun y => { y with boxesUsed := y.boxesUsed + n }
    let d := d.onJob j.handle fun j =>
      let j := j.withWindows ws
      { j with
        ranks := j.ranks.map fun (r : Rank) => r.started (x.step r.rank)
        stamp := x.stamp
        old := []
        openEpoch := x.openEpoch
        ctrs := { j.ctrs with substitutionsBase := x.substitutions, timedCommits := 0 }
        barrier := { boxes := n, die := die, early := j.barrier.early, offset := j.barrier.offset, recordCrc := x.recordCrc,
                     ph := some p, begun := d.now } }
    let d := j.ranks.foldl (fun (d : Dev) (r : Rank) => d.setCredit j.handle r.rank (x.step r.rank)) d
    d.openBarrier j.handle 0
  | some st, _ => d.answer p (fail st)
  | none, none => d.answer p (fail St.SRT_WINDOW_SHORT)

/-- The job may start: BOUND, and no start under way (Table 2.4). -/
def Job.startable (j : Job) : Bool := j.state == .bound && j.barrier.ph.isNone

/-- JOB_START. -/
def jobStartRun (p : Nat) (b : Bytes) (_m : Mem) (d : Dev) : Dev :=
  match d.job (fld b 0 4) with
  | none => d.answer p (fail St.PGH_HANDLE)
  | some j => if j.startable then d.beginStart p j startFresh else d.answer p (fail St.PGH_JOB_STATE)

/-- The command of opcode 0x0203. -/
def jobStartOp : PghOp where
  opcode := 0x0203
  used := [(0, 4)]
  handles := jobHeld
  run := jobStartRun

/-- JOB_START: the start barrier of a bound job. -/
def execJobStart (p : Nat) (frame : Bytes) (s : State) : Host.Outcome State Fault Refusal :=
  .next (s.put (jobStartOp.ring p frame s.mem s.dev))

/-! ### Resuming (R65 to R67, Table 2.8) -/

/-- The record is merged (Table 2.6). -/
def sealMerged (b : Bytes) : Bool := bit (fld b 6 2) 0

/-- Entries of a record's (rank, step) pairs, measured from its COMMON. -/
def recordEntries (k : Nat) (b : Bytes) : Option (List (Nat × Nat)) :=
  sealEntries (sealCommon k b) (fld b 40 4) none (b.drop 4096)

/-- Entries of every record; none where one is bad. -/
def allEntries (k : Nat) (rs : List Bytes) : Option (List (List (Nat × Nat))) := rs.mapM (recordEntries k)

/-- Partial records are of one seal (R65). -/
def sameSeal (rs : List Bytes) : Bool := match rs with
  | [] => false
  | a :: rest => rest.all fun b => cut a 16 16 == cut b 16 16 && fld a 32 4 == fld b 32 4 && fld a 56 8 == fld b 56 8

/-- The ranks of a complete set of partial records are 0 to W − 1 (R66). -/
def coversRanks (w : Nat) (es : List (Nat × Nat)) : Bool := es.length == w && decide ((es.map (·.1)).Nodup)

/-- Insertion of a pair in ascending rank. -/
def insertRank (x : Nat × Nat) : List (Nat × Nat) → List (Nat × Nat)
  | [] => [x]
  | y :: ys => if x.1 < y.1 then x :: y :: ys else y :: insertRank x ys

/-- The merged record of partial records (R65). -/
def mergeRecords (k : Nat) (rs : List Bytes) (es : List (Nat × Nat)) : Bytes :=
  let a := rs.headD []
  let common := commonStep (es.map (·.2))
  sealRecord { merged := true, express := bit (fld a 6 2) 1, reached := rs.all fun r => bit (fld r 6 2) 2, postmark := cut a 16 16,
               stamp := fld a 32 4, semantics := fld a 36 4, nonce := fld a 56 8, stop := fld a 64 8,
               deadLetters := (rs.map fun r => fld r 72 8).sum, substitutions := (rs.map fun r => fld r 80 8).sum,
               devices := rs.length, desc := cut a 96 256 } k common
    ((es.filter fun e => e.2 != common).foldl (fun l e => insertRank e l) [])

/-- Whether the records are one merged record, or partial records that belong together (R66). -/
def recordSetOk (w : Nat) (rs : List Bytes) (ess : List (List (Nat × Nat))) : Bool :=
  let es := ess.flatten
  es.all (fun e => decide (e.1 < w)) &&
    (if rs.any sealMerged then rs.length == 1 else sameSeal rs && coversRanks w es)

/-- Epoch whose parcels may be released after a resume: one that some cursor shows released, or before which every barrier is
complete (R67, R390; log entry 25). -/
def resumeEpoch (k : Nat) (steps : List Nat) : Nat :=
  let some_ := (steps.map fun s => (s - 1) / max 1 k).foldl max 0
  let all_ := (steps.map fun s => s / max 1 k).foldl min (2 ^ 64)
  max some_ all_

/-- Checks 1 to 5 of Table 2.8; the last give the start. -/
def Dev.resumeFrom (d : Dev) (j : Job) (rs : List Bytes) : Except Status StartFrom :=
  if rs.all sealFramed = false then .error St.PGH_RECORD_BAD
  else if rs.all (fun r => cut r 96 256 == (j.desc j.conf).bytes) = false then .error St.PGH_POSTMARK_MISMATCH
  else if rs.all (fun r => fld r 36 4 == d.semantics) = false then .error St.PGH_SEMANTICS_MISMATCH
  else match allEntries j.k rs with
    | none => .error St.PGH_RECORD_BAD
    | some ess =>
      if recordSetOk j.w rs ess = false then .error St.PGH_RECORD_BAD
      else
        let es := ess.flatten
        let rec_ := match rs with
          | [r] => if sealMerged r then r else mergeRecords j.k rs es
          | _ => mergeRecords j.k rs es
        let common := sealCommon j.k rec_
        let steps := es.map (·.2) ++ if es.length < j.w then [common] else []
        if rs.any (fun r => decide (j.k ≤ fld r 48 8)) ∨ steps.any (fun s => decide (j.endStep < s)) then .error St.PGH_CURSOR_RANGE
        else .ok { step := fun r => ((es.find? fun e => e.1 == r).map (·.2)).getD common, stamp := fld rec_ 32 4,
                   substitutions := fld rec_ 80 8, recordCrc := fld rec_ 12 4, openEpoch := resumeEpoch j.k steps }

/-- The records of a list of host buffers; none where a read is refused. -/
def readRecords (m : Mem) (d : Dev) (p : Nat) (l : Bytes) : Option (List Bytes) :=
  (rowsOf 16 l).mapM fun r => pghRead m d p (fld r 0 8, fld r 8 8)

/-- JOB_RESUME (R66, R67). -/
def jobResumeRun (p : Nat) (b : Bytes) (m : Mem) (d : Dev) : Dev :=
  match d.job (fld b 0 4) with
  | none => d.answer p (fail St.PGH_HANDLE)
  | some j =>
    let n := fld b 4 4
    if j.startable = false then d.answer p (fail St.PGH_JOB_STATE)
    else if n < 1 ∨ 65536 < n then d.answer p (fail St.PGH_FIELD)
    else match (pghRead m d p (fld b 8 8, 16 * n)).bind (readRecords m d p) with
      | none => d.answer p (fail St.PGH_DMA)
      | some rs => match d.resumeFrom j rs with
        | .error st => d.answer p (fail st)
        | .ok x => d.beginStart p j x

/-- The command of opcode 0x0205. -/
def jobResumeOp : PghOp where
  opcode := 0x0205
  used := [(0, 4), (4, 4), (8, 8)]
  handles := jobHeld
  run := jobResumeRun

/-- JOB_RESUME: the start barrier of a bound job from a seal's cursors. -/
def execJobResume (p : Nat) (frame : Bytes) (s : State) : Host.Outcome State Fault Refusal :=
  .next (s.put (jobResumeOp.ring p frame s.mem s.dev))

/-! ### Sealing (R57 to R64) -/

/-- A staged change whose commit tick has not begun is rolled back (Table 2.5 step 1). -/
def Dev.abandonStaged (d : Dev) (j : Job) : Dev :=
  match j.staged with
  | none => d
  | some x =>
    let d := d.answerTo x.ph (fail St.RTE_PREPARE_FAILED)
    let d := match x.commit with
      | some (_, _, p) => d.answer p (fail St.RTE_COMMIT_ABORTED)
      | none => d
    d.onJob j.handle fun j => { j with staged := none, lastStageStatus := St.PGH_STAGE_ABANDONED, lastStageId := x.id }

/-- The job enters SEALING: ranks at or beyond the stop cursor, or all with none, have stopped; a pending barrier gets its arrivals
(R57, R63, R396). -/
def Dev.beginSeal (d : Dev) (j : Job) (stop nonce : Nat) (w : Option (Nat × Nat × Nat)) : Dev :=
  let d := d.abandonStaged j
  let d := d.onJob j.handle fun j => { j with
    state := .sealing
    sealRec := some { nonce := nonce, stop := stop, at_ := d.now, waiters := w.toList }
    ranks := j.ranks.map fun (r : Rank) => { r with stopped := r.stopped || stop == 0 || decide (stepOf j.k stop ≤ r.cursor) } }
  match d.job j.handle with
  | some j => if j.barrier.opened ∧ j.barrier.release.isNone ∧ j.barrier.number ≠ 0 then d.sealArrives j.handle else d
  | none => d

/-- A waiting JOB_SEAL gets the record (R61, R589). -/
def Dev.answerSeal (d : Dev) (p addr len : Nat) (rec_ : Bytes) : Dev :=
  d.answerBuf p (addr, len) rec_ { body := le 4 rec_.length ++ le 4 (fld rec_ 40 4) }

/-- JOB_SEAL (R57, R58, R61). -/
def jobSealRun (p : Nat) (b : Bytes) (_m : Mem) (d : Dev) : Dev :=
  match d.job (fld b 0 4) with
  | none => d.answer p (fail St.PGH_HANDLE)
  | some j =>
    let w := (p, hostBuf b 24)
    match j.state, j.sealRec with
    | .running, _ => d.beginSeal j (fld b 8 8) (fld b 16 8) (some w)
    | .sealing, some x =>
      if x.nonce = fld b 16 8 then
        d.onJob j.handle fun j => { j with sealRec := some { x with waiters := x.waiters ++ [w] } }
      else d.answer p (fail St.PGH_JOB_STATE)
    | .sealed_, some x => if x.nonce = fld b 16 8 then d.answerSeal p w.2.1 w.2.2 x.bytes else d.answer p (fail St.PGH_JOB_STATE)
    | _, _ => d.answer p (fail St.PGH_JOB_STATE)

/-- The command of opcode 0x0204. -/
def jobSealOp : PghOp where
  opcode := 0x0204
  used := [(0, 4), (8, 8), (16, 8), (24, 16)]
  handles := jobHeld
  run := jobSealRun

/-- JOB_SEAL: the job stops at a cursor, or gives its record again. -/
def execJobSeal (p : Nat) (frame : Bytes) (s : State) : Host.Outcome State Fault Refusal :=
  .next (s.put (jobSealOp.ring p frame s.mem s.dev))

/-- A rank has stopped and no final write of it is with dispatch: its parcels are none, or only held ones (Table 2.5 step 3). -/
def Rank.drained (r : Rank) : Bool := r.stopped && r.parcels.all fun x => x.heldSince.isSome

/-- Ranks in ascending order with their cursors' steps. -/
def Job.rankSteps (j : Job) : List (Nat × Nat) := (j.ranks.map fun r => (r.rank, r.cursor)).foldl (fun l e => insertRank e l) []

/-- The partial seal record (R64). -/
def Dev.partialRecord (d : Dev) (j : Job) (x : Seal) : Bytes :=
  let rs := j.rankSteps
  let stop := stepOf j.k x.stop
  sealRecord { merged := false, express := j.express, reached := j.ranks.all fun r => decide (stop ≤ r.cursor),
               postmark := j.postmark, stamp := j.stamp, semantics := d.semantics, nonce := x.nonce, stop := x.stop,
               deadLetters := j.ctrs.itemsFailed,
               substitutions := j.rankSum (fun r => r.sort.substitutions) + j.ctrs.substitutionsBase, devices := 1,
               desc := (j.desc j.conf).bytes } j.k (commonStep (rs.map (·.2))) rs

/-- An answer to a waiting JOB_SEAL: the record goes to its buffer at once, the response follows the record's journal entry
(R579, R422). -/
def Dev.sealAnswer (d : Dev) (w : Nat × Nat × Nat) (rec_ : Bytes) (recs : List (Nat × JRec)) : Dev :=
  if w.2.2 < rec_.length then d.answerAfter w.1 (fail St.PGH_BUFFER_SHORT rec_.length) recs
  else
    let x := d.hostWrite (portOf w.1) w.2.1 w.2.2 rec_
    x.1.answerAfter w.1 (if x.2 then { body := le 4 rec_.length ++ le 4 (fld rec_ 40 4) } else fail St.PGH_DMA) recs

/-- Active Postmaster core of a die as a unit: slot 0, or 1 for the spare. -/
def Dev.postmasterUnit (d : Dev) (die : Nat) : UnitRef := { kind := 0x0D, die := die, slot := (d.die die).postmaster }

/-- ITEMS_STARTED less the sum of the other item counters (R537). -/
def JobCtrs.difference (c : JobCtrs) : Int :=
  (c.itemsStarted : Int) - (c.itemsDone + c.itemsFailed + c.itemsAbandoned + c.itemsInFlight)

/-- An item counter check that fails is reported with the difference (R537). -/
def Dev.checkItems (d : Dev) (h : Nat) : Dev := match d.job h with
  | some j => if j.ctrs.difference = 0 then d else d.report St.FLT_ACCOUNTING (d.postmasterUnit 0) (BitVec.ofInt 64 j.ctrs.difference)
  | none => d

/-- Steps 3 to 5 of Table 2.5: items abandoned, parcels discarded, cursors fixed, the record written as a system object, the job
SEALED and every waiting command answered (R58 to R61). -/
def Dev.finishSeal (d : Dev) (j : Job) (x : Seal) : Dev :=
  let h := j.handle
  let d := j.ranks.foldl (fun (d : Dev) (r : Rank) => (d.dropWindow h r.rank).dropParcels h r.rank) d
  let d := d.checkItems h
  let rec_ := d.partialRecord j x
  let d := d.onJob h fun j => { j with
    state := .sealed_
    sealRec := some { x with bytes := rec_, waiters := [] }
    ranks := j.ranks.map fun (r : Rank) => { r with stopped := true } }
  let (d, recs) := d.systemObj (systemObjId 0 h) true rec_
  match x.waiters with
  | [] => (d.pushAll recs).2
  | w :: ws => ws.foldl (fun (d : Dev) v => d.sealAnswer v rec_ []) (d.sealAnswer w rec_ recs)

/-- SEAL_CUTOFF: every rank has stopped, or 1.6 s have passed since the seal (R58). -/
def sealCutoffEffect (job : Nat) (_m : Mem) (d : Dev) : Dev :=
  match d.job job with
  | none => d
  | some j =>
    match j.state, j.sealRec with
    | .sealing, some x =>
      let d := if j.ranks.all Rank.drained then d else d.until (x.at_ + 1600000000)
      d.finishSeal j x
    | _, _ => d

/-- The end of a seal's delivery: the record written, the job sealed. -/
def execSealCutoff (job : Nat) (s : State) : Host.Outcome State Fault Refusal :=
  .next (s.put (sealCutoffEffect job s.mem s.dev))

end Sys2Proof.Machine
end

