-- ==== Sys2Proof/Machine/Staging.lean ====
section
/-! DEFINITION. Configuration changes: staged, prepared, committed, withdrawn (R46 to R48, R107, R129, R134 to R140, R207). -/

namespace Sys2Proof.Machine

open Sys2Proof

/-! ### DEV_STAGE_CONFIG (R134, R135, R588) -/

/-- The configuration a request makes of a job's present one. -/
def stagedConf (d : Dev) (j : Job) (b : Bytes) : JobConf :=
  let mask := fld b 8 4
  let c := if bit mask 0 then match d.route (cut b 16 32) with
      | some r => { j.conf with routeDigest := r.digest, route := r.binary }
      | none => j.conf
    else j.conf
  let c := if bit mask 1 then { c with cardObject := fld b 48 16, cardDigest := cut b 64 32 } else c
  if bit mask 2 then { c with lookahead := orDefault b 12 1 4 } else c

/-- Fields a change may not alter (R107, R134, R588). -/
def maskRefusal (mask : Nat) : Option Status :=
  if mask = 0 then some St.PGH_FIELD
  else if bits mask 5 3 ≠ 0 then some St.RTE_STAGE_FIELD
  else if bits mask 11 6 ≠ 0 then some St.SRT_SHARD_FIXED
  else none

/-- What stops a change from being staged. -/
def Dev.stageRefusal (d : Dev) (j : Job) (b : Bytes) : Option Status :=
  let c := stagedConf d j b
  if j.state ≠ .running then some St.PGH_JOB_STATE
  else if j.stamp = 0xFFFFFFFF then some St.PGH_STAMP_EXHAUSTED
  else if j.staged.isSome ∨ j.oldLive then some St.RTE_STAGE_BUSY
  else match maskRefusal (fld b 8 4) with
    | some st => some st
    | none =>
      if c.lookahead < 1 ∨ 64 < c.lookahead then some St.PGH_FIELD
      else d.cardRefusal (routeOf c.route).cardLen j.n c.cardObject c.cardDigest

/-- Units that serve a job and report on a change: 0 to 7 the sorting offices of its dies, 8 to 15 the buffer-pool managers, and
16 + 64 die + 8 cluster + core the sequencers of dies in service (R136). -/
def Dev.stageUnits (d : Dev) (j : Job) : List Nat :=
  let dies := (List.range 8).filter d.dieUp
  (dies.filter fun i => !(j.ranksOn i).isEmpty) ++ dies.map (· + 8) ++
  dies.flatMap fun i => (List.range 64).filterMap fun n =>
    if (d.physical { die := i, cluster := n / 8, core := n % 8 }).isSome then some (16 + 64 * i + n) else none

/-- DEV_STAGE_CONFIG: the change is staged, prepare begins, and the command waits for it (R136). -/
def devStageConfigRun (p : Nat) (b : Bytes) (_m : Mem) (d : Dev) : Dev :=
  match d.job (fld b 0 4) with
  | none => d.answer p (fail St.PGH_HANDLE)
  | some j =>
    match d.stageRefusal j b with
    | some st => d.answer p (fail st)
    | none =>
      let x : Staged := { id := fld b 4 4, mask := fld b 8 4, conf := stagedConf d j b, waiting := d.stageUnits j, ph := some p,
                          at_ := d.now }
      d.onJob j.handle fun j => { j with staged := some x }

/-- Handles of the request: its job, and the route it names (R587, Table 20.8). -/
def stageHandles (b : Bytes) (d : Dev) : Bool := jobHeld b d && (!bit (fld b 8 4) 0 || (d.route (cut b 16 32)).isSome)

/-- The command of opcode 0x0105. -/
def devStageConfigOp : PghOp where
  opcode := 0x0105
  used := [(0, 4), (4, 4), (8, 4), (12, 1), (16, 32), (48, 16), (64, 32)]
  reserved := fun b => bitsClear b 8 4 12
  handles := stageHandles
  run := devStageConfigRun

/-- DEV_STAGE_CONFIG: a configuration change of a running job staged. -/
def execDevStageConfig (p : Nat) (frame : Bytes) (s : State) : Host.Outcome State Fault Refusal :=
  .next (s.put (devStageConfigOp.ring p frame s.mem s.dev))

/-! ### Prepare (R136, R139) -/

/-- The change leaves every unit: the waiting command answers, and JOB_QUERY keeps the status. -/
def Dev.withdraw (d : Dev) (j : Job) (last st : Status) : Dev :=
  match j.staged with
  | none => d
  | some x =>
    let d := d.onJob j.handle fun j => { j with staged := none, lastStageStatus := last, lastStageId := x.id }
    let d := d.answerTo x.ph (fail st)
    match x.commit with
    | some (_, _, p) => d.answer p (fail St.RTE_COMMIT_ABORTED)
    | none => d

/-- The status a failed prepare ends DEV_STAGE_CONFIG with (R136). -/
def prepareStatus (st : Status) : Status := if st = St.RTE_VOCAB_MISSING then st else St.RTE_PREPARE_FAILED

/-- What makes prepare fail whatever the units report (R87, R118, R292, R300, R405). -/
def Dev.prepareRefusal (d : Dev) (j : Job) (x : Staged) : Option Status :=
  let r := routeOf x.conf.route
  if d.vocabsResident r = false then some St.RTE_VOCAB_MISSING
  else if d.tokenDtypeOk r = false then some St.PCK_TOKEN_DTYPE
  else if j.ranks.any (fun k => decide (k.slotBytes < r.parcelLength j.b)) then some St.PCK_PARCEL_SIZE
  else if r.cardLen ≠ 0 ∧ d.pinRoom x.conf.cardObject = false then some St.STO_PIN_LIMIT
  else if bit x.mask 2 ∧ (d.windows j x.conf.lookahead).isNone then some St.SRT_WINDOW_SHORT
  else none

/-- One unit has prepared: its window sizes are reserved with the first report, and the command answers with the last. -/
def Dev.unitPrepared (d : Dev) (j : Job) (x : Staged) (unit : Nat) : Dev :=
  let left := x.waiting.filter (· != unit)
  let x' : Staged := { x with
    waiting := left
    sizes := if bit x.mask 2 then (d.windows j x.conf.lookahead).getD [] else []
    ph := if left.isEmpty then none else x.ph }
  let d := d.onJob j.handle fun j => { j with
    staged := some x'
    lastStageStatus := if left.isEmpty then St.SUCCESS else j.lastStageStatus }
  if left.isEmpty then d.answerTo x.ph { body := le 4 j.stamp } else d

/-- PREPARE_REPORT (R136, R139): a unit reports prepared or failed; one that loses its prepared state withdraws the change. -/
def prepareReportEffect (job unit : Nat) (ok : Bool) (_m : Mem) (d : Dev) : Dev :=
  match d.job job with
  | none => d
  | some j =>
    match j.staged with
    | none => d
    | some x =>
      if x.ph.isNone then
        if ok ∨ !(d.stageUnits j).contains unit then d else d.withdraw j St.RTE_COMMIT_ABORTED St.RTE_COMMIT_ABORTED
      else if x.waiting.contains unit = false then d
      else if ok = false then d.withdraw j St.RTE_PREPARE_FAILED St.RTE_PREPARE_FAILED
      else match d.prepareRefusal j x with
        | some st => d.withdraw j st (prepareStatus st)
        | none => d.unitPrepared j x unit

/-- A unit's report on a staged change. -/
def execPrepareReport (job unit : Nat) (ok : Bool) (s : State) : Host.Outcome State Fault Refusal :=
  .next (s.put (prepareReportEffect job unit ok s.mem s.dev))

/-- PREPARE_TIMEOUT: 500 ms without every unit prepared (R136). -/
def prepareTimeoutEffect (job : Nat) (_m : Mem) (d : Dev) : Dev :=
  match d.job job with
  | none => d
  | some j =>
    match j.staged with
    | none => d
    | some x =>
      if x.ph.isNone then d
      else (d.until (x.at_ + 500000000)).withdraw j St.RTE_PREPARE_FAILED St.RTE_PREPARE_FAILED

/-- A prepare that has run out of time. -/
def execPrepareTimeout (job : Nat) (s : State) : Host.Outcome State Fault Refusal :=
  .next (s.put (prepareTimeoutEffect job s.mem s.dev))

/-- A unit has lost what it prepared before the commit tick (R139). -/
def Dev.stageUnitLost (d : Dev) (unit : Nat) : Dev :=
  d.jobs.foldl (fun (d : Dev) (j : Job) => match j.staged with
    | some x =>
      if (d.stageUnits j).contains unit = false ∧ x.waiting.contains unit = false then d
      else if x.ph.isSome then d.withdraw j St.RTE_PREPARE_FAILED St.RTE_PREPARE_FAILED
      else d.withdraw j St.RTE_COMMIT_ABORTED St.RTE_COMMIT_ABORTED
    | none => d) d

/-! ### DEV_COMMIT_CONFIG (R137, R138) -/

/-- An item of some rank at or beyond a step is already admitted, or its parcel released (R137). -/
def Job.admittedFrom (j : Job) (step : Nat) : Bool :=
  j.ranks.any fun r => decide (step < r.nextStep) || r.window.any fun e => e.begun && decide (step ≤ e.step)

/-- What refuses a commit (R137, R588). -/
def Dev.commitRefusal (d : Dev) (j : Job) (b : Bytes) : Option Status :=
  let tick := fld b 8 8
  let cur := fld b 16 8
  if j.state ≠ .running then some St.PGH_JOB_STATE
  else if (cur = 0 ∧ j.express = false) ∨ (cur ≠ 0 ∧ j.k ≤ cur % 2 ^ 48) then some St.PGH_FIELD
  else match j.staged with
    | none => some St.RTE_NO_STAGED
    | some x =>
      if x.ph.isSome ∨ x.id ≠ fld b 4 4 ∨ x.commit.isSome then some St.RTE_NO_STAGED
      else if tick < d.clk.tick + 2 ∨ 10000000000 < (tick - d.clk.tick) * d.clk.period * 10 then some St.RTE_COMMIT_RANGE
      else if cur ≠ 0 ∧ j.admittedFrom (stepOf j.k cur) then some St.RTE_COMMIT_LATE
      else none

/-- DEV_COMMIT_CONFIG: accepted, the command waits for COMMIT_TICK (R138). -/
def devCommitConfigRun (p : Nat) (b : Bytes) (_m : Mem) (d : Dev) : Dev :=
  match d.job (fld b 0 4) with
  | none => d.answer p (fail St.PGH_HANDLE)
  | some j =>
    match d.commitRefusal j b, j.staged with
    | none, some x =>
      let x' : Staged := { x with commit := some (fld b 8 8, fld b 16 8, p) }
      d.onJob j.handle fun j => { j with staged := some x' }
    | some st, _ => d.answer p (fail st)
    | none, none => d.answer p (fail St.RTE_NO_STAGED)

/-- The command of opcode 0x0106. -/
def devCommitConfigOp : PghOp where
  opcode := 0x0106
  used := [(0, 4), (4, 4), (8, 8), (16, 8)]
  handles := jobHeld
  run := devCommitConfigRun

/-- DEV_COMMIT_CONFIG: a staged change given its tick and cursor. -/
def execDevCommitConfig (p : Nat) (frame : Bytes) (s : State) : Host.Outcome State Fault Refusal :=
  .next (s.put (devCommitConfigOp.ring p frame s.mem s.dev))

/-! ### CONFIG_COMMIT (R46, R107, R138, R140) -/

/-- A rank's first parcel none of whose items is admitted: from its next parcel on (R138). -/
def Rank.firstUnadmitted (r : Rank) : Nat → Nat → Nat
  | 0, step => step
  | f + 1, step => if (r.window.any fun e => e.begun && e.step == step) then r.firstUnadmitted f (step + 1) else step

/-- Cursor order of window entries. -/
def Entry.before (a b : Entry) : Bool := decide (a.step < b.step) || (a.step == b.step && decide (a.slot < b.slot))

/-- Entries of a window beyond its first n in cursor order. -/
def Rank.beyond (r : Rank) (n : Nat) : List Entry := r.window.filter fun e => decide (n ≤ (r.window.filter fun x => x.before e).length)

/-- The lowest of entries in cursor order. -/
def lowestEntry : List Entry → Option Entry
  | [] => none
  | e :: es => match lowestEntry es with
    | some x => if x.before e then some x else some e
    | none => some e

/-- A rank's window takes a size: entries beyond a smaller one are freed, their items abandoned, and mapped again later; a larger one
fills (R107). -/
def Dev.resizeWindow (d : Dev) (job : Nat) (r : Rank) (size : Nat) : Dev :=
  let gone := r.beyond size
  let d := gone.foldl (fun (d : Dev) (e : Entry) => if e.state = .readIssued then d.dropFetch (e.ref job r.rank) else d) d
  let d := d.abandonWhere job r.rank fun e => gone.any fun x => x.q == e.q && x.epoch == e.epoch
  let d := d.onRank job r.rank fun r => match lowestEntry gone with
    | some e => { r with windowSize := size, mapStep := e.step, mapSlot := e.slot }
    | none => { r with windowSize := size }
  d.advance job r.rank

/-- The references of stamps none of whose items lives any more are released (R140). -/
def Dev.releaseOlds (d : Dev) (job : Nat) : Dev :=
  match d.job job with
  | none => d
  | some j =>
    let gone := j.old.filter fun o => !o.released && !j.live o
    let (d, recs) := gone.foldl (fun (a : Dev × List (Nat × JRec)) o =>
      let x := a.1.unpinCards o.conf
      (x.1, a.2 ++ x.2)) (d, [])
    let d := (d.pushAll recs).2
    d.onJob job fun j => { j with
      old := (j.old.map fun (o : OldConf) => { o with released := o.released || !j.live o }).filter fun o =>
        !(o.released && j.ranks.all fun r => decide (o.boundary r.rank ≤ r.cursor)) }

/-- The change commits: the stamp rises, the old configuration keeps the parcels before the boundary, the new card object is pinned,
windows take their new sizes (R107, R138, R319, R405). -/
def Dev.commit (d : Dev) (j : Job) (x : Staged) (cur : Nat) : Dev :=
  let o : OldConf :=
    { stamp := j.stamp, conf := j.conf, upTo := if cur = 0 then 0 else stepOf j.k cur,
      rankUpTo := if cur ≠ 0 then [] else j.ranks.map fun r => (r.rank, r.firstUnadmitted r.window.length r.nextStep) }
  let d := d.onJob j.handle fun j => { j with
    old := j.old ++ [o]
    stamp := j.stamp + 1
    conf := x.conf
    staged := none
    lastStageId := x.id
    ctrs := if cur = 0 then { j.ctrs with timedCommits := j.ctrs.timedCommits + 1 } else j.ctrs }
  let (d, recs) := d.pinCards x.conf
  let d := (d.pushAll recs).2
  j.ranks.foldl (fun (d : Dev) (r : Rank) => match x.sizes.find? fun w => w.1 == r.die with
    | some w => d.resizeWindow j.handle r w.2
    | none => d) d

/-- CONFIG_COMMIT: COMMIT_TICK has begun; the command answers (R138). -/
def configCommitEffect (job : Nat) (_m : Mem) (d : Dev) : Dev :=
  match d.job job with
  | none => d
  | some j =>
    match j.staged with
    | none => d
    | some x => match x.commit with
      | none => d
      | some (tick, cur, p) =>
        if d.clk.tick < tick then d
        else (((d.commit j x cur).releaseOlds job).answer p { body := le 4 (j.stamp + 1) })

/-- The start of COMMIT_TICK for a job. -/
def execConfigCommit (job : Nat) (s : State) : Host.Outcome State Fault Refusal :=
  .next (s.put (configCommitEffect job s.mem s.dev))

/-- First step held back by a change being committed (R129). -/
def Job.heldFrom (j : Job) : Option Nat := match j.staged.bind (·.commit) with
  | some (_, cur, _) => if cur = 0 then none else some (stepOf j.k cur)
  | none => none

end Sys2Proof.Machine
end

