-- ==== Sys2Proof/Machine/Delivery.lean ====
section
/-! DEFINITION. Delivery: parcels released at delivery ticks, credit words, poste restante, express substitution, acknowledged
final writes (R56, R102 to R105, R133, R299 to R309, R316 to R324). -/

namespace Sys2Proof.Machine

open Sys2Proof

/-- The job delivers: it runs, or is being sealed. -/
def Job.delivers (j : Job) : Bool := j.state == .running || j.state == .sealing

/-- A tick is a delivery tick of the job (R102). -/
def Job.isDelivery (j : Job) (tick : Nat) : Bool :=
  j.delivers && decide (j.t0 ≤ tick) && (tick - j.t0) % max 1 j.tickMult == 0

/-! ### A rank's next parcel -/

/-- Entry of a slot of a rank's batch. -/
def Rank.entryAt (r : Rank) (step slot : Nat) : Option Entry := r.window.find? fun e => e.step == step && e.slot == slot

/-- Entries of a batch in slot order; none while some slot is not mapped. -/
def Rank.batch (r : Rank) (b step : Nat) : Option (List Entry) := (List.range b).mapM (r.entryAt step)

/-- The next parcel, when every slot of it is DONE or FAILED (R90). -/
def Rank.complete (r : Rank) (b : Nat) : Option (List Entry) :=
  (r.batch b r.nextStep).bind fun es => if es.any Entry.unfinished then none else some es

/-- Parcels of the epoch of a step may be released at a tick (R89, R390). -/
def Job.epochOpen (j : Job) (step tick : Nat) : Bool :=
  let e := step / max 1 j.k
  decide (e < j.openEpoch) || (e == j.openEpoch && decide (j.openFrom ≤ tick))

/-- Parcels a rank holds in poste restante. -/
def Rank.held (r : Rank) : List Parcel := r.parcels.filter fun p => p.heldSince.isSome

/-- A slot of the rank's ring is free for a parcel (R302). -/
def Rank.slotFree (r : Rank) (step : Nat) : Bool := decide (step < r.credit + r.depth)

/-- The first two cases of R304 do not hold. -/
def Dev.rankUp (d : Dev) (r : Rank) : Bool := d.groupUp r.qpn && !r.refused

/-! ### Dispatch of a parcel (R301, R322, R343) -/

/-- The writes of a parcel: its bytes to the slot, then the flag entry (Table 9.8). -/
def parcelWrite (job : Nat) (r : Rank) (p : Parcel) : FlagWrite :=
  let slot := p.step % max 1 r.depth
  { addr := r.remoteAddr + slot * r.slotBytes, rkey := r.rkey, data := p.bytes, dataFor := .parcelData job r.rank p.step,
    flagAddr := r.remoteAddr + r.depth * r.slotBytes + 16 * slot,
    flag := le 8 (p.step + 1) ++ le 4 p.bytes.length ++ le 4 p.crc, flagFor := .parcelFlag job r.rank p.step,
    imm := (p.step + 1) % 2 ^ 32 }

/-- A parcel goes to dispatch; its release term is added once per run (R322, R323). -/
def Dev.dispatchParcel (d : Dev) (job rank tickOff : Nat) (p : Parcel) : Dev :=
  match d.rank job rank with
  | none => d
  | some r =>
    let d := d.postFlagged r.qpn (parcelWrite job r p)
    d.onRank job rank fun r => { r with
      parcels := updWhere r.parcels (fun x => x.step == p.step) fun x => { x with heldSince := none }
      releaseSum := if p.step < r.releasedTo then r.releaseSum else r.releaseSum + deliveryTerm "RSUM" rank p.step tickOff
      releasedTo := max r.releasedTo (p.step + 1) }

/-! ### Delivery ticks (R102, R302, R304 to R306, R308) -/

/-- The credit word is read (R302). -/
def Rank.readCredit (r : Rank) (v : Nat) : Rank :=
  if v ≤ r.credit then r
  else if r.cursor < v then { r with parcel := { r.parcel with creditIgnored := r.parcel.creditIgnored + 1 } }
  else { r with credit := v }

/-- Held parcels that may go at this tick: in step order as far as the ring has room (R306). -/
def Rank.returning (r : Rank) : List Parcel := r.held.takeWhile fun p => r.slotFree p.step

/-- Held parcels return to dispatch while none of the first three cases of R304 holds (R306). -/
def Dev.returnHeld (d : Dev) (job rank tickOff : Nat) : Dev :=
  match d.rank job rank with
  | none => d
  | some r =>
    if d.rankUp r = false then d
    else r.returning.foldl (fun (d : Dev) (p : Parcel) =>
      (d.dispatchParcel job rank tickOff p).onRank job rank fun r =>
        { r with parcel := { r.parcel with prReturned := r.parcel.prReturned + 1 } }) d

/-- First step a dormant rank produces again: its cursor, past parcels still with dispatch (R308; log entry 26). -/
def Rank.wakeStep (r : Rank) : Nat := r.cursor + (r.parcels.filter fun p => p.heldSince.isNone).length

/-- A dormant rank returns: its window is rebuilt (R308). -/
def Dev.wakeRank (d : Dev) (job rank : Nat) : Dev :=
  match d.rank job rank with
  | none => d
  | some r =>
    if r.dormant ∧ d.rankUp r ∧ r.slotFree r.cursor then
      (d.onRank job rank fun r => { r.startAt r.wakeStep with dormant := false }).advance job rank
    else d

/-- Header values of a parcel (R293 to R297). -/
def parcelHead (d : Dev) (j : Job) (r : Rank) (step : Nat) : ParcelHead :=
  let c := j.confAt r.rank step
  { postmark := (j.desc c).postmark, stamp := j.stampAt r.rank step, rank := r.rank, epoch := step / max 1 j.k, express := j.express,
    lastBatch := (step + 1) % max 1 j.k == 0, batch := step % max 1 j.k, step := step, w := j.w, b := j.b, semantics := d.semantics }

/-- What packing and padding did to the slots of a parcel, added to the rank's counters (R284, R289, R290, R310). -/
def ParcelCtrs.packed (c : ParcelCtrs) (r : RouteBin) (es : List Entry) : ParcelCtrs :=
  let x := es.zip (parcelPlaces r es)
  let packed := r.packer.isSome
  { c with
    released := c.released + 1
    shapePadded := c.shapePadded + (es.filter fun e => e.state != .failed && e.placed.any (·.padded)).length
    tokensDropped := c.tokensDropped + if packed then (x.map fun y => tokensLost y.1 y.2).sum else 0
    seqTruncated := c.seqTruncated + if packed then (x.filter fun y => packTruncated y.1 y.2).length else 0
    seqDropped := c.seqDropped + if packed then (x.filter fun y => packDropped y.1 y.2).length else 0 }

/-- The rank's last parcel of an epoch has been released: it arrives at that epoch's barrier (R383). -/
def Dev.arriveAfter (d : Dev) (job rank step : Nat) : Dev :=
  match d.job job with
  | none => d
  | some j =>
    if (step + 1) % max 1 j.k = 0 ∧ j.barrier.opened ∧ j.barrier.number = (step + 1) / max 1 j.k then d.rankArrives job rank else d

/-- A complete parcel is released: to dispatch, or to poste restante (R102, R131, R304). -/
def Dev.releaseParcel (d : Dev) (j : Job) (r : Rank) (es : List Entry) (tickOff : Nat) : Dev :=
  let g := r.nextStep
  let route := routeOf (j.confAt r.rank g).route
  let x := parcelBytes (parcelHead d j r g) route es
  let p : Parcel :=
    { step := g, bytes := x.1, crc := x.2, heldSince := none, stamp := j.stampAt r.rank g,
      slotsFailed := (es.filter fun e => e.state == .failed).length, runDep := (es.filter (·.runDependent)).length }
  let hold := !d.rankUp r || !r.slotFree g || !r.held.isEmpty
  let d := d.onRank j.handle r.rank fun r => { r with
    window := r.window.filter fun e => e.step != g
    nextStep := g + 1
    parcels := r.parcels ++ [p]
    parcel := r.parcel.packed route es }
  let d := if hold then d.onRank j.handle r.rank fun r => r.hold g d.now else d.dispatchParcel j.handle r.rank tickOff p
  (d.advance j.handle r.rank).arriveAfter j.handle r.rank g

/-- A delivery tick at which the next parcel is not released (R102, R305); one complete and kept back by its barrier counts in
BARRIER_WAITS (R390). -/
def Dev.slip (d : Dev) (job rank : Nat) (barred : Bool) : Dev :=
  let d := d.onSort job rank fun c => { c with slips := c.slips + 1 }
  if barred then d.onJobCtrs job fun c => { c with barrierWaits := c.barrierWaits + 1 } else d

/-- The rank's next parcel at a delivery tick (R102, R105, R305, R308). -/
def Dev.deliverNext (d : Dev) (j : Job) (rank tick : Nat) : Dev :=
  match d.rank j.handle rank with
  | none => d
  | some r =>
    if j.mapEnd ≤ r.nextStep then d
    else if r.dormant then d.slip j.handle rank false
    else if r.starved then d
    else match r.complete j.b with
      | none => d.slip j.handle rank false
      | some es =>
        if j.epochOpen r.nextStep tick = false then d.slip j.handle rank true
        else if r.prParcels ≤ r.held.length then d.slip j.handle rank false
        else d.releaseParcel j r es (tick - j.t0)

/-- A rank at a delivery tick: credit read, held parcels returned, a dormant rank woken, the next parcel released. -/
def Dev.deliverRank (d : Dev) (m : Mem) (j : Job) (tick : Nat) (r : Rank) : Dev :=
  if r.stopped then d
  else
    let h := j.handle
    let d := d.onRank h r.rank fun x => x.readCredit (dramU64 m x.creditAddr).toNat
    let d := (d.returnHeld h r.rank (tick - j.t0)).wakeRank h r.rank
    d.deliverNext j r.rank tick

/-- DELIVERY_TICK of a die: its ranks, job by job, once a tick (R102, R131 step 5). -/
def deliveryTickEffect (die : Nat) (m : Mem) (d : Dev) : Dev :=
  let tick := d.clk.dieTick.getD die 0
  if d.dieUp die = false ∨ tick ≤ (d.die die).lastDelivery then d
  else
    let d := d.onDie die fun x => { x with lastDelivery := tick }
    (d.jobs.filter fun j => j.isDelivery tick).foldl (fun (d : Dev) (j : Job) =>
      (j.ranksOn die).foldl (fun (d : Dev) (r : Rank) => d.deliverRank m j tick r) d) d

/-- A delivery tick of a die. -/
def execDeliveryTick (die : Nat) (s : State) : Host.Outcome State Fault Refusal :=
  .next (s.put (deliveryTickEffect die s.mem s.dev))

/-! ### Express substitution (R103 to R105, R133) -/

/-- The DONE entry of lowest position. -/
def lowestPosition : List Entry → Option Entry
  | [] => none
  | e :: es => match lowestPosition es with
    | some x => if x.q < e.q then some x else some e
    | none => some e

/-- The substitute of a late entry: DONE, same epoch and stamp, of a later batch, lowest position (R103, R133). -/
def Rank.substitute (r : Rank) (j : Job) (late : Entry) : Option Entry :=
  lowestPosition (r.window.filter fun e => e.state == .done && e.epoch == late.epoch && decide (late.step < e.step) &&
    j.stampAt r.rank e.step == j.stampAt r.rank late.step)

/-- Two entries exchange their slots; the substitute is marked (R103, R104). -/
def Rank.swap (r : Rank) (late sub : Entry) : Rank :=
  { r with
    window := r.window.map fun (e : Entry) =>
      if e.q = late.q ∧ e.epoch = late.epoch then { e with step := sub.step, slot := sub.slot }
      else if e.q = sub.q ∧ e.epoch = sub.epoch then { e with step := late.step, slot := late.slot, substituted := true }
      else e
    sort := { r.sort with substitutions := r.sort.substitutions + 1 } }

/-- Slots of the next parcel from one on, in ascending order, examined at the cutoff; a slot without a substitute ends the
examination (R103, R105). -/
def Rank.examine (j : Job) : Nat → Nat → Rank → Rank
  | 0, _, r => r
  | n + 1, slot, r =>
    match r.entryAt r.nextStep slot with
    | none => { r with starved := true, sort := { r.sort with subStarved := r.sort.subStarved + 1, slips := r.sort.slips + 1 } }
    | some e =>
      if e.unfinished = false then Rank.examine j n (slot + 1) r
      else match r.substitute j e with
        | some x => Rank.examine j n (slot + 1) (r.swap e x)
        | none => { r with starved := true, sort := { r.sort with subStarved := r.sort.subStarved + 1, slips := r.sort.slips + 1 } }

/-- The cutoff of a rank. -/
def Rank.cutoff (j : Job) (r : Rank) : Rank :=
  if r.dormant || r.stopped || decide (j.mapEnd ≤ r.nextStep) then { r with starved := false }
  else Rank.examine j j.b 0 { r with starved := false }

/-- EXPRESS_CUTOFF of a die: the tick before a delivery tick of an express job begins (R103, R131 step 6). -/
def expressCutoffEffect (die : Nat) (_m : Mem) (d : Dev) : Dev :=
  let tick := d.clk.dieTick.getD die 0
  if d.dieUp die = false ∨ tick ≤ (d.die die).lastCutoff then d
  else
    let d := d.onDie die fun x => { x with lastCutoff := tick }
    (d.jobs.filter fun j => j.express && j.isDelivery (tick + 1)).foldl (fun (d : Dev) (j : Job) =>
      (j.ranksOn die).foldl (fun (d : Dev) (r : Rank) => d.onRank j.handle r.rank fun r => r.cutoff j) d) d

/-- The cutoff examination of a die. -/
def execExpressCutoff (die : Nat) (s : State) : Host.Outcome State Fault Refusal :=
  .next (s.put (expressCutoffEffect die s.mem s.dev))

/-! ### FINAL_WRITE_ACK (R56, R310, R318, R322) -/

/-- Counters and sums of a delivered parcel. -/
def Rank.delivered (r : Rank) (p : Parcel) : Rank :=
  { r with
    cursor := p.step + 1
    parcels := r.parcels.filter fun x => x.step != p.step
    parcel := { r.parcel with delivered := r.parcel.delivered + 1, slotsFailed := r.parcel.slotsFailed + p.slotsFailed }
    runDepSlots := r.runDepSlots + p.runDep
    parcelCount := r.parcelCount + 1
    parcelSum := r.parcelSum + deliveryTerm "PSUM" r.rank p.step p.crc
    stepLow := some (match r.stepLow with | some l => min l p.step | none => p.step)
    stepHigh := max r.stepHigh p.step }

/-- FINAL_WRITE_ACK: the flagged final write of the parcel at the rank's cursor has been acknowledged (R56). -/
def finalWriteAckEffect (job rank step : Nat) (_m : Mem) (d : Dev) : Dev :=
  match d.job job, d.rank job rank with
  | some j, some r =>
    match r.parcels.find? fun p => p.step == step && p.acked with
    | none => d
    | some p =>
      if step ≠ r.cursor ∨ j.delivers = false then d
      else
        let d := d.freeUse r.die (.parcel job rank step)
        d.onRank job rank fun r => { r.delivered p with
          stopped := r.stopped || (j.stopStep.any fun s => decide (s ≤ step + 1)) }
  | _, _ => d

/-- A parcel delivered. -/
def execFinalWriteAck (job rank step : Nat) (s : State) : Host.Outcome State Fault Refusal :=
  .next (s.put (finalWriteAckEffect job rank step s.mem s.dev))

/-! ### PR_HOLD_EXPIRY (R308) -/

/-- PR_HOLD_EXPIRY: the oldest held parcel has been held for PR_HOLD; every held parcel is discarded and the rank is dormant. -/
def prHoldExpiryEffect (job rank : Nat) (_m : Mem) (d : Dev) : Dev :=
  match d.job job, d.rank job rank with
  | some j, some r =>
    match (r.held.head?).bind (·.heldSince) with
    | none => d
    | some t =>
      let since := (r.held.filterMap (·.heldSince)).foldl min t
      let d := d.until (since + j.prHold * 1000000000)
      let gone := r.held.map (·.step) ++ (List.range (r.bufferedTo - r.nextStep)).map (· + r.nextStep)
      let d := gone.foldl (fun (d : Dev) s => d.freeUse r.die (.parcel job rank s)) d
      (d.dropWindow job rank).onRank job rank fun r => { r with
        parcels := r.parcels.filter fun p => p.heldSince.isNone
        parcel := { r.parcel with prExpired := r.parcel.prExpired + r.held.length }
        bufferedTo := r.nextStep
        dormant := true }
  | _, _ => d

/-- A rank's held parcels running out. -/
def execPrHoldExpiry (job rank : Nat) (s : State) : Host.Outcome State Fault Refusal :=
  .next (s.put (prHoldExpiryEffect job rank s.mem s.dev))

end Sys2Proof.Machine
end

