-- ==== Sys2Proof/Machine/Reads.lean ====
section
/-! DEFINITION. Reads of the windows' positions: local reads, fetch requests and replies, staging at the home node, releases and
deadlines (R93 to R101, R108, R210, R633). -/

namespace Sys2Proof.Machine

open Sys2Proof

/-! ### Order of reads (R93, R94) -/

/-- A position that awaits its read: its item, urgency, cursor and slot (R93). -/
structure Pending where
  item : ItemRef
  urgent : Bool
  step : Nat
  slot : Nat
  since : Nat
  alt : Bool
  deriving DecidableEq, Repr, Inhabited

/-- Order of R93. -/
def Pending.before (a b : Pending) : Bool :=
  if a.urgent != b.urgent then a.urgent
  else decide (a.step < b.step) || (a.step == b.step && decide (a.slot < b.slot))

/-- The first in the order of R93, the earliest listed among equals. -/
def firstPending : List Pending → Option Pending
  | [] => none
  | x :: xs => match firstPending xs with
    | some y => if y.before x then some y else some x
    | none => some x

/-- Up to n of them in that order. -/
def takePending : Nat → List Pending → List Pending
  | 0, _ => []
  | n + 1, l => match firstPending l with
    | none => []
    | some x => x :: takePending n (l.filter fun y => y.item != x.item)

/-- An entry as a pending read of its rank: urgent when its batch is one of the next two to be released (R93). -/
def Rank.pending (r : Rank) (job : Nat) (e : Entry) (since : Nat) (alt : Bool) : Pending :=
  { item := e.ref job r.rank, urgent := decide (e.step < r.nextStep + 2), step := e.step, slot := e.slot, since := since, alt := alt }

/-- MAPPED entries of a die's ranks that p picks out, with their jobs. -/
def Dev.mappedOn (d : Dev) (die : Nat) (p : Job → Entry → Bool) : List Pending :=
  (d.jobs.filter Job.delivers).flatMap fun j => (j.ranksOn die).flatMap fun r =>
    (r.window.filter fun e => e.state == .mapped && p j e).map fun e => r.pending j.handle e e.mappedAt false

/-! ### Local reads (R94, R210) -/

/-- Object that holds an item's sample in this device's store. -/
def Dev.sampleObject (d : Dev) (i : ItemRef) : Option Obj :=
  match d.job i.job, d.entry i with
  | some j, some e => (d.ownManifest j e.index).bind fun m => d.object m.id
  | _, _ => none

/-- Bucket of an item's local read: (channel, NAND die, plane) of its object's first page, as physical slot bits [31:19] (R94). -/
def Dev.bucketOf (d : Dev) (i : ItemRef) : Nat :=
  match (d.sampleObject i).bind fun o => d.store.cell o.firstCell with
  | some c => bits c.slot 31 19
  | none => 0

/-- Buckets of reads outstanding for a die. -/
def Dev.outstandingBuckets (d : Dev) (die : Nat) : List Nat :=
  d.store.reads.filterMap fun x => match x.item with
    | some i => if d.postDie i = die then some (d.bucketOf i) else none
    | none => none

/-- The bucket next in rotation after one, among those given (R94). -/
def nextBucket (last : Option Nat) (bs : List Nat) : Option Nat :=
  let after := bs.filter fun b => match last with | some l => decide (l < b) | none => true
  let least := fun (l : List Nat) => match l with | [] => none | x :: xs => some (xs.foldl min x)
  match least after with
  | some b => some b
  | none => least bs

/-- The read to issue: the first of R93 in the bucket whose turn it is; a bucket with a read outstanding waits while another with
pending reads has none (R94). -/
def Dev.nextLocal (d : Dev) (die : Nat) : Option (Nat × Pending) :=
  let ps := (d.mappedOn die fun j e => d.isLocal j e.index).map fun p => (d.bucketOf p.item, p)
  let busy := d.outstandingBuckets die
  let idle := ps.filter fun p => !busy.contains p.1
  let ps := if idle.isEmpty then ps else idle
  match nextBucket (d.die die).fetch.lastBucket (ps.map (·.1)) with
  | none => none
  | some b => (firstPending ((ps.filter fun p => p.1 == b).map (·.2))).map fun p => (b, p)

/-- Buffer for an item's stored bytes, taken by the sorting office from the job's quota (R115, R499). -/
def Dev.storedBuffer (d : Dev) (i : ItemRef) (len : Nat) : Dev × Bool :=
  let die := d.postDie i
  d.allocate die { requester := 4 + i.job, parts := [(.stored i, len)], cluster := none, owner := officeUnit die }

/-- LOCAL_READ_ISSUE of a die: once the stored-bytes buffer is held, the read goes to the store cores; a segment the device does not
hold fails the item (R85, R94). -/
def localReadIssueEffect (die : Nat) (_m : Mem) (d : Dev) : Dev :=
  if d.dieUp die = false then d
  else match d.nextLocal die with
  | none => d
  | some (b, p) =>
    let d := d.onFetch die fun f => { f with lastBucket := some b }
    match d.sampleObject p.item, d.entry p.item with
    | some o, some e =>
      let (d, got) := d.storedBuffer p.item e.storedLen
      if got = false then d
      else
        let d := d.onEntry p.item fun e => { e with state := .readIssued }
        let r : NandRead := { number := d.store.nextOp, cell := o.firstCell, item := some p.item, id := o.id, full := e.rereads != 0 }
        d.onStore fun s => { s with reads := s.reads ++ [r], nextOp := s.nextOp + 1 }
    | _, _ => d.itemFail p.item { status := St.SRT_FETCH_REFUSED }

/-- A local read issued by the sorting office. -/
def execLocalReadIssue (die : Nat) (s : State) : Host.Outcome State Fault Refusal :=
  .next (s.put (localReadIssueEffect die s.mem s.dev))

/-- A local read fails its item (R121, R210). -/
def Dev.localFailed (d : Dev) (i : ItemRef) (st : Status) : Dev :=
  d.itemFail i { status := St.SRT_LOCAL_READ, detail := st.toNat }

/-- STORE_READ_COMPLETE: the stored bytes, and the card, have reached DRAM, or the read failed (R210). -/
def storeReadCompleteEffect (i : ItemRef) (ok : Bool) (status : Status) (_m : Mem) (d : Dev) : Dev :=
  let waits := d.store.reads.any fun x => x.item == some i
  if waits = false ∨ (d.entry i).all (fun e => e.state != .readIssued) then d
  else
    let d := d.onStore fun s => { s with reads := s.reads.filter fun x => x.item != some i }
    if ok = false then d.localFailed i status
    else match d.sampleObject i with
      | none => d.localFailed i St.STO_NO_OBJECT
      | some o => match d.readObj o with
        | (.error st, d) => d.localFailed i st
        | (.ok bytes, d) => d.toStored i bytes

/-- A store read of an item completing. -/
def execStoreReadComplete (item : ItemRef) (ok : Bool) (status : Status) (s : State) : Host.Outcome State Fault Refusal :=
  .next (s.put (storeReadCompleteEffect item ok status s.mem s.dev))

/-! ### Fetch requests of the post office (R95, R96) -/

/-- Positions that a request to a peer for a segment may carry: MAPPED ones whose PRIMARY it is, and reissued ones. -/
def Dev.fetchable (d : Dev) (die qpn segment : Nat) : List Pending :=
  let fresh := d.mappedOn die fun j e =>
    !d.isLocal j e.index && j.peerQpn (d.peersOf j e.index).1 == qpn && ((d.segmentOfIndex j e.index).map (·.1)) == some segment
  let again := ((d.die die).fetch.waiting.filter fun w => w.qpn == qpn && w.segment == segment).filterMap fun w =>
    match d.rank w.item.job w.item.rank, d.entry w.item with
    | some r, some e => some (r.pending w.item.job e w.since w.alt)
    | _, _ => none
  fresh ++ again

/-- DIGEST8 of an item's request (Table 3.3). -/
def Dev.digest8 (d : Dev) (i : ItemRef) : Bytes := ((d.job i.job).map fun j => fit 8 j.manifestDigest).getD (zeros 8)

/-- Entries that may travel in one request with the first: same dataset, same ALTERNATE flag. -/
def Dev.travelWith (d : Dev) (x : Pending) (l : List Pending) : List Pending :=
  l.filter fun y => y.alt == x.alt && d.digest8 y.item == d.digest8 x.item

/-- Requests outstanding to a peer, and remote entries outstanding on a die (R95). -/
def FetchDie.requestsTo (f : FetchDie) (qpn : Nat) : Nat := (((f.outstanding.filter fun o => o.qpn == qpn).map (·.request)).eraseDups).length

/-- A fetch request (Table 3.3): entries as (local offset, tag). -/
def fetchRequestBytes (alt : Bool) (digest : Bytes) (segment : Nat) (es : List (Nat × Nat)) (handles : List Nat) : Bytes :=
  ascii "FTCH" ++ le 2 es.length ++ le 2 (b2n alt) ++ digest ++ le 4 segment ++ le 4 handles.length ++
    (es.flatMap fun e => le 8 e.1 ++ le 4 e.2 ++ zeros 4) ++ handles.flatMap (le 4)

/-- Handles to release to a peer in one message, the longest held first (R100). -/
def FetchDie.releasesTo (f : FetchDie) (qpn : Nat) : List HandleBack := (f.releases.filter fun r => r.qpn == qpn).take 64

/-- A request is sent: its entries become READ_ISSUED and wait for the reply, and it carries releases (R95, R100). -/
def Dev.sendFetch (d : Dev) (die qpn segment : Nat) (x : Pending) (ps : List Pending) : Dev :=
  let f := (d.die die).fetch
  let outs : List FetchOut := ps.zipIdx.map fun p =>
    { qpn := qpn, request := f.nextRequest, tag := (f.nextTag + p.2) % 2 ^ 32, item := p.1.item }
  let es := outs.map fun (o : FetchOut) =>
    let off := match d.job o.item.job, d.entry o.item with
      | some j, some e => ((d.segmentOfIndex j e.index).map (·.2)).getD 0
      | _, _ => 0
    (off, o.tag)
  let rel := f.releasesTo qpn
  let msg := fetchRequestBytes x.alt (d.digest8 x.item) segment es (rel.map (·.handle))
  let items := ps.map (·.item)
  let d := items.foldl (fun (d : Dev) i => d.onEntry i fun e => { e with
    state := .readIssued
    remote := { e.remote with first := if e.remote.first = 0 then d.now else e.remote.first } }) d
  let d := d.onFetch die fun f => { f with
    waiting := f.waiting.filter fun w => !items.contains w.item
    outstanding := f.outstanding ++ outs
    nextRequest := f.nextRequest + 1
    nextTag := (f.nextTag + ps.length) % 2 ^ 32
    releases := f.releases.filter fun r => !rel.contains r }
  d.post qpn { op := .send, bytes := msg, purpose := .fetchRequest die }

/-- Positions of a peer whose connection has failed are put off (Table 3.5). -/
def Dev.peerDown (d : Dev) (die : Nat) (ps : List Pending) : Dev :=
  ps.foldl (fun (d : Dev) (p : Pending) =>
    let d := d.onFetch die fun f => { f with waiting := f.waiting.filter fun w => w.item != p.item }
    let d := d.onEntry p.item fun e => { e with
      state := .readIssued
      remote := { e.remote with first := if e.remote.first = 0 then d.now else e.remote.first } }
    d.fetchLost p.item) d

/-- FETCH_REQUEST_SEND: a request to a peer for a segment, when full, after 20 µs, or at once with an urgent entry (R95). -/
def fetchRequestSendEffect (die peer segment : Nat) (_m : Mem) (d : Dev) : Dev :=
  let all := d.fetchable die peer segment
  let f := (d.die die).fetch
  if d.dieUp die = false then d
  else match firstPending all with
  | none => d
  | some x =>
    if d.connected peer = false then d.peerDown die all
    else if 16 ≤ f.requestsTo peer ∨ 65536 ≤ f.outstanding.length then d
    else
      let ps := takePending (min 64 (65536 - f.outstanding.length)) (d.travelWith x all)
      let oldest := (ps.map (·.since)).foldl min x.since
      let d := if ps.length = 64 ∨ ps.any (·.urgent) then d else d.until (oldest + 20000)
      d.sendFetch die peer segment x ps

/-- A fetch request sent to a peer. -/
def execFetchRequestSend (die peer segment : Nat) (s : State) : Host.Outcome State Fault Refusal :=
  .next (s.put (fetchRequestSendEffect die peer segment s.mem s.dev))

/-- RELEASE_ONLY_SEND: 1 ms after a READ's completion its handle is released by a request without entries (R100, R108). -/
def releaseOnlySendEffect (die peer : Nat) (_m : Mem) (d : Dev) : Dev :=
  let rel := (d.die die).fetch.releasesTo peer
  match rel with
  | [] => d
  | r :: rs =>
    if d.dieUp die = false ∨ d.connected peer = false then d
    else
      let d := d.until ((rs.map (·.since)).foldl min r.since + 1000000)
      let d := d.onFetch die fun f => { f with releases := f.releases.filter fun x => !rel.contains x }
      d.post peer { op := .send, bytes := fetchRequestBytes false (zeros 8) 0 [] (rel.map (·.handle)), purpose := .fetchRequest die }

/-- A release-only request. -/
def execReleaseOnlySend (die peer : Nat) (s : State) : Host.Outcome State Fault Refusal :=
  .next (s.put (releaseOnlySendEffect die peer s.mem s.dev))

/-! ### The home node (R97, R98) -/

/-- Staging leases of handles a peer has finished with end (R97, R98). -/
def Dev.endLease (d : Dev) (l : Lease) : Dev :=
  let d := { d with leases := d.leases.filter fun x => x.handle != l.handle }
  d.revoke l.die l.entry none

/-- Layout of a fetch request holds (Table 3.3). -/
def fetchFramed (b : Bytes) : Bool :=
  let c := fld b 4 2
  let r := fld b 20 4
  b.take 4 == ascii "FTCH" && decide (c ≤ 64) && decide (r ≤ 64) && (c != 0 || r != 0) && fld b 6 2 / 2 == 0 &&
    b.length == 24 + 16 * c + 4 * r && (List.range c).all fun i => fld b (36 + 16 * i) 4 == 0

/-- Entries of a request. -/
def fetchEntries (b : Bytes) : List FetchEntry :=
  (List.range (fld b 4 2)).map fun i => { localOffset := fld b (24 + 16 * i) 8, tag := fld b (32 + 16 * i) 4 }

/-- Handles a request releases. -/
def fetchHandles (b : Bytes) : List Nat := (List.range (fld b 20 4)).map fun i => fld b (24 + 16 * fld b 4 2 + 4 * i) 4

/-- FETCH_REQUEST: released buffers are freed, and staging of the entries starts (R97); a malformed message is discarded. -/
def fetchRequestEffect (qpn : Nat) (b : Bytes) (_m : Mem) (d : Dev) : Dev :=
  match d.sendArrived qpn b with
  | (none, d) => d
  | (some _, d) =>
    if fetchFramed b = false then d
    else
      let hs := fetchHandles b
      let d := (d.leases.filter fun l => l.qpn == qpn && hs.contains l.handle).foldl Dev.endLease d
      let es := fetchEntries b
      if es.isEmpty then d
      else
        let x : Staging := { request := d.nextStaging, qpn := qpn, digest8 := cut b 8 8, segment := fld b 16 4, entries := es }
        { d with stagings := d.stagings ++ [x], nextStaging := d.nextStaging + es.length }

/-- A peer's fetch request reaching the home node. -/
def execFetchRequest (qpn : Nat) (payload : Bytes) (s : State) : Host.Outcome State Fault Refusal :=
  .next (s.put (fetchRequestEffect qpn payload s.mem s.dev))

/-- The manifest entry a request entry names; none where it is refused (R97). -/
def Dev.stagedManifest (d : Dev) (x : Staging) (e : FetchEntry) : Option Manifest :=
  match d.datasets.find? fun y => y.closed && fit 8 y.digest == x.digest8 && y.segment == some x.segment with
  | none => none
  | some y => (y.entries[e.localOffset]?).map fun m => { m with franking := y.dirFranking.getD e.localOffset m.franking }

/-- A reply entry (Table 3.4). -/
def replyEntry (tag : Nat) (st : Status) (handle key addr : Nat) (m : Manifest) : Bytes :=
  layout 56 [(0, le 4 tag), (4, le 2 st.toNat), (6, le 2 m.format), (8, le 4 handle), (12, le 4 key), (16, le 8 addr),
    (24, le 8 m.storedLen), (32, le 8 m.origLen), (40, le 4 m.franking), (48, le 8 m.label)]

/-- A reply entry that carries only a status. -/
def refusedEntry (tag : Nat) (st : Status) : Bytes := layout 56 [(0, le 4 tag), (4, le 2 st.toNat)]

/-- Address of a staged sample's buffer: within the stack, wherever Roist's build has it (R493, R636). -/
def stagingAddress (die handle : Nat) : Nat := die * 2 ^ 36 + Config.stagingOffset die handle % 2 ^ 36 / 4096 * 4096

/-- The region of a staging buffer: read permission, scoped to the fetching peer's connection (R346). -/
def stagingRegion (die qpn addr len handle entry gen : Nat) : Region :=
  { die := die, entry := entry, gen := gen, base := addr, len := len, read := true, write := false, atomic := false,
    scope := .conn qpn, staging := some handle }

/-- A sample staged under a handle: buffer taken, bytes placed, region registered for the peer, lease begun; SRT_HOME_BUSY where the
staging pool or the region table has no room (R97, R98, R346). -/
def Dev.stageSample (d : Dev) (x : Staging) (handle tag : Nat) (mf : Manifest) (bytes : Bytes) : Dev × Bytes :=
  let die := qpnDie x.qpn
  let w : BufWait := { requester := 0, parts := [(.staging handle, bytes.length)], cluster := none, owner := officeUnit die }
  let addr := stagingAddress die handle
  if (d.ahead die w && d.grantable die w) = false then (d, refusedEntry tag St.SRT_HOME_BUSY)
  else match d.register die (stagingRegion die x.qpn addr bytes.length handle) with
    | none => (d, refusedEntry tag St.SRT_HOME_BUSY)
    | some (r, d) =>
      let d := (d.grant die w).dramWrite addr bytes
      let l : Lease := { handle := handle, qpn := x.qpn, die := die, entry := r.entry, size := bytes.length, ends := d.now + 500000000 }
      ({ d with leases := d.leases ++ [l] }, replyEntry tag St.SUCCESS handle r.key addr mf)

/-- One entry of a request answered (R97). -/
def Dev.stageEntry (d : Dev) (x : Staging) (i : Nat) (e : FetchEntry) : Dev × Bytes :=
  match d.stagedManifest x e with
  | none => (d, refusedEntry e.tag St.SRT_FETCH_REFUSED)
  | some mf =>
    if d.gate (partitionOf mf.id) = .notReady then (d, refusedEntry e.tag St.STO_NOT_READY)
    else match d.object mf.id with
      | none => (d, refusedEntry e.tag St.STO_NO_OBJECT)
      | some o => match d.readObj o with
        | (.error st, d) => (d, refusedEntry e.tag st)
        | (.ok bytes, d) => d.stageSample x ((x.request + i) % 2 ^ 32) e.tag mf bytes

/-- Every entry of a request answered, in request order. -/
def Dev.stageEntries (d : Dev) (x : Staging) : Nat → List FetchEntry → Dev × Bytes
  | _, [] => (d, [])
  | i, e :: es =>
    let (d, b) := d.stageEntry x i e
    let (d, bs) := d.stageEntries x (i + 1) es
    (d, b ++ bs)

/-- STAGING_COMPLETE: every entry of a request is staged or refused, and the reply is sent (R97). An entry whose partition no die
serves keeps the request waiting (R408). -/
def stagingCompleteEffect (request : Nat) (_m : Mem) (d : Dev) : Dev :=
  match d.stagings.find? fun x => x.request == request with
  | none => d
  | some x =>
    let waits := x.entries.any fun e => (d.stagedManifest x e).any fun mf => d.gate (partitionOf mf.id) == .wait
    if waits ∨ d.dieUp (qpnDie x.qpn) = false then d
    else
      let d := { d with stagings := d.stagings.filter fun y => y.request != request }
      let (d, b) := d.stageEntries x 0 x.entries
      d.post x.qpn { op := .send, bytes := ascii "FTRP" ++ le 2 x.entries.length ++ zeros 2 ++ b, purpose := .fetchReply request }

/-- The home node finishing a request. -/
def execStagingComplete (request : Nat) (s : State) : Host.Outcome State Fault Refusal :=
  .next (s.put (stagingCompleteEffect request s.mem s.dev))

/-- STAGING_LEASE_END: 500 ms after the reply the lease ends, the buffer is freed and the key's generation advances (R98). -/
def stagingLeaseEndEffect (handle : Nat) (_m : Mem) (d : Dev) : Dev :=
  match d.leases.find? fun l => l.handle == handle with
  | none => d
  | some l => (d.until l.ends).endLease l

/-- A staging lease running out. -/
def execStagingLeaseEnd (handle : Nat) (s : State) : Host.Outcome State Fault Refusal :=
  .next (s.put (stagingLeaseEndEffect handle s.mem s.dev))

/-! ### Replies (R100) -/

/-- The READ of a staged sample is posted once its stored-bytes buffer is held. -/
def Dev.postRead (d : Dev) (i : ItemRef) : Dev :=
  match d.job i.job, d.entry i with
  | some j, some e =>
    if e.state ≠ .readIssued ∨ e.remote.staged = false ∨ e.remote.reading then d
    else
      let ps := d.peersOf j e.index
      let qpn := j.peerQpn (if e.remote.toAlternate then ps.2 else ps.1)
      let d := d.onEntry i fun e => { e with remote := { e.remote with reading := true } }
      d.post qpn { op := .read, addr := e.remote.addr, rkey := e.remote.rkey, len := e.storedLen, purpose := .readStored i e.remote.handle }
  | _, _ => d

/-- A reply entry for an item (Table 3.5). -/
def Dev.replyTaken (d : Dev) (i : ItemRef) (b : Bytes) : Dev :=
  let st : Status := BitVec.ofNat 16 (fld b 4 2)
  if (d.entry i).all fun e => e.state != .readIssued then d
  else if st = St.SUCCESS then
    let d := d.onEntry i fun e => { e with
      format := fld b 6 2
      storedLen := fld b 24 8
      origLen := fld b 32 8
      franking := fld b 40 4
      label := fld b 48 8
      remote := { e.remote with handle := fld b 8 4, rkey := fld b 12 4, addr := fld b 16 8, staged := true } }
    let (d, got) := d.storedBuffer i (fld b 24 8)
    if got then d.postRead i else d
  else if st = St.SRT_HOME_BUSY then
    d.onEntry i fun e => { e with remote := { e.remote with retryAt := some (d.now + 100000), busy := true } }
  else d.fetchRefused i st

/-- Die that waits for a reply entry on a connection. -/
def Dev.waitingDie (d : Dev) (qpn tag : Nat) : Option (Nat × FetchOut) :=
  (List.range 8).findSome? fun i =>
    ((d.die i).fetch.outstanding.find? fun o => o.qpn == qpn && o.tag == tag).map fun o => (i, o)

/-- Reply entries in order; one that nothing waits for is discarded (R108). -/
def Dev.replyEntries (d : Dev) (qpn : Nat) (es : List Bytes) : Dev :=
  es.foldl (fun (d : Dev) e => match d.waitingDie qpn (fld e 0 4) with
    | none => d
    | some (die, o) =>
      (d.onFetch die fun f => { f with outstanding := f.outstanding.filter fun x => x != o }).replyTaken o.item e) d

/-- FETCH_REPLY: the outcomes of Table 3.5, entry by entry. -/
def fetchReplyEffect (qpn : Nat) (b : Bytes) (_m : Mem) (d : Dev) : Dev :=
  match d.sendArrived qpn b with
  | (none, d) => d
  | (some _, d) =>
    if b.take 4 = ascii "FTRP" ∧ b.length = 8 + 56 * fld b 4 2 then d.replyEntries qpn (rowsOf 56 (b.drop 8)) else d

/-- A home node's reply reaching the post office. -/
def execFetchReply (qpn : Nat) (payload : Bytes) (s : State) : Host.Outcome State Fault Refusal :=
  .next (s.put (fetchReplyEffect qpn payload s.mem s.dev))

/-- HOME_BUSY_RETRY: 100 µs after SRT_HOME_BUSY the fetch is reissued to the same peer (Table 3.5). -/
def homeBusyRetryEffect (i : ItemRef) (_m : Mem) (d : Dev) : Dev :=
  match d.entry i with
  | none => d
  | some e => match e.remote.retryAt with
    | none => d
    | some t => if e.remote.busy ∧ e.state = .readIssued then (d.until t).refetch i e.remote.toAlternate else d

/-- A fetch reissued after a busy home node. -/
def execHomeBusyRetry (item : ItemRef) (s : State) : Host.Outcome State Fault Refusal :=
  .next (s.put (homeBusyRetryEffect item s.mem s.dev))

/-- PRIMARY_RETRY: every 10 ms a position whose peer cannot be reached is reissued to PRIMARY (Table 3.5). -/
def primaryRetryEffect (i : ItemRef) (_m : Mem) (d : Dev) : Dev :=
  match d.entry i with
  | none => d
  | some e => match e.remote.retryAt with
    | none => d
    | some t => if e.remote.busy = false ∧ e.state = .readIssued then (d.until t).refetch i false else d

/-- A fetch reissued to PRIMARY. -/
def execPrimaryRetry (item : ItemRef) (s : State) : Host.Outcome State Fault Refusal :=
  .next (s.put (primaryRetryEffect item s.mem s.dev))

/-- FETCH_DEADLINE: 2 s after its first request a position still unstaged fails (R100). -/
def fetchDeadlineEffect (i : ItemRef) (_m : Mem) (d : Dev) : Dev :=
  match d.job i.job, d.entry i with
  | some j, some e =>
    if e.state ≠ .readIssued ∨ d.isLocal j e.index ∨ e.remote.staged then d
    else ((d.until (e.remote.first + 2 * second)).dropFetch i).itemFail i { status := St.SRT_HOME_UNREACHABLE }
  | _, _ => d

/-- A position's fetch running out of time. -/
def execFetchDeadline (item : ItemRef) (s : State) : Host.Outcome State Fault Refusal :=
  .next (s.put (fetchDeadlineEffect item s.mem s.dev))

/-! ### BUFFER_GRANT (R497) -/

/-- Items whose stored-bytes buffers a waiter asks for. -/
def BufWait.storedItems (w : BufWait) : List ItemRef := w.parts.filterMap fun p => match p.1 with
  | .stored i => some i
  | _ => none

/-- BUFFER_GRANT: the next waiter of a stack gets its buffers, and a staged sample that waited for them is read (R100, R497). -/
def bufferGrantEffect (stack : Nat) (_m : Mem) (d : Dev) : Dev :=
  match d.nextWaiter stack with
  | none => d
  | some w => w.storedItems.foldl Dev.postRead (d.grantNext stack)

/-- A waiting buffer allocation granted in arrival and reserve order. -/
def execBufferGrant (stack : Nat) (s : State) : Host.Outcome State Fault Refusal :=
  .next (s.put (bufferGrantEffect stack s.mem s.dev))

end Sys2Proof.Machine
end

