-- ==== Sys2Proof/Machine/Streams.lean ====
section
/-! DEFINITION. Text and grammar streams (8, R254 to R278): opened and placed, requests taken, served and answered, closed. -/

namespace Sys2Proof.Machine

open Sys2Proof

/-! ### Placement (R264) -/

/-- Every logical core, in the order of die, cluster and core. -/
def allCores : List CoreRef :=
  (List.range 8).flatMap fun i => (List.range 8).flatMap fun c => (List.range 8).map fun k => { die := i, cluster := c, core := k }

/-- The TXE of a core serves: the core runs and the engine is in service (R35, R266). -/
def Dev.txeRuns (d : Dev) (c : CoreRef) : Bool :=
  d.coreRuns c && !((d.core c).deadEngines.contains 5) && !(d.isFenced (d.engineUnit c 5)) && !(d.die c.die).idle

/-- Bounded streams placed on a core. -/
def Dev.boundedOn (d : Dev) (c : CoreRef) : List Stream := d.streams.filter fun s => s.bounded && s.home == c

/-- Sum of STEP_NS over a core's bounded streams, and of RATE × STEP_NS. -/
def Dev.stepSum (d : Dev) (c : CoreRef) : Nat := ((d.boundedOn c).map (·.stepNs)).sum
def Dev.rateSum (d : Dev) (c : CoreRef) : Nat := ((d.boundedOn c).map fun s => s.rate * s.stepNs).sum

/-- The first core of least measure. -/
def leastBy (f : CoreRef → Nat) : List CoreRef → Option CoreRef
  | [] => none
  | c :: r => match leastBy f r with
    | some x => if f x < f c then some x else some c
    | none => some c

/-- A bounded stream's core; relaxed ignores the sums (R264, R266). -/
def Dev.placeBounded (d : Dev) (stepNs rate : Nat) (relaxed : Bool) : Option CoreRef :=
  leastBy d.stepSum (allCores.filter fun c => d.txeRuns c &&
    (relaxed || (decide (d.stepSum c + stepNs ≤ 34000) && decide (d.rateSum c + rate * stepNs ≤ 800000000))))

/-- The core of a shared or text stream: the fewest streams (R264). -/
def Dev.placeShared (d : Dev) : Option CoreRef :=
  leastBy (fun c => d.streams.countP fun s => s.home == c) (allCores.filter d.txeRuns)

/-! ### STREAM_OPEN and STREAM_CLOSE -/

/-- Resident vocabulary of a grammar. -/
def Dev.vocabOf (d : Dev) (g : Grammar) : Option Voc := (d.vocab (gramOf g.image).vocab).map fun v => vocOf v.image

/-- Slot a mask of a grammar needs (R258). -/
def Dev.slotNeeded (d : Dev) (g : Grammar) : Nat := match d.vocabOf g with
  | some v => 32 + 4 * ((v.v + 31) / 32)
  | none => 32

/-- Fields of STREAM_OPEN lie in their ranges (R258). -/
def Dev.streamFieldsOk (d : Dev) (b : Bytes) : Bool :=
  let slot := fld b 28 4
  if fld b 0 1 = 1 then decide (32 ≤ slot)
  else if fld b 0 1 = 2 then
    decide (fld b 1 1 ≤ 1) && decide (fld b 2 1 ≤ 1) && decide (1 ≤ fld b 12 4 ∧ fld b 12 4 ≤ 25000) &&
      match d.grammar (fld b 4 4) with
      | some g => decide (d.slotNeeded g ≤ slot)
      | none => false
  else false

/-- First stream number not in use (R258). -/
def Dev.freeStream (d : Dev) : Option Nat := (List.range 8192).find? fun n => (d.stream n).isNone

/-- Configuration a stream starts in, and whether it is a dead end (R270, R273). -/
def Dev.grammarStart (d : Dev) (g : Option Grammar) : GConf × Bool :=
  match g with
  | none => ({ state := 0, stack := [] }, false)
  | some g =>
    let c := (gramOf g.image).init
    (c, (d.vocabOf g).any fun v => ((gramOf g.image).mask v c).isEmpty)

/-- STREAM_OPEN (R258, R264). -/
def streamOpenRun (p : Nat) (b : Bytes) (_m : Mem) (d : Dev) : Dev :=
  let grammar := fld b 0 1 == 2
  let bounded := grammar && fld b 1 1 == 1
  let ns := if grammar then ((d.grammar (fld b 4 4)).map (·.stepNs)).getD 0 else 0
  if d.streamFieldsOk b = false then d.answer p (fail St.TOK_REQUEST_BAD)
  else if d.connected (fld b 8 4) = false then d.answer p (fail St.CUR_NOT_CONNECTED)
  else match d.freeStream with
    | none => d.answer p (fail St.TOK_STREAM_LIMIT)
    | some n =>
      match (if bounded then d.placeBounded ns (fld b 12 4) false else d.placeShared) with
      | none => d.answer p (fail St.GRM_NO_CAPACITY)
      | some c =>
        let start := d.grammarStart (if grammar then d.grammar (fld b 4 4) else none)
        let s : Stream :=
          { number := n, kind := fld b 0 1, grammar := if grammar then fld b 4 4 else 0, qpn := fld b 8 4, respAddr := fld b 16 8,
            respKey := fld b 24 4, slotSize := fld b 28 4, bounded := bounded, rate := fld b 12 4, bitmap := fld b 2 1 == 1,
            stepNs := ns, home := c, conf := start.1, dead := start.2, deadEnds := b2n start.2 }
        ({ d with streams := d.streams ++ [s] } : Dev).answer p
          { body := le 4 n ++ le 4 ns ++ le 1 c.die ++ le 1 c.cluster ++ le 1 c.core }

/-- The command of opcode 0x0504. -/
def streamOpenOp : PghOp where
  opcode := 0x0504
  used := [(0, 1), (1, 1), (2, 1), (4, 4), (8, 4), (12, 4), (16, 8), (24, 4), (28, 4)]
  handles := fun b d => fld b 0 1 != 2 || (d.grammar (fld b 4 4)).isSome
  run := streamOpenRun

/-- STREAM_OPEN: a stream opened and placed. -/
def execStreamOpen (p : Nat) (frame : Bytes) (s : State) : Host.Outcome State Fault Refusal :=
  .next (s.put (streamOpenOp.ring p frame s.mem s.dev))

/-- Counters STREAM_CLOSE returns, in row order of Table 8.9. -/
def Stream.counters (s : Stream) : Bytes :=
  [s.invalidUnits, s.steps, s.lateMasks, s.deadEnds, s.rejected, s.overflow, s.refused, s.moves].flatMap (le 8)

/-- Die whose counters a stream's add to: that of its TXE (R278). -/
def Stream.die (s : Stream) : Nat := s.home.die

/-- The stream is released; its counters stay in its die's sums (R267, R278). -/
def Dev.releaseStream (d : Dev) (s : Stream) : Dev :=
  ({ d with streams := d.streams.filter fun x => x.number != s.number } : Dev).onCtrs s.die fun c => { c with
    tokInvalidUnits := c.tokInvalidUnits + s.invalidUnits
    steps := c.steps + s.steps
    lateMasks := c.lateMasks + s.lateMasks
    deadEnds := c.deadEnds + s.deadEnds
    rejectedCommits := c.rejectedCommits + s.rejected
    streamOverflow := c.streamOverflow + s.overflow
    respRefused := c.respRefused + s.refused
    streamMoves := c.streamMoves + s.moves }

/-- A closing stream with no request in progress is released and STREAM_CLOSE answers (R267). -/
def Dev.closeCheck (d : Dev) (n : Nat) : Dev :=
  match d.stream n with
  | none => d
  | some s =>
    match s.closing with
    | some p => if s.running.isNone then (d.releaseStream s).answer p { body := s.counters } else d
    | none => d

/-- STREAM_CLOSE (R267): the waiting request is discarded, the one in progress completes first. A stream already closing is not
open. -/
def streamCloseRun (p : Nat) (b : Bytes) (_m : Mem) (d : Dev) : Dev :=
  (d.onStream (fld b 0 4) fun s => { s with waiting := none, closing := some p }).closeCheck (fld b 0 4)

/-- The command of opcode 0x0505. -/
def streamCloseOp : PghOp where
  opcode := 0x0505
  used := [(0, 4)]
  handles := fun b d => (d.stream (fld b 0 4)).any fun s => s.closing.isNone
  run := streamCloseRun

/-- STREAM_CLOSE: a stream closed, its counters returned. -/
def execStreamClose (p : Nat) (frame : Bytes) (s : State) : Host.Outcome State Fault Refusal :=
  .next (s.put (streamCloseOp.ring p frame s.mem s.dev))

/-! ### Responses (R261) -/

/-- What a request is answered with. -/
structure Reply where
  status : Status := St.SUCCESS
  flags : Nat := 0
  body : Bytes := []
  step : Nat := 0
  deriving DecidableEq, Repr, Inhabited

/-- The response header (Table 8.5) and the body. -/
def replyBytes (op stream seq : Nat) (r : Reply) : Bytes :=
  layout 32 [(0, ascii "TXRS"), (4, le 2 1), (6, le 2 op), (8, le 4 stream), (12, le 4 seq), (16, le 2 r.status.toNat),
    (18, le 2 r.flags), (20, le 4 r.body.length), (24, le 8 r.step)] ++ r.body

/-- A response goes to its slot: body first, header last (R261). The immediate of a FLAG_IMM connection is left open. -/
def Dev.writeReply (d : Dev) (s : Stream) (seq : Nat) (bytes : Bytes) : Dev :=
  let at_ := s.respAddr + seq % 2 * s.slotSize
  ({ d with free := d.free + 1 } : Dev).postFlagged s.qpn
    { addr := at_ + 32, rkey := s.respKey, data := bytes.drop 32, dataFor := .streamBody s.number seq, flagAddr := at_,
      flag := bytes.take 32, flagFor := .streamHeader s.number seq, imm := (Config.freeWord d.free).toNat }

/-- A request refused on arrival is answered and nothing else changes (R259, R260). -/
def Dev.refuseRequest (d : Dev) (s : Stream) (op seq : Nat) (st : Status) : Dev :=
  d.writeReply s seq (replyBytes op s.number seq { status := st, step := s.committed })

/-! ### STREAM_REQUEST (R259, R260, R262) -/

/-- The SEQ after a sequence number (R260). -/
def seqAfter (n : Nat) : Nat := if n = 0xFFFFFFFF then 1 else n + 1

/-- Header, flags and payload of a request hold (Table 8.4). -/
def requestOk (b : Bytes) : Bool :=
  let op := fld b 6 2
  let len := fld b 16 4
  b.take 4 == ascii "TXRQ" && fld b 4 2 == 1 && decide (1 ≤ op ∧ op ≤ 3) && len + 32 == b.length && fld b 20 2 / 32 == 0 &&
    (cut b 24 8).all (· == 0) && (op == 1 || len % 4 == 0) && (op != 3 || (decide (len ≤ 64) && decide (fld b 23 1 ≤ 16)))

/-- A request as it waits. -/
def requestOf (b : Bytes) (now : Nat) (alone : Bool) : StreamReq :=
  { op := fld b 6 2, seq := fld b 12 4, flags := fld b 20 2, vocab := fld b 22 1, rollback := fld b 23 1, payload := b.drop 32,
    at_ := now, alone := alone }

/-- OP is allowed for a KIND (Table 8.4). -/
def opAllowed (kind op : Nat) : Bool := if kind = 1 then op == 1 || op == 2 else op == 3

/-- A stream's request taken under R260 and R262. -/
def Dev.takeRequest (d : Dev) (s : Stream) (b : Bytes) : Dev :=
  let seq := fld b 12 4
  let inDev := s.running.toList ++ s.waiting.toList
  if requestOk b = false then d.refuseRequest s (fld b 6 2) seq St.TOK_REQUEST_BAD
  else if seq = seqAfter s.lastAccepted then
    if 2 ≤ inDev.length then d.onStream s.number fun s => { s with overflow := s.overflow + 1 }
    else
      let r := requestOf b d.now inDev.isEmpty
      d.onStream s.number fun s => { s with
        lastAccepted := seq
        running := if s.running.isNone then some r else s.running
        waiting := if s.running.isNone then s.waiting else some r }
  else if inDev.any fun r => r.seq == seq then d
  else if seq = s.lastDone ∧ s.lastResponse ≠ [] then d.writeReply s seq s.lastResponse
  else d.refuseRequest s (fld b 6 2) seq St.TOK_STREAM_SEQ

/-- A request for no open stream of its connection is discarded and counted (R259). -/
def Dev.foreignRequest (d : Dev) (qpn : Nat) : Dev := d.onCtrs (qpnDie qpn) fun c => { c with streamForeign := c.streamForeign + 1 }

/-- STREAM_REQUEST: a SEND carrying a stream request (R259, R260, R262). -/
def streamRequestEffect (qpn : Nat) (payload : Bytes) (_m : Mem) (d : Dev) : Dev :=
  match d.sendArrived qpn payload with
  | (none, d) => d
  | (some _, d) =>
    if payload.length < 32 then d.foreignRequest qpn
    else match d.stream (fld payload 8 4) with
      | none => d.foreignRequest qpn
      | some s => if s.qpn ≠ qpn ∨ s.closing.isSome then d.foreignRequest qpn else d.takeRequest s payload

/-- A stream request arriving. -/
def execStreamRequest (qpn : Nat) (payload : Bytes) (s : State) : Host.Outcome State Fault Refusal :=
  .next (s.put (streamRequestEffect qpn payload s.mem s.dev))

/-! ### Serving a request (R263) -/

/-- Another request of the stream's TXE comes first: it arrived earlier, in the same class or the bounded one (R263). -/
def Dev.servedLater (d : Dev) (s : Stream) (r : StreamReq) : Bool :=
  d.streams.any fun x => x.number != s.number && x.home == s.home && (x.bounded || !s.bounded) &&
    x.running.any fun y => decide (y.at_ < r.at_)

/-- The request the stream's TXE serves now for an operation, when its turn has come. -/
def Dev.serving (d : Dev) (n op : Nat) : Option (Stream × StreamReq) :=
  match d.stream n with
  | none => none
  | some s =>
    match s.running with
    | none => none
    | some r => if r.op = op ∧ d.txeRuns s.home ∧ d.servedLater s r = false then some (s, r) else none

/-- The response is longer than its slot takes (R261). -/
def tooLong (s : Stream) (r : Reply) : Bool := decide (s.slotSize - 32 < r.body.length)

/-- A request completes: its response is written and kept, the waiting request follows, and a closing stream is released
(R260 to R262, R267). -/
def Dev.completeReq (d : Dev) (s : Stream) (r : StreamReq) (x : Reply) : Dev :=
  let bytes := replyBytes r.op s.number r.seq x
  let d := d.writeReply s r.seq bytes
  let d := d.onStream s.number fun s => { s with lastDone := r.seq, lastResponse := bytes, running := s.waiting, waiting := none }
  d.closeCheck s.number

/-- A request answered with a status and no other effect (R260). -/
def Dev.failReq (d : Dev) (s : Stream) (r : StreamReq) (st : Status) (body : Bytes := []) : Dev :=
  d.completeReq s r { status := st, body := body, step := s.committed }

/-- A request that succeeded: the stream changed by f unless its response does not fit (R261). -/
def Dev.passReq (d : Dev) (s : Stream) (r : StreamReq) (x : Reply) (f : Stream → Stream) : Dev :=
  if tooLong s x then d.failReq s r St.TOK_RESPONSE_SPACE
  else (d.onStream s.number f).completeReq s r x

/-! ### STREAM_TOKENISE and STREAM_DETOKENISE (R254 to R257) -/

/-- STREAM_TOKENISE on a resident slot. -/
def Dev.tokeniseReq (d : Dev) (s : Stream) (r : StreamReq) (v : Voc) : Dev :=
  let parse := bit r.flags 3
  let final := bit r.flags 0
  if s.tokCtx ≠ [] ∧ (s.tokSlot ≠ r.vocab ∨ s.tokSpecial ≠ parse) then d.failReq s r St.TOK_REQUEST_BAD
  else
    let o := v.tokens parse final (s.tokCtx ++ r.payload)
    let ids := (v.finish (bit r.flags 1 && s.tokCtx.isEmpty) (bit r.flags 2 && final) 0 o.ids).1
    d.passReq s r { flags := b2n (o.invalid != 0) + 2 * b2n (!o.held.isEmpty), body := ids.flatMap (le 4) } fun s =>
      { s with tokCtx := o.held, tokSlot := r.vocab, tokSpecial := parse, invalidUnits := s.invalidUnits + o.invalid }

/-- STREAM_TOKENISE: OP 1 served (R244 to R249, R254, R255, R261). -/
def streamTokeniseEffect (stream : Nat) (_m : Mem) (d : Dev) : Dev :=
  match d.serving stream 1 with
  | none => d
  | some (s, r) =>
    if opAllowed s.kind 1 = false then d.failReq s r St.TOK_STREAM_KIND
    else match d.vocabAt r.vocab with
      | none => d.failReq s r St.TOK_VOCAB_SLOT
      | some v => d.tokeniseReq s r (vocOf v.image)

/-- A text stream's TOKENISE request served by its TXE. -/
def execStreamTokenise (stream : Nat) (s : State) : Host.Outcome State Fault Refusal :=
  .next (s.put (streamTokeniseEffect stream s.mem s.dev))

/-- STREAM_DETOKENISE on a resident slot. -/
def Dev.detokeniseReq (d : Dev) (s : Stream) (r : StreamReq) (v : Voc) : Dev :=
  let ids := idsOf (r.payload.length + 1) r.payload
  if ids.any fun t => decide (v.v ≤ t) then d.failReq s r St.TOK_TOKEN_RANGE
  else
    let (out, inv, held) := renderText v.replace (bit r.flags 0) (s.detCtx ++ v.render (bit r.flags 4) ids)
    d.passReq s r { flags := b2n (inv != 0) + 2 * b2n (!held.isEmpty), body := out } fun s =>
      { s with detCtx := held, invalidUnits := s.invalidUnits + inv }

/-- STREAM_DETOKENISE: OP 2 served (R256, R257, R261). -/
def streamDetokeniseEffect (stream : Nat) (_m : Mem) (d : Dev) : Dev :=
  match d.serving stream 2 with
  | none => d
  | some (s, r) =>
    if opAllowed s.kind 2 = false then d.failReq s r St.TOK_STREAM_KIND
    else match d.vocabAt r.vocab with
      | none => d.failReq s r St.TOK_VOCAB_SLOT
      | some v => d.detokeniseReq s r (vocOf v.image)

/-- A text stream's DETOKENISE request served by its TXE. -/
def execStreamDetokenise (stream : Nat) (s : State) : Host.Outcome State Fault Refusal :=
  .next (s.put (streamDetokeniseEffect stream s.mem s.dev))

/-! ### STREAM_COMMIT (R269 to R276) -/

/-- The part of a stream a COMMIT changes. -/
structure GramPos where
  conf : GConf
  history : List (GConf × Bool × Bool × Nat)
  dead : Bool
  finished : Bool
  committed : Nat
  deriving DecidableEq, Repr, Inhabited

/-- That part of a stream. -/
def Stream.pos (s : Stream) : GramPos :=
  { conf := s.conf, history := s.history, dead := s.dead, finished := s.finished, committed := s.committed }

/-- ROLLBACK tokens withdrawn; none beyond the history (R271). -/
def GramPos.withdraw (x : GramPos) : Nat → Option GramPos
  | 0 => some x
  | n + 1 => match x.history with
    | [] => none
    | (c, dd, f, _) :: h => ({ conf := c, history := h, dead := dd, finished := f, committed := x.committed - 1 } : GramPos).withdraw n

/-- A token is allowed where a stream stands: END_TOKEN counts as allowed in a dead end, and nothing is once finished (R270,
R273, R274). -/
def GramPos.allows (x : GramPos) (g : Gram) (v : Voc) (t : Nat) : Bool :=
  !x.finished && (if x.dead then t == g.endTok else g.allowed v x.conf t)

/-- One allowed token committed; a configuration with no token allowed is a dead end (R271, R273, R274). -/
def GramPos.commit (x : GramPos) (g : Gram) (v : Voc) (t : Nat) : GramPos :=
  let h := ((x.conf, x.dead, x.finished, (v.str t).length) :: x.history).take 16
  if t = g.endTok then { x with history := h, finished := true, committed := x.committed + 1 }
  else
    let c := (g.run (v.str t) x.conf).getD x.conf
    { conf := c, history := h, dead := (g.mask v c).isEmpty, finished := false, committed := x.committed + 1 }

/-- Identifiers applied in order: the position after them, or the index of the first not allowed. -/
def GramPos.apply (x : GramPos) (g : Gram) (v : Voc) : Nat → List Nat → Except Nat GramPos
  | _, [] => .ok x
  | i, t :: ts => if x.allows g v t then (x.commit g v t).apply g v (i + 1) ts else .error i

/-- The response of a COMMIT that was applied (R271 to R274). -/
def GramPos.reply (x : GramPos) (g : Gram) (v : Voc) (bitmap : Bool) : Reply :=
  if x.finished then { flags := 4 * b2n x.dead + 16, step := x.committed }
  else
    let m := if x.dead then [g.endTok] else g.mask v x.conf
    let mb := maskBytes v.v bitmap m
    { status := if x.dead then St.GRM_DEAD_END else St.SUCCESS,
      flags := 4 * b2n x.dead + 8 * b2n (!x.dead && g.endAllowed x.conf) + 32 * b2n mb.2, body := mb.1, step := x.committed }

/-- Bytes of the tokens a COMMIT withdraws and commits are at most 256 (R276). -/
def Stream.boundedBytes (s : Stream) (v : Voc) (r : StreamReq) (ids : List Nat) : Bool :=
  decide (((s.history.take r.rollback).map fun x => x.2.2.2).sum + (ids.map fun t => (v.str t).length).sum ≤ 256)

/-- A COMMIT applied to its stream: STEPS counts it, DEAD_ENDS a dead end entered, and the bound of R276 is noted. -/
def Stream.committedTo (s : Stream) (x : GramPos) (bound : Option (Nat × Nat)) : Stream :=
  { s with
    conf := x.conf, history := x.history, dead := x.dead, finished := x.finished, committed := x.committed
    steps := s.steps + 1
    deadEnds := s.deadEnds + b2n (x.dead && !s.dead)
    due := bound }

/-- STREAM_COMMIT on a grammar and its vocabulary (R271). -/
def Dev.commitReq (d : Dev) (s : Stream) (r : StreamReq) (g : Gram) (v : Voc) : Dev :=
  let ids := idsOf (r.payload.length + 1) r.payload
  match s.pos.withdraw r.rollback with
  | none => d.failReq s r St.GRM_ROLLBACK_RANGE
  | some x =>
    if ids.any fun t => decide (v.v ≤ t) then d.failReq s r St.TOK_TOKEN_RANGE
    else if x.finished ∧ ids ≠ [] then d.failReq s r St.GRM_FINISHED
    else match x.apply g v 0 ids with
      | .error i =>
        (d.onStream s.number fun s => { s with rejected := s.rejected + 1 }).failReq s r St.GRM_TOKEN_REJECTED (le 4 i)
      | .ok y =>
        let bound := if s.bounded && r.alone && s.boundedBytes v r ids then some (r.seq, r.at_ + 40000) else none
        d.passReq s r (y.reply g v s.bitmap) fun s => s.committedTo y bound

/-- STREAM_COMMIT: OP 3 served (R269 to R276). -/
def streamCommitEffect (stream : Nat) (_m : Mem) (d : Dev) : Dev :=
  match d.serving stream 3 with
  | none => d
  | some (s, r) =>
    if opAllowed s.kind 3 = false then d.failReq s r St.TOK_STREAM_KIND
    else match d.grammar s.grammar with
      | none => d
      | some g => match d.vocabOf g with
        | none => d
        | some v => d.commitReq s r (gramOf g.image) v

/-- A grammar stream's COMMIT request served by its TXE. -/
def execStreamCommit (stream : Nat) (s : State) : Host.Outcome State Fault Refusal :=
  .next (s.put (streamCommitEffect stream s.mem s.dev))

end Sys2Proof.Machine
end

