-- ==== Sys2Proof/Machine/Admission.lean ====
section
/-! DEFINITION. The tick: boundaries, sack formation, spill, and the clock's changes (R24 to R31, R124 to R132, R299, R563, R607). -/

namespace Sys2Proof.Machine

open Sys2Proof

/-! ### Time within a tick -/

/-- Length of the running tick, ns (R27, R29). -/
def Dev.tickNs (d : Dev) : Nat := d.clk.period * 10

/-- L of R130: a quarter of the period, at most 100 µs. -/
def Dev.formNs (d : Dev) : Nat := min (d.tickNs / 4) 100000

/-! ### Budgets (R124, R125, R132) -/

/-- Engine slots of a kind (Table 18.1): kinds CDE, IDE, VTE, TXE, PKE, SEQ are 0 to 5. -/
def slotsOfKind (kind : Nat) : List Nat := [[0, 1], [4], [2, 3], [5], [6], [9]].getD kind []

/-- An engine slot of a core serves: it is neither out of service nor fenced (R35, R528). -/
def Dev.engineUp (d : Dev) (c : CoreRef) (slot : Nat) : Bool :=
  d.coreRuns c && !((d.core c).deadEngines.contains slot) && !(d.isFenced (d.engineUnit c slot))

/-- Active engines of a kind in a core; the sequencer counts as one (R125). -/
def Dev.enginesOf (d : Dev) (c : CoreRef) (kind : Nat) : Nat :=
  if kind = 5 then 1 else ((slotsOfKind kind).filter (d.engineUp c)).length

/-- n engines over t ns at the sort clock, as ns at 1.6 GHz (R125, R132). -/
def Dev.scaled (d : Dev) (n t : Nat) : Nat := n * t * d.pwr.sortMhz / 1600

/-- Budget of n engines in one tick (R125). -/
def Dev.fullBudget (d : Dev) (n : Nat) : Nat := n * d.tickNs * d.pwr.admitFill * d.pwr.sortMhz / (256 * 1600)

/-- Estimates of an item by kind (R124). -/
def Dev.estimates (d : Dev) (i : ItemRef) : List Nat :=
  match d.job i.job, d.entry i with
  | some j, some e => (j.routeOfEntry i.rank e).estimate e.format e.storedLen e.origLen
  | _, _ => List.replicate 6 0

/-- Remaining cost of an item by kind: max(e − a, e/4) (R132). -/
def Dev.remaining (d : Dev) (i : ItemRef) : List Nat :=
  let ran := ((d.entry i).map (·.ran)).getD []
  (d.estimates i).zipIdx.map fun p => max (p.1 - ran.getD p.2 0) (p.1 / 4)

/-- Items a core has not finished. -/
def Core.unfinished (x : Core) : List ItemRef := x.flight ++ x.sack.filter fun i => !x.flight.contains i

/-- Carryover of a core by kind (R132). -/
def Dev.carryover (d : Dev) (c : CoreRef) : List Nat :=
  let rem := (d.core c).unfinished.map d.remaining
  (List.range 6).map fun k => (rem.map fun r => r.getD k 0).sum - d.scaled (d.enginesOf c k) d.formNs

/-- Budgets of a core for the forming tick (R125). -/
def Dev.budgets (d : Dev) (c : CoreRef) : List Nat :=
  (List.range 6).map fun k => d.fullBudget (d.enginesOf c k) - (d.carryover c).getD k 0

/-- Nominal engines of a kind in a core. -/
def nominalEngines (kind : Nat) : Nat := if kind = 0 ∨ kind = 2 then 2 else 1

/-- The item exceeds one core's full budget for some kind (R128). -/
def Dev.isLong (d : Dev) (est : List Nat) : Bool := est.zipIdx.any fun p => decide (d.fullBudget (nominalEngines p.2) < p.1)

/-! ### Cores that take items (R126, R128) -/

/-- The core of a logical number as a physical unit (Table 18.1). -/
def Dev.coreUnit (d : Dev) (c : CoreRef) : UnitRef :=
  let p := (d.physical c).getD (0xF, 0xF)
  { kind := 2, die := c.die, cluster := p.1, core := p.2 }

/-- Cores of a die that take items: running, their route sequencer in service, not fenced, the die serving work (R528, R547). -/
def Dev.dieCores (d : Dev) (die : Nat) : List CoreRef :=
  allCores.filter fun c => c.die == die && d.engineUp c 9 && !(d.die die).idle && !(d.isFenced (d.coreUnit c))

/-- Order of cores: most budget left for a kind first, then logical number (R126). -/
def insertCore (key : CoreRef → Nat) (c : CoreRef) : List CoreRef → List CoreRef
  | [] => [c]
  | x :: xs => if key x < key c then c :: x :: xs else x :: insertCore key c xs

/-- Cores in the order an item is offered to them. -/
def Dev.offerOrder (d : Dev) (die kind : Nat) : List CoreRef :=
  (d.dieCores die).foldl (fun l c => insertCore (fun c => (d.core c).budget.getD kind 0) c l) []

/-- An ordinary item fits a core: no long item keeps it, its sack has room, every budget suffices (R126, R128). -/
def Core.fits (x : Core) (est : List Nat) : Bool :=
  x.long.isNone && decide (x.nextSack.length < 1024) && est.zipIdx.all fun p => decide (p.1 ≤ x.budget.getD p.2 0)

/-- A core of the cluster holds a long item (R128). -/
def Dev.longInCluster (d : Dev) (c : CoreRef) : Bool :=
  (List.range 8).any fun k => (d.core { c with core := k }).long.isSome

/-- A long item fits a core: its sack is empty, it has no carryover, and no core of the cluster holds another (R128). -/
def Dev.fitsLong (d : Dev) (c : CoreRef) : Bool :=
  let x := d.core c
  x.nextSack.isEmpty && (d.carryover c).all (· == 0) && !d.longInCluster c

/-- The core an item goes to, if one takes it. -/
def Dev.coreFor (d : Dev) (die : Nat) (est : List Nat) : Option CoreRef :=
  let order := d.offerOrder die (dominant est)
  if d.isLong est then order.find? d.fitsLong else order.find? fun c => (d.core c).fits est

/-- The item is admitted to a core's forming sack (R126 to R128, R141, R535). -/
def Dev.takeOn (d : Dev) (i : ItemRef) (c : CoreRef) (est : List Nat) : Dev :=
  match d.job i.job, d.entry i with
  | some j, some e =>
    let long := d.isLong est
    let d := d.onCore c fun x => { x with
      nextSack := x.nextSack ++ [i]
      budget := x.budget.zipIdx.map fun p => p.1 - est.getD p.2 0
      long := if long then some i else x.long }
    let d := d.onEntry i fun e => { e with state := .admitted, core := some c, begun := true, stamp := j.stampAt i.rank e.step }
    d.onJobCtrs i.job fun k => { k with
      admitted := k.admitted + 1
      longItems := k.longItems + b2n long
      spilled := k.spilled + b2n (c.die != d.postDie i)
      itemsStarted := k.itemsStarted + b2n (!e.begun)
      itemsInFlight := k.itemsInFlight + b2n (!e.begun) }
  | _, _ => d

/-! ### Candidates (R126, R129, R299) -/

/-- Bytes of the staging area of a packed parcel: SEQ_LEN ids for every slot (DEDUCED from R289; log entry 27). -/
def stagingArea (r : RouteBin) (b : Nat) : Nat := match r.packer with
  | some s => let t := r.decl s; b * t.sdims.getD 0 1 * ((fmtBits t.dtype + 7) / 8)
  | none => 0

/-- The rank's items may be admitted: its job delivers, it is neither dormant nor stopped. -/
def Rank.admits (r : Rank) : Bool := !r.dormant && !r.stopped

/-- A step lies before the seal's stop and before what a pending commit holds back (R57, R129). -/
def Job.admitsStep (j : Job) (step : Nat) : Bool := decide (step < j.mapEnd) && j.heldFrom.all fun s => decide (step < s)

/-- STORED entries of a rank that may be candidates but for their parcel's buffer. -/
def Rank.ready (r : Rank) (j : Job) : List Entry := r.window.filter fun e => e.state == .stored && j.admitsStep e.step

/-- The parcel buffer of a batch is taken, with its staging area (R299). -/
def Dev.parcelBuffer (d : Dev) (j : Job) (r : Rank) (step : Nat) : Dev × Bool :=
  let route := routeOf (j.confAt r.rank step).route
  d.allocate r.die { requester := 4 + j.handle, parts := [(.parcel j.handle r.rank step, route.parcelLength j.b + stagingArea route j.b)],
                     cluster := none, owner := officeUnit r.die }

/-- Parcel buffers taken for the batches that need one, in step order, up to the first that has to wait. -/
def Dev.bufferSteps (d : Dev) (j : Job) (rank : Nat) : List Nat → Dev
  | [] => d
  | s :: ss => match d.rank j.handle rank with
    | none => d
    | some r =>
      let (d, got) := d.parcelBuffer j r s
      if got then (d.onRank j.handle rank fun r => { r with bufferedTo := max r.bufferedTo (s + 1) }).bufferSteps j rank ss else d

/-- Batches of a rank with items ready and no buffer: buffers taken, and each still without counted in PARCEL_WAITS (R299). -/
def Dev.bufferRank (d : Dev) (j : Job) (r : Rank) : Dev :=
  let top := ((r.ready j).map fun e => e.step + 1).foldl max 0
  let d := d.bufferSteps j r.rank ((List.range (top - r.bufferedTo)).map (· + r.bufferedTo))
  let upTo : Nat := ((d.rank j.handle r.rank).map (·.bufferedTo)).getD 0
  let waiting := (((r.ready j).filter fun e => decide (upTo ≤ e.step)).map (·.step)).eraseDups.length
  d.onCtrs r.die fun c => { c with parcelWaits := c.parcelWaits + waiting }

/-- Next delivery tick of a job after a tick (R102). -/
def Job.nextDelivery (j : Job) (tick : Nat) : Nat :=
  if tick < j.t0 then j.t0 else tick + (max 1 j.tickMult - (tick - j.t0) % max 1 j.tickMult)

/-- A candidate with its place in the order of R126: delivery tick, job in rotation, cursor, slot, rank. -/
structure Candidate where
  item : ItemRef
  key : List Nat
  deriving DecidableEq, Repr, Inhabited

/-- Lexicographic order. -/
def lexLt : List Nat → List Nat → Bool
  | [], _ => false
  | _ :: _, [] => false
  | a :: as, b :: bs => decide (a < b) || (a == b && lexLt as bs)

/-- Insertion after equals. -/
def insertCandidate (x : Candidate) : List Candidate → List Candidate
  | [] => [x]
  | y :: ys => if lexLt x.key y.key then x :: y :: ys else y :: insertCandidate x ys

/-- Candidates of a die for the tick after a tick, in the order of R126. -/
def Dev.candidates (d : Dev) (die tick : Nat) : List Candidate :=
  let js := d.jobs.filter Job.delivers
  let n := max 1 js.length
  (js.zipIdx.flatMap fun p =>
    let j := p.1
    (j.ranksOn die).flatMap fun r =>
      if r.admits = false then []
      else ((r.ready j).filter fun e => decide (e.step < r.bufferedTo)).map fun e =>
        ({ item := e.ref j.handle r.rank,
           key := [j.nextDelivery tick + (e.step - r.nextStep) * j.tickMult, (p.2 + n - (tick + 1) % n) % n, e.step, e.slot, r.rank] } :
          Candidate)).foldl (fun l x => insertCandidate x l) []

/-! ### FORMATION_POINT (R125 to R130) -/

/-- One candidate offered to its die's cores; not placed, it is offered to the neighbours (R126, R127). -/
def Dev.offer (d : Dev) (die : Nat) (i : ItemRef) : Dev :=
  let est := d.estimates i
  match d.coreFor die est with
  | some c => d.takeOn i c est
  | none => d.onDie die fun x => { x with spill := x.spill ++ [i] }

/-- FORMATION_POINT of a die: budgets, parcel buffers, and the sacks of the next tick (R125, R126, R130 step 3). -/
def formationPointEffect (die : Nat) (_m : Mem) (d : Dev) : Dev :=
  let tick := d.clk.dieTick.getD die 0
  if d.dieUp die = false ∨ tick + 1 ≤ (d.die die).lastFormation then d
  else
    let d := d.until (d.clk.tickStart + d.tickNs - d.formNs)
    let d := d.onDie die fun x => { x with lastFormation := tick + 1, spill := [] }
    let d := (d.dieCores die).foldl (fun (d : Dev) c => let b := d.budgets c; d.onCore c fun x => { x with budget := b }) d
    let d := (d.jobs.filter Job.delivers).foldl (fun (d : Dev) (j : Job) =>
      ((j.ranksOn die).filter Rank.admits).foldl (fun (d : Dev) (r : Rank) => d.bufferRank j r) d) d
    let d := (d.candidates die tick).foldl (fun (d : Dev) x => d.offer die x.item) d
    let unused := ((d.dieCores die).map fun c => (d.core c).budget.sum).sum
    d.onDie die fun x => { x with unusedBudget := unused }

/-- The sacks of a die's next tick formed. -/
def execFormationPoint (die : Nat) (s : State) : Host.Outcome State Fault Refusal :=
  .next (s.put (formationPointEffect die s.mem s.dev))

/-! ### SPILL_DEADLINE (R127, R130 step 4) -/

/-- Die that link group k of a die leads to: left, right, chord (R20). -/
def linkTo (die k : Nat) : Nat := if k = 0 then (die + 7) % 8 else if k = 1 then (die + 1) % 8 else (die + 4) % 8

/-- Link group k of a die is in service at both ends. -/
def Dev.linkUp (d : Dev) (die k : Nat) : Bool :=
  let back := if k = 0 then 1 else if k = 1 then 0 else 2
  (d.die die).links.getD k false && (d.die (linkTo die k)).links.getD back false

/-- One-hop neighbours that have formed their sacks, in the order of R127. -/
def Dev.neighbours (d : Dev) (die : Nat) : List Nat :=
  let ns := ((List.range 3).filter (d.linkUp die)).map (linkTo die)
  let ns := ns.filter fun n => d.dieUp n && (d.die n).lastFormation == (d.die die).lastFormation
  let before := fun (a b : Nat) => decide ((d.die b).unusedBudget < (d.die a).unusedBudget) ||
    ((d.die a).unusedBudget == (d.die b).unusedBudget && decide (a < b))
  ns.foldl (fun l n => (l.takeWhile fun x => before x n) ++ [n] ++ l.dropWhile fun x => before x n) []

/-- An offered item goes to the first neighbour with a core for it. -/
def Dev.spillOne (d : Dev) (die : Nat) (i : ItemRef) : Dev :=
  if (d.entry i).all fun e => e.state != .stored then d
  else
    let est := d.estimates i
    match (d.neighbours die).findSome? fun n => d.coreFor n est with
    | some c => d.takeOn i c est
    | none => d

/-- SPILL_DEADLINE of a die: its offers close; what no neighbour took stays a candidate (R127). -/
def spillDeadlineEffect (die : Nat) (_m : Mem) (d : Dev) : Dev :=
  let form := (d.die die).lastFormation
  if d.dieUp die = false ∨ form ≤ (d.die die).lastSpill then d
  else
    let d := d.until (d.clk.tickStart + d.tickNs - d.formNs / 2)
    let d := (d.die die).spill.foldl (fun (d : Dev) i => d.spillOne die i) d
    d.onDie die fun x => { x with lastSpill := form, spill := [] }

/-- The spill offers of a die closed. -/
def execSpillDeadline (die : Nat) (s : State) : Host.Outcome State Fault Refusal :=
  .next (s.put (spillDeadlineEffect die s.mem s.dev))

/-! ### TICK_BOUNDARY and TICK_CHANGE (R25 to R31, R130, R131, R563, R607) -/

/-- A pending DEV_SET_TICK whose tick has come is in force: period, phase and PTP ports; gate schedules that the new period leaves
without a class revert (R29, R30, R365). -/
def Dev.changeTick (d : Dev) : Dev :=
  match d.clk.pending with
  | some (t, per, ph, p1, p2) =>
    if d.clk.tick < t then d
    else
      let d := { d with clk := { d.clk with period := per, phase := ph, primary := p1, secondary := p2, onSecondary := false, pending := none,
                                            master := p1 / 2 } }
      d.revertGates (per * 10)
  | none => d

/-- TICK_CHANGE: a new tick period or phase takes effect at its tick (R29). -/
def tickChangeEffect (_m : Mem) (d : Dev) : Dev := d.changeTick

/-- The named tick of DEV_SET_TICK. -/
def execTickChange (s : State) : Host.Outcome State Fault Refusal :=
  .next (s.put (tickChangeEffect s.mem s.dev))

/-- Core voltage of a sort clock, mV: 600 at 0.8 GHz, 700 at 1.6 GHz, 800 at 1.8 GHz, linear between (R617). -/
def coreMvOf (mhz : Nat) : Nat := if mhz ≤ 1600 then 600 + (mhz - 800) / 8 else 700 + (mhz - 1600) / 2

/-- PTP time at which a tick number begins by the period and phase in force for it (R27, R29). -/
def Dev.tickAt (d : Dev) (n : Nat) : Nat := match d.clk.pending with
  | some (t, per, ph, _) => if t ≤ n then ph + n * (per * 10) else d.clk.phase + n * d.tickNs
  | none => d.clk.phase + n * d.tickNs

/-- A new tick of the package begins, never before the running one has ended at its length (R29): time, TICK_OUT, sort clock, cap, PTP port and TICK_OUT_CTL that waited for it (R25, R26, R28,
R30, R563, R564, R607, R617). -/
def Dev.newTick (d : Dev) : Dev :=
  let d := d.changeTick
  let start := max (d.clk.tickStart + d.tickNs) (d.tickAt (d.clk.tick + 1))
  let d := (d.until start).powerStep
  let k := d.clk
  let ctl := k.nextCtl.getD (k.tickEn, k.ppsEn)
  let second := if k.switchDue then !k.onSecondary else k.onSecondary
  let mhz := d.pwr.nextMhz.getD d.pwr.sortMhz
  { d with
    clk := { k with
      tick := k.tick + 1
      tickStart := start
      tickEn := ctl.1
      ppsEn := ctl.2
      nextCtl := none
      onSecondary := second
      switchDue := false
      holdover := k.holdover && !k.switchDue
      master := if k.switchDue then (if second then k.secondary else k.primary) / 2 else k.master }
    pwr := { d.pwr with sortMhz := mhz, coreMv := coreMvOf mhz, nextMhz := none, setCap := d.pwr.nextCap.getD d.pwr.setCap, nextCap := none }
    pins := if ctl.1 && d.pins.tickOutLive then { d.pins with tickOut := true, tickOutAt := start } else { d.pins with tickOut := false } }

/-- The sacks of a core at a boundary: unfinished items overrun and run on ahead of the new sack (R130 step 5, R131 step 7). -/
def Dev.coreBoundary (d : Dev) (c : CoreRef) : Dev :=
  let x := d.core c
  let unfinished := x.unfinished.filter fun i => (d.entry i).any Entry.unfinished
  let d := unfinished.foldl (fun (d : Dev) i =>
    (d.onEntry i fun e => { e with overrun := true }).onJobCtrs i.job fun k => { k with overrunItems := k.overrunItems + 1 }) d
  let d := if unfinished.isEmpty then d else d.onCtrs c.die fun k => { k with overrunTicks := k.overrunTicks + 1 }
  d.onCore c fun x => { x with sack := x.sack ++ x.nextSack, nextSack := [] }

/-- Link groups that could not be repaired are retired at both ends (R21). -/
def Dev.retireLinks (d : Dev) (die : Nat) : Dev :=
  (d.die die).linksDying.foldl (fun (d : Dev) k =>
    let back := if k = 0 then 1 else if k = 1 then 0 else 2
    (d.onDie die fun x => { x with links := x.links.set k false }).onDie (linkTo die k) fun x =>
      { x with links := x.links.set back false }) (d.onDie die fun x => { x with linksDying := [] })

/-- Boundary actions of a die after the package's: link retirement, port settings, sacks (R131 steps 3 and 7, R358, R363). -/
def Dev.dieBoundary (d : Dev) (die : Nat) : Dev :=
  let d := d.retireLinks die
  let len := d.tickNs
  let d := [2 * die, 2 * die + 1].foldl (fun (d : Dev) p => d.onPort p fun x => x.boundary d.now len) d
  (allCores.filter fun c => c.die == die).foldl Dev.coreBoundary d

/-- TICK_BOUNDARY of a die: the package's next tick begins with the first die to reach it, and the die catches up with the package's
tick (R27, R28, R131). -/
def tickBoundaryEffect (die : Nat) (_m : Mem) (d : Dev) : Dev :=
  if d.dieUp die = false then d
  else
    let d := if d.clk.tick ≤ d.clk.dieTick.getD die 0 then d.newTick else d
    let d := { d with clk := { d.clk with dieTick := d.clk.dieTick.modify die (· + 1) } }
    let d := d.dieBoundary die
    d.jobs.foldl (fun (d : Dev) (j : Job) => d.releaseOlds j.handle) d

/-- The start of a tick on a die. -/
def execTickBoundary (die : Nat) (s : State) : Host.Outcome State Fault Refusal :=
  .next (s.put (tickBoundaryEffect die s.mem s.dev))

end Sys2Proof.Machine
end

