-- ==== Sys2Proof/Machine/ConfigStore.lean ====
section
/-! DEFINITION. The configuration store in SPI NOR: its banks, their selection and the write of one (R565 to R569, R36, R552, R553). -/

namespace Sys2Proof.Machine

open Sys2Proof

/-- Bank 0 or 1 (R566). -/
def Nor.bank (n : Nor) (i : Nat) : Bank := if i = 0 then n.bank0 else n.bank1

/-- n with a bank replaced. -/
def Nor.setBank (n : Nor) (i : Nat) (b : Bank) : Nor := if i = 0 then { n with bank0 := b } else { n with bank1 := b }

/-- Settings in force: the body of the bank in use, or the defaults where no bank is valid (R567). -/
def Dev.cfg (d : Dev) : Cfg := let b := d.nor.bank d.nor.inUse; if b.valid then b.cfg else {}

/-- Bank selected at a start (R567): the newer of two valid ones, bank 0 where the sequences are equal; none where neither is valid. -/
def Nor.selected (n : Nor) : Option Nat :=
  if n.bank0.valid ∧ n.bank1.valid then
    let diff := (n.bank1.sequence - n.bank0.sequence).toNat
    some (if 1 ≤ diff ∧ diff < 2 ^ 31 then 1 else 0)
  else if n.bank0.valid then some 0
  else if n.bank1.valid then some 1
  else none

/-- Read-backs a write of Table 19.8 makes before it gives up: the first, and three restarts (R568). -/
def cfgAttempts : Nat := 4

/-- What Roist copies to the backup domain whenever it writes the store (R552, R553). -/
def Dev.copyBackup (d : Dev) (c : Cfg) : Dev :=
  { d with bkp := { d.bkp with recoveryAt := BitVec.ofNat 4 c.recoveryAt, startLimit := BitVec.ofNat 12 c.startLimit } }

/-- A body programmed into a bank under a sequence number, read back, and its MAGIC set (Table 19.8 steps 2 to 6). Answers false
after the last failed read-back, with that bank left erased. -/
def Dev.programBank (d : Dev) (i : Nat) (seq : BitVec 32) (c : Cfg) : Dev × Bool :=
  if cfgAttempts ≤ d.env.spiFails then
    ({ d with nor := d.nor.setBank i {}, env := { d.env with spiFails := d.env.spiFails - cfgAttempts } }, false)
  else
    ({ d with nor := d.nor.setBank i { valid := true, sequence := seq, cfg := c }, env := { d.env with spiFails := 0 } }, true)

/-- A change of the store: the bank not in use gets the new body, one above in SEQUENCE, and is in use (R568). A write that fails is
reported, and the old bank stands. -/
def Dev.cfgWrite (d : Dev) (f : Cfg → Cfg) : Dev × Bool :=
  let c := f d.cfg
  let other := 1 - d.nor.inUse
  let (d, ok) := d.programBank other ((d.nor.bank d.nor.inUse).sequence + 1) c
  if ok then (({ d with nor := { d.nor with inUse := other } } : Dev).copyBackup c, true)
  else (d.report St.RSTP_CFG_WRITE_FAILED { kind := 0x12, die := 0 }, false)

/-- A start's second look at the store: the other bank is written with the selected contents, one below in SEQUENCE, where it is not
so already (R569). -/
def Dev.cfgMirror (d : Dev) : Dev :=
  let b := d.nor.bank d.nor.inUse
  let other := d.nor.bank (1 - d.nor.inUse)
  if b.valid = false ∨ (other.valid ∧ other.sequence = b.sequence - 1) then d
  else
    let (d, ok) := d.programBank (1 - d.nor.inUse) (b.sequence - 1) b.cfg
    if ok then d else d.reportReset St.RSTP_CFG_WRITE_FAILED

/-- The unit's retirement stands (R36). -/
def Dev.isRetired (d : Dev) (u : UnitRef) : Bool := d.cfg.retired.any fun r => r.who == u

end Sys2Proof.Machine
end

