-- ==== Sys2Proof/Machine/Settle.lean ====
section
/-! DEFINITION. Settlement of a franking value in doubt (R153, R516 to R518): the home node's comparison, the replies, and what the
post office makes of them. -/

namespace Sys2Proof.Machine

open Sys2Proof

/-- Connection operand of SETTLE_REQUEST when the post office is itself the home node (DESIGN CHOICE, log entry 50). -/
def ownPost : Nat := 0xFFFFFFFF

/-- A settle message (Table 17.8). -/
def settleMsg (magic : String) (st : Status) (digest8 : Bytes) (segment computed offset : Nat) : Bytes :=
  layout 32 [(0, ascii magic), (4, le 2 st.toNat), (8, digest8), (16, le 4 segment), (20, le 4 computed), (24, le 8 offset)]

/-- Layout of a settle message (Table 17.8). -/
def settleFramed (magic : String) (b : Bytes) : Bool :=
  b.length == 32 && b.take 4 == ascii magic && fld b 6 2 == 0 && decide (fld b 24 8 < 2 ^ 36)

/-- Items whose second franking failure awaits settlement (R153). -/
def Dev.settlingItems (d : Dev) : List ItemRef :=
  d.jobs.flatMap fun j => j.ranks.flatMap fun r => (r.window.filter fun e => e.settling.isSome).map fun e => e.ref j.handle r.rank

/-- The settle request of an item: DIGEST8, SEGMENT, LOCAL_OFFSET and COMPUTED (Table 17.8). -/
def Dev.settleRequestOf (d : Dev) (i : ItemRef) : Option Bytes :=
  match d.job i.job, d.entry i with
  | some j, some e => match d.segmentOfIndex j e.index, e.firstCrc with
    | some (s, o), some c => some (settleMsg "STLQ" 0 (j.manifestDigest.take 8) s c o)
    | _, _ => none
  | _, _ => none

/-- Items a settle message speaks of: same digest, segment, offset and computed value. -/
def Dev.settleItems (d : Dev) (b : Bytes) : List ItemRef :=
  d.settlingItems.filter fun i => (d.settleRequestOf i).map (fun m => m.drop 8) == some (b.drop 8)

/-- A settling item fails with INFL_FRANKING; fault-caused when the settlement did not finish (R153). -/
def Dev.settleFail (d : Dev) (i : ItemRef) (late : Bool) : Dev :=
  match d.entry i with
  | some e =>
    d.itemFail i { status := St.INFL_FRANKING, detail := e.firstCrc.getD 0, stage := d.stageIndex i, fault := late, stored := true }
  | none => d

/-- A settle reply at the post office: the item restarts with the repaired value, or fails (R153, R518). -/
def Dev.settleReplied (d : Dev) (b : Bytes) : Dev :=
  let st := BitVec.ofNat 16 (fld b 4 2)
  (d.settleItems b).foldl (fun (d : Dev) (i : ItemRef) =>
    if st = St.INT_CHECK_REPAIRED then
      let stage := d.stageIndex i
      let d := d.onEntry i fun e => { e with settling := none, settled := true, franking := fld b 20 4 }
      (d.itemRestart i stage none false).1
    else d.settleFail i false) d

/-- A settle reply leaves the home node: to the connection, or to its own post office (R516). -/
def Dev.settleSend (d : Dev) (qpn : Option Nat) (msg : Bytes) : Dev :=
  match qpn with
  | some q => d.post q { op := .send, bytes := msg, purpose := .settle none }
  | none => d.settleReplied msg

/-- Replies whose repair has become durable leave (R518). -/
def Dev.settleRelease (d : Dev) (pairs : List (Nat × Nat)) : Dev :=
  let ready := d.store.settles.filter fun w => pairs.contains w.left
  let d := d.onStore fun s => { s with settles := s.settles.filter fun w => !pairs.contains w.left }
  ready.foldl (fun (d : Dev) (w : SettleWait) => d.settleSend w.qpn w.msg) d

/-- The dataset and local offset a settle message names at its home node: the first dataset of that digest that holds the segment. -/
def Dev.settleEntry (d : Dev) (b : Bytes) : Option (Dataset × Manifest × Nat) :=
  match d.datasets.find? fun x => x.closed && x.digest.take 8 == cut b 8 8 && x.segment == some (fld b 16 4) with
  | some x => match x.entries[fld b 24 8]? with
    | some m => some (x, m, x.dirFranking.getD (fld b 24 8) m.franking)
    | none => none
  | none => none

/-- Connection of the segment's ALTERNATE, by the node map of a job over the dataset (R84, R517). -/
def Dev.settleAlternate (d : Dev) (x : Dataset) (segment : Nat) : Option Nat :=
  match d.jobs.find? fun j => j.dataset == x.handle with
  | some j =>
    let alt := (j.nodeMap.getD segment (noPeer, noPeer)).2
    if alt = noPeer ∨ alt = thisPeer then none else some (j.peerQpn alt)
  | none => none

/-- The alternate's directory value, from its reply to a request with COMPUTED 0 (R517). -/
def alternateValue (request : Bytes) (reply : Option Bytes) : Option Nat :=
  match reply with
  | some r =>
    if settleFramed "STLR" r ∧ fld r 4 2 = 0 ∧ cut r 8 12 = cut request 8 12 ∧ fld r 24 8 = fld request 24 8 then some (fld r 20 4)
    else none
  | none => none

/-- Settlement at the home node, Table 17.9 row by row; the reply follows the repair's journal record (R517, R518). -/
def Dev.settleHere (d : Dev) (qpn : Option Nat) (b : Bytes) (alternateReply : Option Bytes) : Dev :=
  let computed := fld b 20 4
  let reply := fun (st : Status) => settleMsg "STLR" st (cut b 8 8) (fld b 16 4) computed (fld b 24 8)
  let undecided := fun (d : Dev) (die : Nat) =>
    ((d.onInteg die fun c => { c with settleUndecided := c.settleUndecided + 1 }).report St.INT_SETTLE_UNDECIDED (storeUnit die)).settleSend
      qpn (reply St.INT_SETTLE_UNDECIDED)
  match d.settleEntry b with
  | none => undecided d ((qpn.map qpnDie).getD 0)
  | some (x, m, dir) =>
    let p := partitionOf m.id
    let die := d.servingDie p
    let alt := d.settleAlternate x (fld b 16 4)
    let d := match alt with
      | some q =>
        let d := d.post q { op := .send, bytes := settleMsg "STLQ" 0 (cut b 8 8) (fld b 16 4) 0 (fld b 24 8), purpose := .settle none }
        match alternateReply with
        | some r => (d.sendArrived q r).2
        | none => d
      | none => d
    let altOk := alt.isNone || alternateValue b alternateReply == some computed
    match d.object m.id with
    | none => undecided d die
    | some o => match d.readObj o with
      | (.error _, d) => undecided d die
      | (.ok _, d) =>
        if o.franking = computed ∧ dir ≠ computed ∧ altOk then
          let set := fun (y : Dataset) => { y with dirFranking := y.dirFranking.set (fld b 24 8) computed }
          let d := { d with datasets := updWhere d.datasets (fun y => y.handle == x.handle) set }
          let q := partitionOf (directoryId x.handle)
          let seq := (d.part q).seq
          let d := (d.dirRewrite x.handle (fld b 24 8)).onInteg die fun c => { c with settleRepaired := c.settleRepaired + 1 }
          let d := d.report St.INT_CHECK_REPAIRED (storeUnit die)
          if (d.part q).seq = seq then d.settleSend qpn (reply St.INT_CHECK_REPAIRED)
          else
            let d := if (d.part q).lazy_.isEmpty then d else d.programLazy q
            d.onStore fun s => { s with settles := s.settles ++ [{ qpn := qpn, msg := reply St.INT_CHECK_REPAIRED, left := (q, seq) }] }
        else if o.franking = dir ∧ dir ≠ computed then
          let d := (d.onInteg die fun c => { c with settleBytes := c.settleBytes + 1 }).report St.INT_SETTLE_BYTES (storeUnit die)
          d.settleSend qpn (reply St.INT_SETTLE_BYTES)
        else undecided d die

/-- SETTLE_REQUEST (R516 to R518): a request with COMPUTED 0 from a peer asks for the directory value alone. -/
def settleRequestEffect (qpn : Nat) (b : Bytes) (alternateReply : Option Bytes) (_m : Mem) (d : Dev) : Dev :=
  if qpn = ownPost then
    let own := (d.settleItems b).any fun i => match d.job i.job, d.entry i with
      | some j, some e => d.isLocal j e.index
      | _, _ => false
    if settleFramed "STLQ" b && own then d.settleHere none b alternateReply else d
  else match d.sendArrived qpn b with
  | (none, d) => d
  | (some _, d) =>
    if settleFramed "STLQ" b = false then d
    else if fld b 20 4 = 0 then
      match d.settleEntry b with
      | some (_, _, dir) => d.settleSend (some qpn) (settleMsg "STLR" 0 (cut b 8 8) (fld b 16 4) dir (fld b 24 8))
      | none => d
    else d.settleHere (some qpn) b alternateReply

/-- The home node, or the alternate, receiving a settle request. -/
def execSettleRequest (qpn : Nat) (payload : Bytes) (alternateReply : Option Bytes) (s : State) : Host.Outcome State Fault Refusal :=
  .next (s.put (settleRequestEffect qpn payload alternateReply s.mem s.dev))

/-- SETTLE_REPLY (R518): a reply to no settling item is discarded. -/
def settleReplyEffect (qpn : Nat) (b : Bytes) (_m : Mem) (d : Dev) : Dev :=
  match d.sendArrived qpn b with
  | (none, d) => d
  | (some _, d) => if settleFramed "STLR" b then d.settleReplied b else d

/-- The post office receiving a settle reply. -/
def execSettleReply (qpn : Nat) (payload : Bytes) (s : State) : Host.Outcome State Fault Refusal :=
  .next (s.put (settleReplyEffect qpn payload s.mem s.dev))

/-- SETTLE_TIMEOUT (R153, R518): 2 s after the second failure. -/
def settleTimeoutEffect (i : ItemRef) (_m : Mem) (d : Dev) : Dev :=
  match (d.entry i).bind (·.settling) with
  | some t => (d.until (t + 2000000000)).settleFail i true
  | none => d

/-- Two seconds without an outcome of the settlement. -/
def execSettleTimeout (item : ItemRef) (s : State) : Host.Outcome State Fault Refusal :=
  .next (s.put (settleTimeoutEffect item s.mem s.dev))

end Sys2Proof.Machine
end

