-- ==== Sys2Proof/Machine/StoreRun.lean ====
section
/-! DEFINITION. The seven letterbox commands (R475 to R477), the journal reaching media (R422), the pages of a PUT, secure
discard (R434), and erases. -/

namespace Sys2Proof.Machine

open Sys2Proof

/-! ### A command of a queue -/

/-- A fetched command of an opcode on a tag that has not begun, on a unit that serves. -/
def Dev.fetchedCmd (d : Dev) (q tag opcode : Nat) : Option Cmd :=
  match d.queue q with
  | none => none
  | some x => match x.cmd tag with
    | none => none
    | some c => if c.sub.opcode = opcode ∧ c.phase = .fetched ∧ d.lbxRuns x.port then some c else none

/-- Port of a queue. -/
def Dev.queuePort (d : Dev) (q : Nat) : Nat := ((d.queue q).map (·.port)).getD 0

/-- A request to a partition: served, refused with STO_NOT_READY, or waiting (R408, R431). -/
def Dev.gated (d : Dev) (q tag p : Nat) (act : Dev → Dev) : Dev :=
  match d.gate p with
  | .serve => act (d.onCmd q tag fun c => { c with waitSince := none })
  | .notReady => d.lbxFinish q tag St.STO_NOT_READY 0
  | .wait => d.onCmd q tag fun c => { c with waitSince := some (c.waitSince.getD d.now) }

/-- The command waits for journal records: its outcome is set, and follows them (R422). -/
def Dev.cmdWaits (d : Dev) (q tag result : Nat) (left : List (Nat × Nat)) : Dev :=
  d.onCmd q tag fun c => { c with phase := .committing, result := result, left := left }

/-- The command ends because the port refused its host buffer (R480, R481). -/
def Dev.cmdRefused (d : Dev) (q tag a len : Nat) (write : Bool) : Dev :=
  let port := d.queuePort q
  d.lbxFinish q tag St.LBX_DMA_DATA 0 (some (d.refusedAt port a len write, (d.hostRefused port a len write).getD 0))

/-- The command ends with bytes written to its host buffer of bufLen bytes (R472, R481). -/
def Dev.cmdData (d : Dev) (q tag addr bufLen : Nat) (b : Bytes) (result : Nat) : Dev :=
  let w := d.hostWrite (d.queuePort q) addr bufLen b
  if w.2 then w.1.lbxFinish q tag St.SUCCESS result else w.1.cmdRefused q tag addr b.length true

/-! ### GET, STAT, LIST (R475, R477) -/

/-- Refusal of a read of an identifier by the host (R401, R435). -/
def Dev.readRefusal (d : Dev) (id : Nat) (stat : Bool) : Except Status Obj :=
  if isSystemId id ∧ (d.object id).all (fun o => !o.isSeal) then .error St.STO_ID_RESERVED
  else if stat = false ∧ d.store.securing id then .error St.STO_SECURE_PENDING
  else match d.object id with
    | none => .error St.STO_NO_OBJECT
    | some o => .ok o

/-- The bytes a GET reads: stored, or original with DECODE (R475). -/
def Dev.getBytes (d : Dev) (s : Sub) (o : Obj) : Except Status Bytes × Dev :=
  let r := d.readObj o
  match r.1 with
  | .error st => (.error st, r.2)
  | .ok b =>
    if bit s.flags 0 = false then (.ok b, r.2)
    else
      let d := r.2.checkValues s.id
      let crc := ((d.object s.id).map (·.franking)).getD o.franking
      match recoverOriginal b o.origLen crc with
      | .ok x => (.ok x, d)
      | .error e => (.error e.status, d)

/-- GET once its partition serves (R404, R475). -/
def Dev.getServe (q tag : Nat) (s : Sub) (d : Dev) : Dev :=
  match d.readRefusal s.id false with
  | .error st => d.lbxFinish q tag st 0
  | .ok o =>
    let r := d.getBytes s o
    match r.1 with
    | .error st => r.2.lbxFinish q tag st 0
    | .ok b =>
      if b.length ≤ s.offset then r.2.lbxFinish q tag St.LBX_RANGE 0
      else
        let out := cut b s.offset s.len
        r.2.cmdData q tag s.addr s.len out out.length

/-- GET (R474, R475). -/
def getEffect (queue tag : Nat) (m : Mem) (d : Dev) : Dev :=
  match d.fetchedCmd queue tag 1 with
  | none => d
  | some c =>
    let s := c.sub
    let d := if s.len < 1 ∨ 2 ^ 32 < s.len then d.lbxFinish queue tag St.LBX_RANGE 0
      else d.gated queue tag (partitionOf s.id) (Dev.getServe queue tag s)
    Dev.lbxSettle m d

/-- GET: the stored or original bytes of an object written to host memory. -/
def execGet (queue tag : Nat) (s : State) : Host.Outcome State Fault Refusal :=
  .next (s.put (getEffect queue tag s.mem s.dev))

/-- The stat record of an object (Table 16.5). -/
def Store.statRecord (s : Store) (o : Obj) : Bytes :=
  layout 64 [(0, le 16 o.id), (16, le 8 o.stored.length), (24, le 8 o.origLen), (32, le 4 o.franking), (36, le 2 o.pins),
    (38, le 2 (b2n o.system + 2 * b2n o.inSlc + 4 * b2n o.direct)), (40, le 8 o.putSeq),
    (48, le 4 (((s.cell o.firstCell).map (·.slot)).getD 0))]

/-- STAT once its partition serves (R477). -/
def Dev.statServe (q tag : Nat) (s : Sub) (d : Dev) : Dev :=
  match d.readRefusal s.id true with
  | .error st => d.lbxFinish q tag st 0
  | .ok o => d.cmdData q tag s.addr 64 (d.store.statRecord o) o.stored.length

/-- STAT (R474, R477). -/
def statEffect (queue tag : Nat) (m : Mem) (d : Dev) : Dev :=
  match d.fetchedCmd queue tag 5 with
  | none => d
  | some c =>
    let s := c.sub
    let d := if s.len < 64 then d.lbxFinish queue tag St.LBX_RANGE 0
      else d.gated queue tag (partitionOf s.id) (Dev.statServe queue tag s)
    Dev.lbxSettle m d

/-- STAT: the stat record of an object written to host memory. -/
def execStat (queue tag : Nat) (s : State) : Host.Outcome State Fault Refusal :=
  .next (s.put (statEffect queue tag s.mem s.dev))

/-- A number inserted into a rising list. -/
def insertNat (x : Nat) : List Nat → List Nat
  | [] => [x]
  | y :: r => if x ≤ y then x :: y :: r else y :: insertNat x r

/-- Host identifiers of a partition from id upward, rising (R477). -/
def Store.idsFrom (s : Store) (p id : Nat) : List Nat :=
  ((s.objs.map (·.id)).filter fun i => !isSystemId i && partitionOf i == p && decide (id ≤ i)).foldl (fun l x => insertNat x l) []

/-- LIST once its partition serves (R477). -/
def Dev.listServe (q tag : Nat) (s : Sub) (d : Dev) : Dev :=
  let ids := d.store.idsFrom s.control s.id
  let out := ids.take (s.len / 16)
  let result := out.length + b2n (ids.length == out.length) * 2 ^ 47
  if out = [] then d.lbxFinish q tag St.SUCCESS result
  else d.cmdData q tag s.addr s.len (out.flatMap (le 16)) result

/-- LIST (R474, R477). -/
def listEffect (queue tag : Nat) (m : Mem) (d : Dev) : Dev :=
  match d.fetchedCmd queue tag 6 with
  | none => d
  | some c =>
    let s := c.sub
    let d := if s.len < 16 ∨ 2 ^ 20 < s.len ∨ s.len % 16 ≠ 0 then d.lbxFinish queue tag St.LBX_RANGE 0
      else d.gated queue tag s.control (Dev.listServe queue tag s)
    Dev.lbxSettle m d

/-- LIST: host identifiers of a partition written to host memory. -/
def execList (queue tag : Nat) (s : State) : Host.Outcome State Fault Refusal :=
  .next (s.put (listEffect queue tag s.mem s.dev))

/-! ### DISCARD, SECURE_DISCARD, FLUSH (R432, R434, R425) -/

/-- Next PUT_SEQ of a partition taken (R402). -/
def Dev.takeSeq (d : Dev) (p : Nat) : Nat × Dev :=
  (p * 2 ^ 48 + d.store.putSeq.getD p 1, d.onStore fun s => { s with putSeq := s.putSeq.modify p (· + 1) })

/-- DISCARD once its partition serves (R401, R405, R432, R435). -/
def Dev.discardServe (q tag : Nat) (s : Sub) (d : Dev) : Dev :=
  match d.storeRefusal s.id, d.object s.id with
  | some st, _ => d.lbxFinish q tag st 0
  | none, none => d.lbxFinish q tag St.STO_NO_OBJECT 0
  | none, some _ =>
    let p := partitionOf s.id
    let t := d.takeSeq p
    let r := t.2.pushSync p (.discard s.id t.1)
    r.2.cmdWaits q tag 0 [r.1]

/-- DISCARD (R477). -/
def discardEffect (queue tag : Nat) (m : Mem) (d : Dev) : Dev :=
  match d.fetchedCmd queue tag 3 with
  | none => d
  | some c => Dev.lbxSettle m (d.gated queue tag (partitionOf c.sub.id) (Dev.discardServe queue tag c.sub))

/-- DISCARD: an object removed by a DISCARD record. -/
def execDiscard (queue tag : Nat) (s : State) : Host.Outcome State Fault Refusal :=
  .next (s.put (discardEffect queue tag s.mem s.dev))

/-- SECURE_DISCARD once its partition serves: its SECURE_BEGIN record (R434 to R436). -/
def Dev.secureServe (q tag : Nat) (s : Sub) (d : Dev) : Dev :=
  match d.storeRefusal s.id, d.object s.id with
  | some st, _ => d.lbxFinish q tag st 0
  | none, none => d.lbxFinish q tag St.STO_NO_OBJECT 0
  | none, some _ =>
    let r := d.pushSync (partitionOf s.id) (.secureBegin s.id)
    r.2.cmdWaits q tag 0 [r.1]

/-- SECURE_DISCARD (R477). -/
def secureDiscardEffect (queue tag : Nat) (m : Mem) (d : Dev) : Dev :=
  match d.fetchedCmd queue tag 4 with
  | none => d
  | some c => Dev.lbxSettle m (d.gated queue tag (partitionOf c.sub.id) (Dev.secureServe queue tag c.sub))

/-- SECURE_DISCARD: an object removed and every physical copy of it erased. -/
def execSecureDiscard (queue tag : Nat) (s : State) : Host.Outcome State Fault Refusal :=
  .next (s.put (secureDiscardEffect queue tag s.mem s.dev))

/-- A record of the lazy class (Table 14.6). -/
def JRec.isLazy : JRec → Bool
  | .foldRec .. | .cellMove .. | .cellFree .. | .ledger .. | .dirUpdate .. | .mediaState .. => true
  | _ => false

/-- (partition, SEQ) of every lazy record being programmed. -/
def Store.lazyInFlight (s : Store) : List (Nat × Nat) :=
  s.programs.flatMap fun x => match x.work with
    | .journal p recs => (recs.filter fun e => e.what.isLazy).map fun e => (p, e.seq)
    | .page .. => []

/-- FLUSH (R425, R477): the lazy buffers go to programming, and the command waits for every lazy record. -/
def flushEffect (queue tag : Nat) (m : Mem) (d : Dev) : Dev :=
  match d.fetchedCmd queue tag 7 with
  | none => d
  | some _ =>
    if d.store.started = false then Dev.lbxSettle m (d.lbxFinish queue tag St.STO_NOT_READY 0)
    else
      let d := (List.range 8).foldl Dev.programLazy d
      let left := d.store.lazyInFlight
      if left = [] then Dev.lbxSettle m (d.lbxFinish queue tag St.SUCCESS 0) else d.cmdWaits queue tag 0 left

/-- FLUSH: every lazy record made durable. -/
def execFlush (queue tag : Nat) (s : State) : Host.Outcome State Fault Refusal :=
  .next (s.put (flushEffect queue tag s.mem s.dev))

/-- NOT_READY_TIMEOUT (R408): a request that has waited 30 s. -/
def notReadyTimeoutEffect (queue tag : Nat) (m : Mem) (d : Dev) : Dev :=
  match ((d.queue queue).bind fun x => x.cmd tag).bind (·.waitSince) with
  | none => d
  | some t => Dev.lbxSettle m ((d.until (t + 30 * second)).lbxFinish queue tag St.STO_NOT_READY 0)

/-- A letterbox request that has waited 30 s for its partition. -/
def execNotReadyTimeout (queue tag : Nat) (s : State) : Host.Outcome State Fault Refusal :=
  .next (s.put (notReadyTimeoutEffect queue tag s.mem s.dev))

/-! ### PUT (R400, R402, R403, R412, R426, R427, R476) -/

/-- What a PUT stores: the stored bytes, ORIG_LEN and FRANKING, or the status and RESULT that end it (R476). -/
def putContent (s : Sub) (src : Bytes) : Except (Status × Nat) (Bytes × Nat × Nat) :=
  if bit s.flags 0 then
    let crc := crc32c src
    if bit s.flags 1 ∧ crc ≠ s.franking then .error (St.LBX_FRANKING, 0)
    else match encodeBy (0x11 + bits s.control 1 0) (bits s.control 7 4) (bits s.control 12 8) none src with
      | .ok b => .ok (b, src.length, crc)
      | .error e => .error (e.status, 0)
  else if bit s.flags 2 then
    match recoverOriginal src s.origLen s.franking with
    | .ok _ => .ok (src, s.origLen, s.franking)
    | .error e => .error (St.LBX_VERIFY, e.status.toNat)
  else .ok (src, s.origLen, s.franking)

/-- Objects a partition, and the package, may hold (R416). -/
def Store.objectLimit (s : Store) (id : Nat) : Bool :=
  !(s.objs.any fun o => o.id == id) &&
    (decide (2 ^ 33 ≤ (s.objs.filter fun o => partitionOf o.id == partitionOf id).length) || decide (2 ^ 36 ≤ s.objs.length))

/-- Cells two copies of n pages take. -/
def cellsFor (pages : Nat) : Nat := 2 * ((pages + 255) / 256)

/-- The SLC cache has no room for so many cells more (R450, R451). -/
def Store.slcFull (s : Store) (cells : Nat) : Bool := decide (s.slcAllowance < s.slcBlocks + cells)

/-- First page that must wait for PRE_DISCARD (R426). -/
def preDiscardGate (direct ingest : Bool) (len : Nat) : Option Nat :=
  if direct ∨ len ≤ 1048576 then none else if ingest then some 256 else some 0

/-- Cell and block of the next page of a PUT. -/
def Store.blockOfPage (s : Store) (o : Obj) (i : Nat) : Option Nat :=
  (s.cells.find? fun c => c.holds.any fun h => h.id == o.id && h.putSeq == o.putSeq && decide (h.first ≤ i ∧ i < h.first + h.count)).map
    fun c => blockKey c.slot

/-- A PUT's stream is free and its run ends (R412). -/
def Dev.putRelease (d : Dev) (w : PutRun) : Dev := d.onStore fun s => s.dropPuts fun x => x.queue == w.queue && x.tag == w.tag

/-- The last page of a PUT is written: the COMMIT record, or, in direct mode, the end (R403, R422, R427). -/
def Dev.putEnd (d : Dev) (w : PutRun) : Dev :=
  let d := d.putRelease w
  if w.obj.direct then d.lbxFinish w.queue w.tag St.SUCCESS w.obj.stored.length
  else if (d.object w.obj.id).any fun o => decide (0 < o.pins) then d.lbxFinish w.queue w.tag St.STO_PINNED 0
  else
    let r := d.pushSync (partitionOf w.obj.id) (.commit w.obj)
    r.2.cmdWaits w.queue w.tag w.obj.stored.length [r.1]

/-- A PUT goes on: its next page to programming, PRE_DISCARD before the page that needs it, or its end (R412, R426). -/
def Dev.putNext (d : Dev) (q tag : Nat) : Dev :=
  match d.store.puts.find? fun w => w.queue == q && w.tag == tag with
  | none => d
  | some w =>
    if w.total ≤ w.next then d.putEnd w
    else if (w.gate.any fun g => decide (g ≤ w.next)) && decide (w.pre < 2) then
      if w.pre = 1 then d
      else
        let d := d.onStore fun s => { s with puts := updWhere s.puts (fun x => x.queue == q && x.tag == tag) fun x => { x with pre := 1 } }
        (d.pushSync (partitionOf w.obj.id) (.preDiscard w.obj.id w.obj.putSeq)).2
    else d.onStore fun s => { s with
      programs := s.programs ++ [{ number := s.nextOp, work := .page q tag, block := s.blockOfPage w.obj w.next }]
      nextOp := s.nextOp + 1 }

/-- A PUT whose content stands begins: space, a write stream, its pages placed, STREAM_CELLS records made (R412, R451). -/
def Dev.putBegin (q tag : Nat) (s : Sub) (d : Dev) (c : Bytes × Nat × Nat) : Dev :=
  let p := partitionOf s.id
  let pages := objPages c.1.length
  let free := ((List.range 8).map d.store.freeCells).sum
  if d.store.objectLimit s.id then d.lbxFinish q tag St.STO_OBJECT_LIMIT 0
  else if c.1 = [] ∨ 2 ^ 32 < c.1.length then d.lbxFinish q tag St.STO_LENGTH 0
  else if free < cellsFor pages then d.lbxFinish q tag St.STO_NO_SPACE 0
  else if d.store.slcFull (cellsFor pages) then
    if ((d.queue q).bind fun x => x.cmd tag).any (·.slcWaited) then d
    else (d.onCtrs (d.servingDie p) fun k => { k with slcFullWaits := k.slcFullWaits + 1 }).onCmd q tag fun c => { c with slcWaited := true }
  else
    let die := d.store.dieFor p
    match d.store.freeStream die with
    | none => d
    | some n =>
      let t := d.takeSeq p
      let direct := d.store.direct
      let o : Obj := { id := s.id, stored := c.1, origLen := c.2.1, franking := c.2.2, putSeq := t.1, direct := direct }
      match t.2.store.placeObj die n d.now o with
      | none => d.lbxFinish q tag St.STO_NO_SPACE 0
      | some r =>
        let f := r.first.getD (0, 0)
        let o := { o with firstCell := f.1, firstPage := f.2 }
        let gate := preDiscardGate direct (bit s.flags 0) c.1.length
        let run : PutRun := { queue := q, tag := tag, obj := o, total := pages, gate := gate, old := d.object s.id, stream := (die, n) }
        let d := t.2.onStore fun _ => ({ r.store with puts := r.store.puts ++ [run] } : Store).setStream { r.store.stream die n with busy := true }
        let d := (d.pushAll (r.made.map fun cs => (p, .streamCells n cs))).2
        (d.onCmd q tag fun c => { c with phase := .writing }).putNext q tag

/-- PUT once its partition serves (R400, R401, R405, R435, R476). -/
def Dev.putServe (m : Mem) (q tag : Nat) (s : Sub) (d : Dev) : Dev :=
  match d.storeRefusal s.id with
  | some st => d.lbxFinish q tag st 0
  | none => match hostRead m d (d.queuePort q) s.addr s.len with
    | none => d.cmdRefused q tag s.addr s.len false
    | some src => match putContent s src with
      | .error (st, r) => d.lbxFinish q tag st r
      | .ok c => d.putBegin q tag s c

/-- PUT (R474, R476). -/
def putEffect (queue tag : Nat) (m : Mem) (d : Dev) : Dev :=
  match d.fetchedCmd queue tag 2 with
  | none => d
  | some c =>
    let s := c.sub
    let d := if s.len < 1 ∨ 2 ^ 32 < s.len then d.lbxFinish queue tag St.STO_LENGTH 0
      else d.gated queue tag (partitionOf s.id) (Dev.putServe m queue tag s)
    Dev.lbxSettle m d

/-- PUT: an object written, encoded, verified and committed. -/
def execPut (queue tag : Nat) (s : State) : Host.Outcome State Fault Refusal :=
  .next (s.put (putEffect queue tag s.mem s.dev))

/-- Bytes of a direct-mode object after n of its pages: new pages, then the old version's, then zero (R427). -/
def mixedBytes (w : PutRun) (n : Nat) : Bytes :=
  let page := fun i => if i < n then w.obj.page i else w.old.elim (zeros 4096) fun o => o.page i
  fit w.obj.stored.length (((List.range w.total).flatMap page).drop 64)

/-- A page of a PUT is programmed (R412, R427): in direct mode it takes effect at once. -/
def Dev.pageDone (d : Dev) (q tag : Nat) : Dev :=
  match d.store.puts.find? fun w => w.queue == q && w.tag == tag with
  | none => d
  | some w =>
    let n := w.next + 1
    let d := d.onStore fun s => { s with puts := updWhere s.puts (fun x => x.queue == q && x.tag == tag) fun x => { x with next := n } }
    let d := if w.obj.direct = false then d
      else
        let o := { w.obj with stored := mixedBytes w n, pins := w.old.elim 0 (·.pins) }
        if w.next = 0 then d.commitObj o else d.onObj w.obj.id fun x => if x.putSeq = o.putSeq then o else x
    d.putNext q tag

/-! ### Secure discard (R434 to R436, R462) -/

/-- Cells of stripes that hold one of the cells that p picks out: parity cells (R434 step 4). -/
def Store.parityCellsOf (s : Store) (p : Cell → Bool) : List Nat :=
  (s.stripes.filter fun x => x.cells.any fun n => (s.cell n).any p).flatMap fun x => x.cells.drop s.k

/-- What lies in the cells found, other than the discarded object, is moved out (R434 step 2). -/
def Dev.clearCells (d : Dev) (slots : List Nat) : Dev :=
  let found := d.store.cells.filter fun c => slots.contains c.slot
  let ids := (found.flatMap fun c => c.holds.map (·.id)).eraseDups
  let d := (d.store.puts.filter fun w => ids.contains w.obj.id).foldl Dev.replacePut d
  ids.foldl (fun d id => d.rehome id) d

/-- SECURE_BEGIN is durable (R434 steps 1 to 4): the object is absent; every cell of any of its versions is found, on sleds that
can be erased and on absent ones; what else lies there is moved; parity cells of their stripes move, for the old ones to be
erased; and the blocks await their erases. -/
def Dev.secureStart (d : Dev) (id : Nat) (owner : Option (Nat × Nat)) : Dev :=
  let d := d.dropVersion id
  let slots := ((d.store.ledger.filter fun l => l.1 == id).map (·.2.2)).eraseDups
  let here := slots.filter fun s => (d.store.sled (slotSled s)).reads
  let away := slots.filter fun s => !(d.store.sled (slotSled s)).reads
  let parity := d.store.parityCellsOf fun c => slots.contains c.slot
  let paritySlots := parity.filterMap fun n => (d.store.cell n).map (·.slot)
  let hurt := (d.store.stripes.filter fun x => x.cells.any fun n => (d.store.cell n).any fun c => slots.contains c.slot).map (·.cells)
  let d := d.clearCells here
  let d := parity.foldl (fun d n => d.relocate n) d
  let d := d.onStore fun s => s.reparity fun x => hurt.contains x.cells
  let mine := d.store.cells.filter fun c => here.contains c.slot && c.holds.isEmpty && !(d.store.stripes.any fun x => x.cells.contains c.number)
  let d := mine.foldl (fun d c => d.freeCell c.number) d
  let blocks := ((here ++ paritySlots).map blockKey).eraseDups
  let d := (d.store.cells.filter fun c => blocks.contains (blockKey c.slot) && !here.contains c.slot).foldl (fun d c => d.relocate c.number) d
  let d := (List.range 8).foldl Dev.programLazy d
  let d := d.onStore fun s => { s with
    secures := s.secures ++ [{ id := id, cells := here ++ paritySlots, blocks := blocks, queue := owner, absent := !away.isEmpty }]
    sleds := s.sleds.zipIdx.map fun p => { p.1 with eraseOnRejoin := p.1.eraseOnRejoin ++ away.filter fun s => slotSled s == p.2 } }
  if blocks = [] then (d.pushSync (partitionOf id) (.secureEnd id)).2 else d

/-- A block of secure discards has been erased, or could not be (R434 step 3, R436); SECURE_END follows the last. -/
def Dev.secureBlock (d : Dev) (key : Nat) (ok : Bool) : Dev :=
  let hit := fun (x : Secure) => x.blocks.contains key
  let ending := (d.store.secures.filter fun x => hit x && (x.blocks.erase key).isEmpty).map (·.id)
  let d := d.onStore fun s => { s with secures := updWhere s.secures hit fun x => { x with
    blocks := x.blocks.erase key
    retiredCell := x.retiredCell || !ok
    erased := x.erased + (if ok then (x.cells.filter fun c => blockKey c == key).length else 0) } }
  ending.foldl (fun d id => (d.pushSync (partitionOf id) (.secureEnd id)).2) d

/-- SECURE_END is durable: the command completes (R434 step 5, R436, R462). -/
def Dev.secureDone (d : Dev) (id : Nat) : Dev :=
  match d.store.secures.find? fun x => x.id == id with
  | none => d
  | some x =>
    let d := d.onStore fun s => { s with secures := s.secures.filter fun y => y.id != id }
    let st := if x.retiredCell then St.STO_SECURE_RETIRED else if x.absent then St.MED_SECURE_ABSENT_SLED else St.SUCCESS
    match x.queue with
    | some (q, tag) => d.lbxFinish q tag st x.erased
    | none => d

/-! ### Journal pages reaching media (R422, R403) -/

/-- Queue and tag of the SECURE_DISCARD whose SECURE_BEGIN a record is. -/
def Dev.secureOwner (d : Dev) (at_ : Nat × Nat) : Option (Nat × Nat) :=
  d.lbx.queues.findSome? fun x => (x.cmds.find? fun c => c.sub.opcode == 4 && c.left.contains at_).map fun c => (x.number, c.sub.tag)

/-- The effect of a record whose page is programmed in every copy (R403, R422, Table 14.6). -/
def Dev.applyRec (d : Dev) (p : Nat) (e : JEntry) : Dev :=
  match e.what with
  | .commit o => d.commitObj o
  | .discard id _ => d.dropVersion id
  | .preDiscard id ps =>
    (d.dropVersion id).onStore fun s => { s with
      puts := updWhere s.puts (fun w => w.obj.id == id && w.obj.putSeq == ps) fun w => { w with pre := 2 } }
  | .secureBegin id =>
    let owner := d.secureOwner (p, e.seq)
    if d.store.securing id then
      match owner with
      | some (q, tag) => d.lbxFinish q tag St.STO_SECURE_PENDING 0
      | none => d
    else
      let d := match owner with
        | some (q, tag) => d.onCmd q tag fun c => { c with phase := .securing, left := [] }
        | none => d
      d.secureStart id owner
  | .secureEnd id => d.secureDone id
  | .checkpoint _ => d.onPart p fun x => { x with journal := [], bytesSince := 0, checkpointAt := d.now }
  | .pin .. | .dset .. | .streamCells .. | .foldRec .. | .cellMove .. | .cellFree .. | .ledger .. | .dirUpdate ..
  | .mediaState .. | .cleanLoss => d

/-- Records of a list not among those given. -/
def stripLeft (pairs l : List (Nat × Nat)) : List (Nat × Nat) := l.filter fun x => !pairs.contains x

/-- A command of a queue that awaits none but the records given. -/
def Cmd.readyAfter (pairs : List (Nat × Nat)) (c : Cmd) : Bool :=
  c.phase == .committing && !c.left.isEmpty && (stripLeft pairs c.left).isEmpty

/-- Commands, pigeonholes and settle replies that awaited no more records complete (R422, R425, R518). -/
def Dev.releaseLeft (d : Dev) (pairs : List (Nat × Nat)) : Dev :=
  let done := d.lbx.queues.flatMap fun x => (x.cmds.filter (Cmd.readyAfter pairs)).map fun c => (x.number, c.sub.tag, c.result)
  let strip := fun (x : Queue) => { x with cmds := x.cmds.map fun c => { c with left := stripLeft pairs c.left } }
  let d := { d with lbx := { d.lbx with queues := d.lbx.queues.map strip } }
  let d := done.foldl (fun d x => d.lbxFinish x.1 x.2.1 St.SUCCESS x.2.2) d
  let ready := d.store.waits.filter fun w => (stripLeft pairs w.left).isEmpty
  let rest := (d.store.waits.filter fun w => !(stripLeft pairs w.left).isEmpty).map fun w => { w with left := stripLeft pairs w.left }
  let d := d.onStore fun s => { s with waits := rest }
  let d := ready.foldl (fun d w => d.answer w.hole { status := w.status, detail := w.detail, body := w.body }) d
  d.settleRelease pairs

/-- PUTs whose PRE_DISCARD has just become durable go on (R426). -/
def Dev.resumePuts (d : Dev) (recs : List JEntry) : Dev :=
  recs.foldl (fun d e => match e.what with
    | .preDiscard id ps => (d.store.puts.filter fun w => w.obj.id == id && w.obj.putSeq == ps).foldl (fun d w => d.putNext w.queue w.tag) d
    | _ => d) d

/-- Journal pages of a partition are programmed in every copy being written (R422, R424, R430). -/
def Dev.journalDone (d : Dev) (p : Nat) (recs : List JEntry) : Dev :=
  let d := d.onPart p fun x => { x with
    journal := x.journal ++ recs, bytesSince := x.bytesSince + jBytes recs, clean := recs.any fun e => e.what == .cleanLoss }
  let d := recs.foldl (fun d e => d.applyRec p e) d
  let d := d.onPart p fun x => { x with journal := if recs.any fun e => (match e.what with | .checkpoint _ => true | _ => false) then [] else x.journal }
  (d.releaseLeft (recs.map fun e => (p, e.seq))).resumePuts recs

/-- An earlier program of the same partition and class is under way, and its records come first (R403). -/
def Store.journalBehind (s : Store) (x : Program) : Bool :=
  match x.work with
  | .page .. => false
  | .journal p recs => s.programs.any fun y => match y.work with
    | .journal p2 recs2 =>
      p2 == p && decide (y.number < x.number) && (recs2.any fun e => e.what.isLazy) == (recs.any fun e => e.what.isLazy)
    | .page .. => false

/-- A page's program failed: its block is retired and the page is written again elsewhere (R449). -/
def Dev.pageFailed (d : Dev) (x : Program) (q tag : Nat) : Dev :=
  let d := d.onStore fun s => { s with programs := s.programs.filter fun y => y.number != x.number }
  let d := match x.block with
    | some key => d.retireBlock key
    | none => d
  d.putNext q tag

/-- A journal page's program failed: its block is retired and the program is made again, in its place (R422, R449). -/
def Dev.journalFailed (d : Dev) (p : Nat) : Dev :=
  let die := d.servingDie p
  let d := d.onCtrs die fun c => { c with blocksRetired := c.blocksRetired + 1 }
  d.report St.MED_BLOCK_RETIRED { kind := 0x08, die := die }

/-- NAND_PROGRAM_COMPLETE (R422, R449): journal pages take effect; a PUT's page is written; a failure retires the block. -/
def nandProgramCompleteEffect (program : Nat) (ok : Bool) (m : Mem) (d : Dev) : Dev :=
  match d.store.programs.find? fun x => x.number == program with
  | none => d
  | some x =>
    if d.store.journalBehind x then d
    else
      let drop := fun (d : Dev) => d.onStore fun s => { s with programs := s.programs.filter fun y => y.number != program }
      let d := match x.work, ok with
        | .journal p recs, true => (drop d).journalDone p recs
        | .journal p _, false => d.journalFailed p
        | .page q tag, true => (drop d).pageDone q tag
        | .page q tag, false => d.pageFailed x q tag
      Dev.lbxSettle m d

/-- A NAND program completing or failing, retiring the block on failure. -/
def execNandProgramComplete (program : Nat) (ok : Bool) (s : State) : Host.Outcome State Fault Refusal :=
  .next (s.put (nandProgramCompleteEffect program ok s.mem s.dev))

/-- JOURNAL_PAGE_TIMER (R422): 20 µs after the first record of a journal page, it goes to programming. -/
def journalPageTimerEffect (partition : Nat) (_m : Mem) (d : Dev) : Dev :=
  match (d.part partition).syncSince with
  | none => d
  | some t => if d.seqs.powerFailAt.isSome then d else (d.until (t + 20000)).programSync partition

/-- The 20 µs of a journal page's first record running out. -/
def execJournalPageTimer (partition : Nat) (s : State) : Host.Outcome State Fault Refusal :=
  .next (s.put (journalPageTimerEffect partition s.mem s.dev))

/-- NAND_ERASE_COMPLETE (R433, R434, R443, R449): a block whose cells are all free is erased and verified, or retired. -/
def nandEraseCompleteEffect (block : Nat) (ok : Bool) (m : Mem) (d : Dev) : Dev :=
  let key := blockKey block
  if d.erasable key = false then d
  else
    let d := if ok then d.eraseBlock key else d.retireBlock key
    Dev.lbxSettle m (d.secureBlock key ok)

/-- A block erase completing or failing. -/
def execNandEraseComplete (block : Nat) (ok : Bool) (s : State) : Host.Outcome State Fault Refusal :=
  .next (s.put (nandEraseCompleteEffect block ok s.mem s.dev))

end Sys2Proof.Machine
end

