-- ==== Sys2Proof/Machine/Sleds.lean ====
section
/-! DEFINITION. Flash media and sleds (15): reads and their ladder, folds, refresh, wear, garbage, checkpoints, stripe groups,
sleds, partitions, and the STO pigeonhole commands. -/

namespace Sys2Proof.Machine

open Sys2Proof

/-! ### Reads (R443 to R446, R454) -/

/-- The starting threshold set (Table 15.3): age in s and programme temperature less present temperature. -/
def startingSet (age : Nat) (dt : Int) : Nat :=
  let col := if dt < -20 then 0 else if dt < 0 then 1 else if dt < 20 then 2 else 3
  let row := if age < 3600 then [1, 0, 0, 2] else if age < 86400 then [2, 1, 1, 3] else if age < 604800 then [4, 3, 3, 5]
    else if age < 2592000 then [6, 5, 5, 7] else if age < 15552000 then [9, 8, 7, 10] else [12, 11, 10, 13]
  row.getD col 0

/-- The set a read of a cell starts at (R444). -/
def Store.startSet (s : Store) (c : Cell) (now : Nat) : Nat :=
  startingSet (now / 1000000000 - c.programmedAt) (c.temp - (s.sled (slotSled c.slot)).temp)

/-- A read of a cell decoded at a step of Table 15.4: counters, the block's raise, the refresh due, and a rebuilt page's report. -/
def Dev.ladder (d : Dev) (cell : Nat) (r : ReadOutcome) : Dev :=
  match d.store.cell cell with
  | none => d
  | some c =>
    let die := slotSled c.slot / 2
    let refresh := fun (d : Dev) => (d.onStore fun s => s.onCell cell fun c => { c with refreshBy := some (d.now + 60 * second) }).onStore
      fun s => s.onBlock (blockKey c.slot) fun b => { b with raise := true }
    if r.step ≤ 1 then d
    else if r.step = 2 then d.onCtrs die fun k => { k with retryReads := k.retryReads + 1 }
    else if r.step = 3 then refresh (d.onCtrs die fun k => { k with softReads := k.softReads + 1 })
    else if r.step = 4 then
      let d := refresh (d.onCtrs die fun k => { k with degradedReads := k.degradedReads + 1 })
      d.report St.MED_PAGE_REBUILT (lunUnit c.slot) (BitVec.ofNat 64 c.slot)
    else d.report St.STO_READ_FAILED (lunUnit c.slot) (BitVec.ofNat 64 c.slot)

/-- NAND_READ_COMPLETE (R445, R454): the read's step of the ladder. One that no step decoded fails the item it was for. -/
def nandReadCompleteEffect (read : Nat) (outcome : ReadOutcome) (_m : Mem) (d : Dev) : Dev :=
  match d.store.reads.find? fun x => x.number == read with
  | none => d
  | some x =>
    let d := (d.onStore fun s => { s with reads := s.reads.filter fun y => y.number != read }).ladder x.cell outcome
    match x.item with
    | some i =>
      if 4 < outcome.step ∧ (d.entry i).any (fun e => e.state == .readIssued) then
        d.itemFail i { status := St.SRT_LOCAL_READ, detail := St.STO_READ_FAILED.toNat }
      else d
    | none => d

/-- A page read from NAND, decoded or climbing the recovery ladder. -/
def execNandReadComplete (read : Nat) (outcome : ReadOutcome) (s : State) : Host.Outcome State Fault Refusal :=
  .next (s.put (nandReadCompleteEffect read outcome s.mem s.dev))

/-- PATROL_READ (R446): a retry depth of 4 or more, or a later step, refreshes the cell. -/
def patrolReadEffect (cell : Nat) (outcome : ReadOutcome) (_m : Mem) (d : Dev) : Dev :=
  match d.store.cell cell with
  | none => d
  | some c =>
    if d.store.slotReads c.slot = false then d
    else
      let d := (d.ladder cell outcome).onStore fun s => s.onCell cell fun c => { c with patrolledAt := d.now }
      if outcome.step = 2 ∧ 4 ≤ outcome.depth then
        d.onStore fun s => s.onCell cell fun c => { c with refreshBy := some (c.refreshBy.getD (d.now + 60 * second)) }
      else d

/-- A patrol read of a cell. -/
def execPatrolRead (cell : Nat) (outcome : ReadOutcome) (s : State) : Host.Outcome State Fault Refusal :=
  .next (s.put (patrolReadEffect cell outcome s.mem s.dev))

/-- CELL_REFRESH (R410, R445): a cell due for refresh moves whole. -/
def cellRefreshEffect (cell : Nat) (_m : Mem) (d : Dev) : Dev :=
  if (d.store.cell cell).any (·.refreshBy.isSome) then d.relocate cell else d

/-- A cell refreshed into a new slot. -/
def execCellRefresh (cell : Nat) (s : State) : Host.Outcome State Fault Refusal :=
  .next (s.put (cellRefreshEffect cell s.mem s.dev))

/-- Erase counts of the blocks of a LUN that are not retired. -/
def Store.lunErases (s : Store) (lun : Nat) : List (Nat × Nat) :=
  let x := s.sled (slotSled lun)
  let keys := (List.range x.planes).flatMap fun p => (List.range x.blocks).map fun b => lun + p * 2 ^ 19 + b * 64
  (keys.map s.block).filterMap fun b => if b.retired then none else some (b.key, b.erases)

/-- WEAR_LEVEL (R448): counts of a LUN differ by more than 5 % of the endurance, and the full block with the lowest count has its
cells moved. -/
def wearLevelEffect (lun : Nat) (_m : Mem) (d : Dev) : Dev :=
  let key := lunKey lun
  let s := d.store
  let x := s.sled (slotSled key)
  let all := s.lunErases key
  let hi := all.foldl (fun a e => max a e.2) 0
  let lo := all.foldl (fun a e => min a e.2) hi
  if 20 * (hi - lo) ≤ x.endurance then d
  else
    let full := all.filter fun e => decide (x.cellsPerBlock ≤ (s.block e.1).used)
    match full.foldl (fun (b : Option (Nat × Nat)) e => match b with
      | none => some e
      | some y => if e.2 < y.2 then some e else some y) none with
    | none => d
    | some e => (s.cells.filter fun c => blockKey c.slot == e.1).foldl (fun d c => d.relocate c.number) d

/-- Wear levelling of one LUN. -/
def execWearLevel (lun : Nat) (s : State) : Host.Outcome State Fault Refusal := .next (s.put (wearLevelEffect lun s.mem s.dev))

/-! ### Checkpoints (R424) -/

/-- CHECKPOINT (R424): 60 s after the last, or once 1 GiB of journal has been written. -/
def checkpointEffect (partition : Nat) (_m : Mem) (d : Dev) : Dev :=
  let x := d.part partition
  if x.ready = false ∨ 8 ≤ partition then d
  else
    let d := if 2 ^ 30 ≤ x.bytesSince then d else d.until (x.checkpointAt + 60 * second)
    (d.pushSync partition (.checkpoint 0)).2

/-- A partition's checkpoint. -/
def execCheckpoint (partition : Nat) (s : State) : Host.Outcome State Fault Refusal :=
  .next (s.put (checkpointEffect partition s.mem s.dev))

/-! ### Folds (R412, R450 to R453) -/

/-- A member can take a stripe cell: present, not lost (R453). -/
def Store.memberPresent (s : Store) (x : Member) : Bool := !x.lost && x.absentSince.isNone && s.slotReads x.lun

/-- Group of a die's stripe engines that folds, the lowest: all members present, each with a free cell (R453). -/
def Store.foldGroup (s : Store) (die : Nat) : Option Group :=
  s.groups.find? fun g => g.number % 8 == die && g.toRebuild.isEmpty &&
    g.members.all fun x => s.memberPresent x && (s.sled (slotSled x.lun)).allocates && (s.pickBlock x.lun true).isSome

/-- A stripe cell allocated on each member, in member order. -/
def Store.stripeCells (s : Store) (now : Nat) : List Member → Option (List Nat × Store)
  | [] => some ([], s)
  | x :: r => match s.allocOn x.lun true now with
    | none => none
    | some (c, s) => match s.stripeCells now r with
      | none => none
      | some (cs, s) => some (c :: cs, s)

/-- n stripes allocated on a group. -/
def Store.newStripes (s : Store) (g : Group) (now : Nat) : Nat → Option (List (List Nat) × Store)
  | 0 => some ([], s)
  | n + 1 => match s.stripeCells now g.members with
    | none => none
    | some (cs, s) => match s.newStripes g now n with
      | none => none
      | some (r, s) => some (cs :: r, s)

/-- Oldest objects that fit beside the first in room pages. -/
def takeFitting : Nat → List Obj → List Obj
  | _, [] => []
  | room, o :: r => if objPages o.stored.length ≤ room then o :: takeFitting (room - objPages o.stored.length) r else []

/-- Holds of one object whose page i lies at page `pos` of a run of cells: cell by cell. -/
def foldHolds (o : Obj) (cells : List Nat) : Nat → Nat → Nat → Nat → List (Nat × Hold)
  | 0, _, _, _ => []
  | fuel + 1, pos, i, left =>
    if left = 0 then []
    else
      let k := min (256 - pos % 256) left
      (cells.getD (pos / 256) 0, { id := o.id, putSeq := o.putSeq, first := i, at_ := pos % 256, count := k }) ::
        foldHolds o cells fuel (pos + k) (i + k) (left - k)

/-- Objects placed one after another over data cells: (cell, hold) pairs and each object's first page. -/
def foldPlan (cells : List Nat) : Nat → List Obj → List (Nat × Hold) × List (Obj × Nat)
  | _, [] => ([], [])
  | pos, o :: r =>
    let n := objPages o.stored.length
    let y := foldPlan cells (pos + n) r
    (foldHolds o cells (n + 1) pos 0 n ++ y.1, (o, pos) :: y.2)

/-- The cells of new stripes hold their pages, linked by NEXT, with their parity (R412, R413, R453). -/
def Store.writeStripes (s : Store) (g : Nat) (stripes : List (List Nat)) (plan : List (Nat × Hold)) : Store :=
  let data := stripes.flatMap fun x => x.take s.k
  let parity := stripes.flatMap fun x => x.drop s.k
  let next := fun n => match data.idxOf? n with
    | some i => data.getD (i + 1) 0xFFFFFFFF
    | none => 0xFFFFFFFF
  let cells := s.cells.map fun c =>
    if parity.contains c.number then { c with state := .parity }
    else if data.contains c.number then
      { c with state := .full, next := next c.number, holds := (plan.filter fun p => p.1 == c.number).map (·.2) }
    else c
  let s := { s with cells := cells, stripes := s.stripes ++ stripes.map fun x => ({ group := g, cells := x } : Stripe) }
  s.reparity fun x => stripes.contains x.cells

/-- An object has been folded: its new place, its FOLD record, its directory pages (R412, R419). -/
def Dev.folded (d : Dev) (o : Obj) (cell page : Nat) : Dev :=
  let d := d.onObj o.id fun x => { x with inSlc := false, firstCell := cell, firstPage := page }
  (d.pushLazy (partitionOf o.id) (.foldRec o.id o.putSeq cell page)).dirTouched o.id

/-- FOLD (R412, R450 to R453): the oldest committed objects in the die's SLC cells move into stripes of a group. -/
def foldEffect (die : Nat) (_m : Mem) (d : Dev) : Dev :=
  let s := d.store
  let objs := s.objs.filter fun o => o.inSlc && cellDie o.firstCell == die && (s.objReads o).isSome
  match s.foldGroup die, objs with
  | some g, o :: r =>
    let room := s.k * 256
    if room = 0 ∨ d.dieUp die = false then d
    else
      let n := (objPages o.stored.length + room - 1) / room
      let objs := o :: takeFitting (n * room - objPages o.stored.length) r
      match s.newStripes g d.now n with
      | none => d
      | some (stripes, s) =>
        let data := stripes.flatMap fun x => x.take s.k
        let plan := foldPlan data 0 objs
        let d := objs.foldl (fun d o => d.staleHolds o.id o.putSeq) (d.onStore fun _ => s)
        let d := plan.2.foldl (fun d p => d.folded p.1 (data.getD (p.2 / 256) 0) (p.2 % 256)) d
        (d.onStore fun s => s.writeStripes g.number stripes plan.1).onStore Store.recount
  | _, _ => d

/-- SLC objects of a die folded into a stripe of native cells. -/
def execFold (die : Nat) (s : State) : Host.Outcome State Fault Refusal := .next (s.put (foldEffect die s.mem s.dev))

/-! ### Garbage collection (R412, R420, R432) -/

/-- Versions that hold pages without being in effect yet: PUTs under way and COMMIT records not yet programmed. -/
def Dev.comingObjs (d : Dev) : List Obj :=
  let commits := fun (l : List JEntry) => l.filterMap fun e => match e.what with
    | .commit o => some o
    | _ => none
  d.store.puts.map (·.obj) ++ (d.store.parts.flatMap fun p => commits p.sync) ++ d.store.programs.flatMap fun x => match x.work with
    | .journal _ recs => commits recs
    | .page .. => []

/-- Cells in use by write streams, and the second copies of those. -/
def Store.streamCells (s : Store) : List Nat :=
  let own := s.streams.flatMap fun x => x.cell.toList ++ x.reserved
  own ++ own.filterMap fun n => (s.cell n).map (·.mirror)

/-- No page of a cell is live or coming. -/
def Dev.deadCell (d : Dev) (coming : List Obj) (c : Cell) : Bool :=
  c.holds.all fun h => !((d.store.objs ++ coming).any fun o => o.id == h.id && o.putSeq == h.putSeq)

/-- The FOLD record of what a slot held is not yet durable (R412). -/
def Dev.foldOwed (d : Dev) (slot : Nat) : Bool :=
  d.lazyPending.any fun r => match r with
    | .foldRec id ps _ _ => d.store.ledger.any fun l => l.1 == id && l.2.1 == ps && l.2.2 == slot
    | _ => false

/-- Cells of a die that garbage collection frees: SLC cells and whole stripes with nothing live. -/
def Dev.garbageCells (d : Dev) (die : Nat) : List Nat :=
  let s := d.store
  let coming := d.comingObjs
  let dead := fun (n : Nat) => (s.cell n).any fun c => d.deadCell coming c && !d.foldOwed c.slot
  let striped := s.stripes.flatMap (·.cells)
  let slc := (s.cells.filter fun c => cellDie c.number == die && !striped.contains c.number && !s.streamCells.contains c.number && dead c.number).map (·.number)
  let stripes := (s.stripes.filter fun x => x.group % 8 == die && (x.cells.take s.k).all dead).flatMap (·.cells)
  slc ++ stripes

/-- Cell of a die to compact: some pages live and some garbage, none pinned, the fewest valid pages (R420). -/
def Dev.compactCell (d : Dev) (die : Nat) : Option Cell :=
  let s := d.store
  let coming := d.comingObjs
  let ok := s.cells.filter fun c => cellDie c.number == die && c.pinnedPages == 0 && decide (0 < c.validPages) &&
    !s.streamCells.contains c.number && (s.ledger.any fun l => l.2.2 == c.slot) &&
    c.holds.all fun h => !(coming.any fun o => o.id == h.id && o.putSeq == h.putSeq)
  ok.foldl (fun (b : Option Cell) c => match b with
    | none => some c
    | some x => if c.validPages < x.validPages then some c else some x) none

/-- GARBAGE_COLLECTION (R420, R432): cells with nothing live are freed; with none, one cell is compacted. -/
def garbageCollectionEffect (die : Nat) (_m : Mem) (d : Dev) : Dev :=
  if d.dieUp die = false then d
  else match d.garbageCells die with
    | [] => match d.compactCell die with
      | none => d
      | some c => ((c.holds.map (·.id)).eraseDups).foldl (fun d id => d.rehome id) d
    | cs =>
      let d := d.onStore fun s => { s with stripes := s.stripes.filter fun x => !(x.cells.all fun n => cs.contains n) }
      cs.foldl (fun d n => d.freeCell n) d

/-- Garbage collection of one die. -/
def execGarbageCollection (die : Nat) (s : State) : Host.Outcome State Fault Refusal :=
  .next (s.put (garbageCollectionEffect die s.mem s.dev))

/-! ### Stripe groups (R452, R455, R456) -/

/-- LUN keys of a sled. -/
def Store.lunsOf (s : Store) (k : Nat) : List Nat :=
  let x := s.sled k
  (List.range x.lunsPerChannel).flatMap fun l => (List.range 8).map fun c => mkSlot k c l 0 0 0

/-- One group picked from LUNs left: sled by sled from a starting sled on, at most m of a sled, until n are taken. -/
def pickGroup (m n : Nat) : List Nat → List (Nat × List Nat) → List Nat → Option (List Nat × List (Nat × List Nat))
  | [], left, got => if got.length = n then some (got, left) else none
  | k :: ks, left, got =>
    let avail := ((left.find? fun p => p.1 == k).map (·.2)).getD []
    let take := min (min m avail.length) (n - got.length)
    let left := left.map fun p => if p.1 == k then (k, p.2.drop take) else p
    pickGroup m n ks left (got ++ avail.take take)

/-- Sleds from one on, in turn. -/
def turnFrom (sleds : List Nat) (i : Nat) : List Nat :=
  let n := max 1 sleds.length
  sleds.drop (i % n) ++ sleds.take (i % n)

/-- Groups formed in number order, as many as the LUNs make (R452): one LUN of a sled where the sleds suffice. -/
def formGroups (k m s : Nat) (sleds : List Nat) : Nat → Nat → List (Nat × List Nat) → List Group
  | 0, _, _ => []
  | fuel + 1, g, left =>
    let n := k + m + s
    let per := if n ≤ (left.filter fun p => !p.2.isEmpty).length then 1 else m
    match pickGroup per n (turnFrom sleds (g + 1)) left [] with
    | none => []
    | some (luns, left) =>
      let grp : Group :=
        { number := g, members := (luns.take (k + m)).map fun l => { lun := l }, standin := if s = 1 then luns.getLast? else none }
      grp :: formGroups k m s sleds fuel (g + 1) left

/-- A group has more than M members lost or absent (R456). -/
def Store.groupLost (s : Store) (g : Group) : Bool := decide (s.m < (g.members.filter fun x => !s.memberPresent x).length)

/-- Groups that have come to be beyond repair report MED_GROUP_LOST (R456). -/
def Dev.reportGroups (d : Dev) (before : List Group) (was : Store) : Dev :=
  (d.store.groups.filter fun g => d.store.groupLost g && !((before.find? fun b => b.number == g.number).any was.groupLost)).foldl
    (fun d g => d.report St.MED_GROUP_LOST { kind := 0x08, die := g.number % 8 } (BitVec.ofNat 64 g.number)) d

/-- d with a group changed. -/
def Dev.onGroup (d : Dev) (n : Nat) (f : Group → Group) : Dev :=
  d.onStore fun s => { s with groups := updWhere s.groups (fun g => g.number == n) f }

/-- Cells of a group's stripes at a place, in stripe order. -/
def Store.placeCells (s : Store) (g place : Nat) : List Nat :=
  (s.stripes.filter fun x => x.group == g).filterMap fun x => x.cells[place]?

/-- The stand-in takes a lost member's place; its cells await rebuilding, and the old slots await an erase should their sled
return (R455, R458). -/
def Dev.takePlace (d : Dev) (g : Group) (place lun : Nat) : Dev :=
  let cells := d.store.placeCells g.number place
  let slots := cells.filterMap fun n => (d.store.cell n).map (·.slot)
  let d := d.onGroup g.number fun x => { x with
    members := x.members.set place { lun := lun }
    standin := none
    toRebuild := x.toRebuild ++ cells.map fun n => (place, n) }
  let d := slots.foldl (fun d s => d.onSled (slotSled s) fun x => { x with eraseOnRejoin := x.eraseOnRejoin ++ [s] }) d
  d.onCtrs (g.number % 8) fun c => { c with standinTakeovers := c.standinTakeovers + 1 }

/-- A member is lost now: declared, its LUN retired, or its sled absent for STANDIN_DELAY (R455). -/
def Dev.memberLostAt (d : Dev) (x : Member) : Option Nat :=
  if x.lost ∨ d.store.retiredLuns.contains x.lun then some d.now
  else (d.store.sled (slotSled x.lun)).absentSince.map fun t => t + d.store.standinDelay * second

/-- STANDIN_TAKEOVER (R455, R456). -/
def standinTakeoverEffect (group place : Nat) (_m : Mem) (d : Dev) : Dev :=
  match d.store.groups.find? fun g => g.number == group with
  | none => d
  | some g => match g.members[place]? with
    | none => d
    | some x => match d.memberLostAt x with
      | none => d
      | some t =>
        let d := d.until t
        match g.standin with
        | some l => d.takePlace g place l
        | none =>
          if x.lost then d
          else
            let was := d.store
            let d := d.onGroup group fun y => { y with members := y.members.set place { x with lost := true } }
            (d.report St.MED_NO_STANDIN { kind := 0x08, die := group % 8 } (BitVec.ofNat 64 group)).reportGroups was.groups was

/-- A stand-in taking a lost member's place, or the group left without one. -/
def execStandinTakeover (group place : Nat) (s : State) : Host.Outcome State Fault Refusal :=
  .next (s.put (standinTakeoverEffect group place s.mem s.dev))

/-- REBUILD (R454, R455): the next cell of a group is rebuilt into its member's LUN from K readable cells of its stripe. -/
def rebuildEffect (group : Nat) (_m : Mem) (d : Dev) : Dev :=
  match d.store.groups.find? fun g => g.number == group with
  | none => d
  | some g => match g.toRebuild with
    | [] => d
    | (place, c) :: rest =>
      let done := fun (d : Dev) => d.onGroup group fun x => { x with toRebuild := rest }
      match d.store.cell c, g.members[place]?, d.store.stripeOf c with
      | some _, some x, some st =>
        if d.store.stripeReads st = false then d
        else match d.store.allocOn x.lun true d.now with
          | none => d
          | some (f, s) =>
            let d := done (d.onStore fun _ => s.takeSlot f c d.now)
            d.pushLazy (cellDie c) (.cellMove c (((d.store.cell c).map (·.slot)).getD 0))
      | _, _, _ => done d

/-- The next cell of a group rebuilt into its stand-in. -/
def execRebuild (group : Nat) (s : State) : Host.Outcome State Fault Refusal := .next (s.put (rebuildEffect group s.mem s.dev))

/-! ### Partitions (R407, R408, R431) -/

/-- Both journal copies of a partition can be written (R407). -/
def Dev.twoCopies (d : Dev) (p : Nat) : Bool :=
  let has := fun (die : Nat) => (d.store.sled (2 * die)).reads || (d.store.sled (2 * die + 1)).reads
  has p && has ((p + 4) % 8)

/-- A partition whose journal has come to be written in one copy reports STO_JOURNAL_SINGLE (R407); a start looks once its
sleds are admitted. -/
def Dev.journalCopies (d : Dev) : Dev :=
  if d.start = .starting then d
  else (List.range 8).foldl (fun d p =>
    let single := !d.twoCopies p
    let was := (d.part p).single
    let d := d.onPart p fun x => { x with single := single }
    if single ∧ !was ∧ d.store.started then d.report St.STO_JOURNAL_SINGLE (storeUnit (d.servingDie p)) (BitVec.ofNat 64 p) else d) d

/-- PARTITION_TAKEOVER (R407, R408): a partition whose die does not run moves to its chord die, or back; with both down it is
served by none. -/
def partitionTakeoverEffect (partition : Nat) (_m : Mem) (d : Dev) : Dev :=
  let x := d.part partition
  if 8 ≤ partition ∨ d.store.started = false ∨ (x.unserved = false ∧ d.dieUp x.die) then d
  else
    let chord := (partition + 4) % 8
    if d.dieUp partition then d.onPart partition fun x => { x with die := partition, unserved := false }
    else if d.dieUp chord then d.onPart partition fun x => { x with die := chord, unserved := false }
    else if x.unserved then d
    else (d.onPart partition fun x => { x with unserved := true }).report St.STO_PARTITION_UNSERVED (storeUnit 0) (BitVec.ofNat 64 partition)

/-- The chord die taking over a partition. -/
def execPartitionTakeover (partition : Nat) (s : State) : Host.Outcome State Fault Refusal :=
  .next (s.put (partitionTakeoverEffect partition s.mem s.dev))

/-! ### Sleds (R457 to R462) -/

/-- A power domain of a die switched (R560, Table 19.5). -/
def Dev.setDomain (d : Dev) (die dom : Nat) (on : Bool) : Dev :=
  d.onDie die fun x => { x with domains := if on then x.domains ||| ((1 : BitVec 15) <<< dom) else x.domains &&& ~~~((1 : BitVec 15) <<< dom) }

/-- NP domain of a sled slot switched (R457, R459, Table 19.5). -/
def Dev.sledPower (d : Dev) (slot : Nat) (on : Bool) : Dev := d.setDomain (slot / 2) (11 + slot % 2) on

/-- A sled's state and LEDs when its NP domain goes off (Table 15.5). -/
def Dev.sledOff (d : Dev) (slot : Nat) (st : SledState) (faultLed : Bool) : Dev :=
  (d.onSled slot fun x => { x with
    state := st, ledPower := 0, ledFault := faultLed, prepare := none, admission := none,
    absentSince := some (x.absentSince.getD d.now) }).sledPower slot false

/-- An admission begins: the NP domain is powered (R457 step 1). -/
def Dev.admitBegin (d : Dev) (slot mode : Nat) (erase : Bool) (ph : Option Nat) : Dev :=
  (d.onSled slot fun x => { x with state := .admitting, admission := some (mode, erase, ph) }).sledPower slot true

/-- A sled's blocks are erased: cells on it are gone. -/
def Dev.eraseSled (d : Dev) (slot : Nat) : Dev :=
  let keys := (d.store.blocks.filter fun b => slotSled b.key == slot && decide (0 < b.used) && !b.retired).map (·.key)
  let gone := (d.store.cells.filter fun c => slotSled c.slot == slot).map (·.number)
  let d := d.onStore fun s => { s with cells := s.cells.filter fun c => !gone.contains c.number }
  keys.foldl Dev.eraseBlock d

/-- Cells recorded for erase at rejoin are erased (R458, R462). -/
def Dev.eraseOwed (d : Dev) (slot : Nat) : Dev :=
  let owed := (d.store.sled slot).eraseOnRejoin
  let keys := (owed.map blockKey).eraseDups
  let d := (d.onSled slot fun x => { x with eraseOnRejoin := [] }).ledgerDrop fun s => owed.contains s
  (keys.filter fun k => !(d.store.cells.any fun c => blockKey c.slot == k)).foldl Dev.eraseBlock d

/-- Why the label of a sled refuses an admission (R457, Table 15.9). -/
def Store.labelRefusal (s : Store) (slot mode : Nat) (erase : Bool) : Option Status :=
  match (s.sled slot).label with
  | none => if mode = 0 then some St.MED_SLED_FOREIGN else none
  | some (id, at_) =>
    if erase ∧ mode ≠ 0 then none
    else if id ≠ s.identity then some St.MED_SLED_FOREIGN
    else if at_ ≠ slot then some St.MED_SLED_SLOT
    else if mode = 0 then none
    else some St.MED_SLED_FOREIGN

/-- Groups with a member on a sled, and the places. -/
def Store.placesOn (s : Store) (slot : Nat) : List (Group × Nat) :=
  s.groups.flatMap fun g => (g.members.zipIdx.filter fun p => slotSled p.1.lun == slot).map fun p => (g, p.2)

/-- A member's place is filled by its LUN anew: its cells await rebuilding (R457). -/
def Dev.renewPlace (d : Dev) (group place : Nat) : Dev :=
  d.onGroup group fun x => { x with
    members := x.members.modify place fun y => { lun := y.lun }
    toRebuild := x.toRebuild ++ (d.store.placeCells group place).map fun n => (place, n) }

/-- The stand-in of a group, where it has one, takes a place (R460). -/
def Dev.evacuatePlace (d : Dev) (p : Group × Nat) : Dev :=
  match d.store.groups.find? fun g => g.number == p.1.number with
  | none => d
  | some g => match g.standin with
    | some l => d.takePlace g p.2 l
    | none => d

/-- The sled takes its place in the store (R457, R458): a rejoined member is present again, a replaced one is rebuilt, an added
sled's LUNs are free. -/
def Dev.joinSled (d : Dev) (slot mode : Nat) (erase : Bool) : Dev :=
  let d := if erase ∧ mode ≠ 0 then d.eraseSled slot else d
  let d := d.onSled slot fun x => { x with
    state := .inService, label := some (d.store.identity, slot), ledPower := 1, ledFault := false, admission := none, absentSince := none }
  let luns := d.store.lunsOf slot
  let d := match mode with
    | 0 => d.eraseOwed slot
    | 1 => (d.store.placesOn slot).foldl (fun (d : Dev) (p : Group × Nat) => d.renewPlace p.1.number p.2) d
    | _ => d.onStore fun s => { s with freeLuns := s.freeLuns ++ luns.filter fun l => !s.freeLuns.contains l }
  d.journalCopies

/-- SLED_ADMISSION_COMPLETE (R438, R439, R457, R458, Table 15.5); the descriptor of a sled on an isolated bus is not read (R627). -/
def sledAdmissionCompleteEffect (slot : Nat) (outcome : AdmitOutcome) (_m : Mem) (d : Dev) : Dev :=
  let x := d.store.sled slot
  match x.admission with
  | none => d
  | some (mode, erase, ph) =>
    let bad := fun (st : Status) => ((d.sledOff slot .failed true).journalCopies).answerTo ph (fail st)
    if x.present = false ∨ d.busIsolated (slot / 2) (slot % 2) then bad St.MED_SLED_DESCRIPTOR
    else match outcome with
      | .partUnsupported => bad St.MED_PART_UNSUPPORTED
      | .badDescriptor => bad St.MED_SLED_DESCRIPTOR
      | .trainingFailed => bad St.MED_SLED_TRAINING
      | .ok => match d.store.labelRefusal slot mode erase with
        | some st => bad st
        | none => (d.joinSled slot mode erase).answerTo ph {}

/-- The admission of a sled ending. -/
def execSledAdmissionComplete (slot : Nat) (outcome : AdmitOutcome) (s : State) : Host.Outcome State Fault Refusal :=
  .next (s.put (sledAdmissionCompleteEffect slot outcome s.mem s.dev))

/-- A write stream leaves the cells it has on a sled (R460). -/
def Store.offSled (s : Store) (slot : Nat) (y : WStream) : WStream :=
  let here := fun (n : Nat) => (s.cell n).any fun c => slotSled c.slot == slot
  if y.cell.any here then { y with cell := none, page := 0, reserved := [] } else y

/-- Prepare begins (R460): allocation stops, and for an evacuation the stand-ins take the places of the sled's members. -/
def Dev.prepareBegin (d : Dev) (slot : Nat) (evacuate : Bool) (ph : Option Nat) : Dev :=
  let d := d.onSled slot fun x => { x with state := .preparing, prepare := some (evacuate, d.now, ph), ledPower := 2 }
  let d := d.onStore fun s => { s with streams := s.streams.map (s.offSled slot) }
  if evacuate then (d.store.placesOn slot).foldl Dev.evacuatePlace d else d

/-- Prepare is cancelled (Table 15.5): allocation resumes. The command that began it answers MED_SLED_BUSY. -/
def Dev.prepareCancel (d : Dev) (slot : Nat) : Dev :=
  match (d.store.sled slot).prepare with
  | none => d
  | some (_, _, ph) =>
    (d.onSled slot fun x => { x with state := .inService, prepare := none, ledPower := 1 }).answerTo ph (fail St.MED_SLED_BUSY)

/-- SLC cells of a sled move to other sleds (R460, R461). -/
def Dev.leaveSled (d : Dev) (slot : Nat) (p : Cell → Bool) : Dev :=
  let striped := d.store.stripes.flatMap (·.cells)
  (d.store.cells.filter fun c => slotSled c.slot == slot && !striped.contains c.number && p c).foldl
    (fun d c => d.relocate c.number fun k => k != slot) d

/-- Partitions whose journal has cells on a sled take a checkpoint (R407, R460, Table 15.6). -/
def Dev.sledCheckpoints (d : Dev) (slot : Nat) : Dev :=
  [slot / 2, (slot / 2 + 4) % 8].foldl (fun d p => if (d.part p).ready then (d.pushSync p (.checkpoint 0)).2 else d) d

/-- PARK_COMPLETE (R459, R460): the prepared sled's data is elsewhere, and its NP domain goes off. -/
def parkCompleteEffect (slot : Nat) (_m : Mem) (d : Dev) : Dev :=
  match (d.store.sled slot).prepare with
  | none => d
  | some (evacuate, _, ph) =>
    let owed := d.store.groups.any fun g => g.toRebuild.any fun x => (d.store.cell x.2).any fun c => slotSled c.slot == slot
    if evacuate ∧ owed then d
    else
      let d := (d.leaveSled slot fun _ => true).sledCheckpoints slot
      let was := d.store
      let d := (d.sledOff slot .parked false).onSled slot fun x => { x with ledLocate := false }
      ((d.reportGroups was.groups was).journalCopies).answerTo ph {}

/-- A prepared sled powered off. -/
def execParkComplete (slot : Nat) (s : State) : Host.Outcome State Fault Refusal := .next (s.put (parkCompleteEffect slot s.mem s.dev))

/-- SURPRISE_REMOVAL (R461, Table 15.6): channels stop, the NP domain goes off; pages being written go elsewhere; checkpoints of
the journals on the sled follow; groups that lose their stand-in or more than M members say so (R456). -/
def surpriseRemovalEffect (slot : Nat) (_m : Mem) (d : Dev) : Dev :=
  let x := d.store.sled slot
  if 16 ≤ slot ∨ x.present = false then d
  else
    let powered := x.state == .inService || x.state == .preparing || x.state == .admitting
    let d := d.onSled slot fun x => { x with present := false }
    if powered = false then d.sledOff slot .empty false
    else
      let was := d.store
      let waiting := (x.prepare.bind fun p => p.2.2).or (x.admission.bind fun a => a.2.2)
      let d := d.sledOff slot .empty false
      let d := d.report St.MED_SURPRISE_REMOVAL { kind := 0x08, die := slot / 2, core := slot % 2 } (BitVec.ofNat 64 slot)
      let d := d.answerTo waiting (fail St.MED_SURPRISE_REMOVAL)
      let coming := d.store.puts.map (·.obj)
      let d := d.leaveSled slot fun c => c.holds.any fun h => coming.any fun o => o.id == h.id && o.putSeq == h.putSeq
      let d := d.sledCheckpoints slot
      let d := (d.store.groups.filter fun g => g.standin.any fun l => slotSled l == slot).foldl
        (fun d g => d.report St.MED_NO_STANDIN { kind := 0x08, die := g.number % 8 } (BitVec.ofNat 64 g.number)) d
      (d.reportGroups was.groups was).journalCopies

/-- A sled losing presence without prepare. -/
def execSurpriseRemoval (slot : Nat) (s : State) : Host.Outcome State Fault Refusal :=
  .next (s.put (surpriseRemovalEffect slot s.mem s.dev))

/-- ATTENTION_BUTTON (R459, R460, R573, Table 15.5). -/
def attentionButtonEffect (slot : Nat) (_m : Mem) (d : Dev) : Dev :=
  let x := d.store.sled slot
  if 16 ≤ slot ∨ d.seqs.powerFailAt.isSome ∨ d.store.started = false then d
  else match x.state with
    | .inService => d.prepareBegin slot false none
    | .preparing =>
      if (x.prepare.any fun p => decide (d.now ≤ p.2.1 + 5 * second)) then d.prepareCancel slot else d
    | .unpowered | .parked | .failed | .empty =>
      if x.present ∧ x.label = some (d.store.identity, slot) then d.admitBegin slot 0 false none else d
    | .admitting => d

/-- A press of a sled's attention button. -/
def execAttentionButton (slot : Nat) (s : State) : Host.Outcome State Fault Refusal :=
  .next (s.put (attentionButtonEffect slot s.mem s.dev))

/-! ### STO pigeonhole commands (R443, R452, R455 to R460) -/

/-- K, M and S lie within R452. -/
def stripeShapeOk (k m s : Nat) : Bool :=
  decide (1 ≤ k ∧ k ≤ 56) && decide (1 ≤ m ∧ m ≤ 8) && decide (s ≤ 1) && decide (k + m ≤ 64) && decide (8 ≤ k + m + s) && decide (k + m + s ≤ 64)

/-- The store erased, every partition empty (STO_FORMAT). Commands of queues that had begun are to be served anew. -/
def Store.formatted (s : Store) (k m st dir : Nat) (groups : List Group) : Store :=
  let inGroup := groups.flatMap fun g => g.members.map (·.lun) ++ g.standin.toList
  let luns := ((List.range 16).filter fun i => (s.sled i).allocates).flatMap s.lunsOf
  { s with
    objs := [], cells := [], stripes := [], ledger := [], streams := [], puts := [], programs := [], secures := [], reads := [], settles := [],
    dirPages := [], turns := List.replicate 8 0, groups := groups, k := k, m := m, s := st, dirCache := dir,
    freeLuns := luns.filter fun l => !inGroup.contains l && !s.retiredLuns.contains l,
    blocks := s.blocks.map fun b => if 0 < b.used ∧ b.retired = false then { b with erases := b.erases + 1, used := 0, raise := false } else b,
    sleds := s.sleds.zipIdx.map fun p => if p.1.allocates then { p.1 with label := some (s.identity, p.2), eraseOnRejoin := [] } else p.1,
    parts := s.parts.map fun x => { x with sync := [], syncSince := none, lazy_ := [], journal := [], bytesSince := 0 } }

/-- STO_FORMAT (R415, R452). -/
def stoFormatRun (p : Nat) (b : Bytes) (_m : Mem) (d : Dev) : Dev :=
  let k := fld b 0 1
  let m := fld b 1 1
  let s := fld b 2 1
  let dir := orDefault b 4 1 4
  if dir < 1 ∨ 16 < dir then d.answer p (fail St.PGH_FIELD)
  else if d.datasets ≠ [] then d.answer p (fail St.PGH_DATASET_IN_USE)
  else
    let sleds := (List.range 16).filter fun i => (d.store.sled i).allocates
    let left := sleds.map fun i => (i, (d.store.lunsOf i).filter fun l => !d.store.retiredLuns.contains l)
    let n := (left.map fun x => x.2.length).sum
    let groups := if stripeShapeOk k m s then formGroups k m s sleds n 0 left else []
    if groups = [] then d.answer p (fail St.MED_GROUP_LAYOUT)
    else
      let again := fun (c : Cmd) => if c.phase = .fetched then c else { c with phase := .fetched, left := [] }
      let queues := d.lbx.queues.map fun x => { x with cmds := x.cmds.map again }
      let d := { d with lbx := { d.lbx with queues := queues } }
      let waits := d.store.waits
      let d := d.onStore fun st => { (st.formatted k m s dir groups) with waits := [] }
      let d := waits.foldl (fun d w => d.answer w.hole { status := w.status, detail := w.detail, body := w.body }) d
      d.answer p { body := le 4 groups.length }

/-- The command of opcode 0x0801. -/
def stoFormatOp : PghOp where
  opcode := 0x0801
  used := [(0, 1), (1, 1), (2, 1), (3, 1), (4, 1)]
  reserved := fun b => bitsClear b 3 1 1
  run := stoFormatRun

/-- STO_FORMAT: the store erased and its stripe groups laid out. -/
def execStoFormat (p : Nat) (frame : Bytes) (s : State) : Host.Outcome State Fault Refusal :=
  .next (s.put (stoFormatOp.ring p frame s.mem s.dev))

/-- An admission or a prepare of a slot is under way. -/
def Sled.busy (x : Sled) : Bool := x.state == .admitting || x.state == .preparing

/-- STO_SLED_PREPARE_REMOVE (R459, R460). -/
def stoSledPrepareRemoveRun (p : Nat) (b : Bytes) (_m : Mem) (d : Dev) : Dev :=
  let slot := fld b 0 1
  let action := fld b 1 1
  let x := d.store.sled slot
  if 15 < slot ∨ 4 < action then d.answer p (fail St.PGH_FIELD)
  else if action = 4 then (d.prepareCancel slot).answer p {}
  else if x.busy then d.answer p (fail St.MED_SLED_BUSY)
  else if action = 2 then (d.onSled slot fun x => { x with ledLocate := true }).answer p {}
  else if action = 3 then (d.onSled slot fun x => { x with ledLocate := false }).answer p {}
  else if x.state ≠ .inService then d.answer p {}
  else if action = 1 ∧ (d.store.placesOn slot).any fun g => g.1.standin.isNone then d.answer p (fail St.MED_EVACUATE_SPACE)
  else d.prepareBegin slot (action == 1) (some p)

/-- The command of opcode 0x0802. -/
def stoSledPrepareRemoveOp : PghOp where
  opcode := 0x0802
  used := [(0, 1), (1, 1)]
  run := stoSledPrepareRemoveRun

/-- STO_SLED_PREPARE_REMOVE: park, evacuate, locate or cancel. -/
def execStoSledPrepareRemove (p : Nat) (frame : Bytes) (s : State) : Host.Outcome State Fault Refusal :=
  .next (s.put (stoSledPrepareRemoveOp.ring p frame s.mem s.dev))

/-- STO_SLED_ADMIT (R457): the answer follows SLED_ADMISSION_COMPLETE. -/
def stoSledAdmitRun (p : Nat) (b : Bytes) (_m : Mem) (d : Dev) : Dev :=
  let slot := fld b 0 1
  if 15 < slot ∨ 2 < fld b 1 1 then d.answer p (fail St.PGH_FIELD)
  else if (d.store.sled slot).busy then d.answer p (fail St.MED_SLED_BUSY)
  else d.admitBegin slot (fld b 1 1) (bit (fld b 2 1) 0) (some p)

/-- The command of opcode 0x0803. -/
def stoSledAdmitOp : PghOp where
  opcode := 0x0803
  used := [(0, 1), (1, 1), (2, 1)]
  reserved := fun b => bitsClear b 2 1 1
  run := stoSledAdmitRun

/-- STO_SLED_ADMIT: a sled rejoined, replaced or added. -/
def execStoSledAdmit (p : Nat) (frame : Bytes) (s : State) : Host.Outcome State Fault Refusal :=
  .next (s.put (stoSledAdmitOp.ring p frame s.mem s.dev))

/-- LUNs of a group on one sled, its stand-in counted. -/
def Group.onSled (g : Group) (sled : Nat) : Nat := ((g.members.map (·.lun) ++ g.standin.toList).filter fun l => slotSled l == sled).length

/-- STO_STANDIN (R455, R456). -/
def stoStandinRun (p : Nat) (b : Bytes) (_m : Mem) (d : Dev) : Dev :=
  let op := fld b 0 1
  let member := fld b 1 1
  let lun := fld b 8 4
  let delay := orDefault b 12 4 600
  let share := orDefault b 16 1 25
  if op = 0 then
    if 86400 < delay ∨ share < 5 ∨ 100 < share then d.answer p (fail St.PGH_FIELD)
    else (d.onStore fun s => { s with standinDelay := delay, rebuildShare := share }).answer p {}
  else match d.store.groups.find? fun g => g.number == fld b 4 4 with
    | none => d.answer p (fail St.PGH_FIELD)
    | some g =>
      if op = 1 then
        if g.members.length ≤ member then d.answer p (fail St.PGH_FIELD)
        else
          let was := d.store
          let d := d.onGroup g.number fun x => { x with members := x.members.modify member fun y => { y with lost := true } }
          let d := if g.standin = none then d.report St.MED_NO_STANDIN { kind := 0x08, die := g.number % 8 } (BitVec.ofNat 64 g.number) else d
          (d.reportGroups was.groups was).answer p {}
      else if op = 2 then
        if g.standin.isSome ∨ !d.store.freeLuns.contains lun ∨ d.store.m < g.onSled (slotSled lun) + 1 then
          d.answer p (fail St.MED_GROUP_LAYOUT)
        else
          let d := d.onStore fun s => { s with freeLuns := s.freeLuns.filter (· != lun) }
          (d.onGroup g.number fun x => { x with standin := some lun }).answer p {}
      else d.answer p (fail St.PGH_FIELD)

/-- The command of opcode 0x0804. -/
def stoStandinOp : PghOp where
  opcode := 0x0804
  used := [(0, 1), (1, 1), (4, 4), (8, 4), (12, 4), (16, 1)]
  run := stoStandinRun

/-- STO_STANDIN: stand-in timing, a member declared lost, or a stand-in named. -/
def execStoStandin (p : Nat) (frame : Bytes) (s : State) : Host.Outcome State Fault Refusal :=
  .next (s.put (stoStandinOp.ring p frame s.mem s.dev))

/-- Parity bytes of an LDPC strength (Table 15.2). -/
def ldpcParity (strength : Nat) : Nat := 256 + 64 * strength

/-- Codewords of a physical page at a strength (R440). -/
def Sled.codewords (x : Sled) (strength : Nat) : Nat := (x.pageMain + x.pageSpare) / (4112 + ldpcParity strength)

/-- STO_SET_ECC_STRENGTH (R440, R443). -/
def stoSetEccStrengthRun (p : Nat) (b : Bytes) (_m : Mem) (d : Dev) : Dev :=
  let sled := fld b 0 1
  let slc := orDefault b 1 1 0
  let native := orDefault b 2 1 2
  let depth := orDefault b 3 1 8
  let named := fun (i : Nat) => sled == 0xFF || i == sled
  if 15 < sled ∧ sled ≠ 0xFF ∨ depth < 1 ∨ 15 < depth then d.answer p (fail St.PGH_FIELD)
  else if 8 < slc ∨ 8 < native ∨ (d.store.sleds.zipIdx.any fun x => named x.2 && x.1.present &&
      (x.1.codewords slc == 0 || x.1.codewords native == 0)) then d.answer p (fail St.MED_STRENGTH_BAD)
  else
    let set := fun (x : Sled) => { x with slcFloor := slc, nativeFloor := native, retryDepth := depth }
    (d.onStore fun s => { s with sleds := s.sleds.zipIdx.map fun x => if named x.2 then set x.1 else x.1 }).answer p {}

/-- The command of opcode 0x0805. -/
def stoSetEccStrengthOp : PghOp where
  opcode := 0x0805
  used := [(0, 1), (1, 1), (2, 1), (3, 1)]
  run := stoSetEccStrengthRun

/-- STO_SET_ECC_STRENGTH: floor strengths and retry depth of a sled. -/
def execStoSetEccStrength (p : Nat) (frame : Bytes) (s : State) : Host.Outcome State Fault Refusal :=
  .next (s.put (stoSetEccStrengthOp.ring p frame s.mem s.dev))

end Sys2Proof.Machine
end

