-- ==== Sys2Proof/Machine/Operands.lean ====
section
/-! DEFINITION. Operands of a stage (R116, Tables 4.4 and 4.5) and what an engine computes from them. -/

namespace Sys2Proof.Machine

open Sys2Proof

/-- What a stage of an item reads: its route, its own values, its job's and its vocabularies. -/
structure StageCtx where
  r : RouteBin
  s : Stage
  e : Entry
  seed : Nat
  w : Nat
  b : Nat
  vocabs : List Vocab
  deriving DecidableEq, Repr, Inhabited

/-- Bytes an operand names: the stored bytes, a buffer, a range of the constant pool or of the card (Table 4.4). -/
def StageCtx.bytes (x : StageCtx) (o : Opnd) : Bytes :=
  match o.kind with
  | 1 => x.e.stored.getD []
  | 2 => ((x.e.bufs.find? fun b => b.1 == o.index).map (·.2)).getD []
  | 3 => cut x.r.consts o.offset o.len
  | 4 => cut (x.e.card.getD []) o.offset o.len
  | _ => []

/-- The bytes of an operand that may be NONE. -/
def StageCtx.maybe (x : StageCtx) (o : Opnd) : Option Bytes := if o.kind = 0 then none else some (x.bytes o)

/-- Width in bits and value of a META code: the item's own values (R104, Table 4.5). -/
def StageCtx.metaOf (x : StageCtx) (code : Nat) : Nat × Nat :=
  match code with
  | 0 => (16, x.e.format)
  | 1 => (64, x.e.label)
  | 2 => (64, x.e.origLen)
  | 3 => (64, x.e.storedLen)
  | 4 => (32, x.e.franking)
  | 5 => (64, x.e.q)
  | 6 => (64, x.e.index)
  | 7 => (32, x.e.epoch)
  | 8 => (32, x.e.q / max 1 x.w % max 1 x.b)
  | 9 => (32, x.e.q % max 1 x.w)
  | _ => (32, x.e.stamp)

/-- Width and value of a numeric operand: IMM, a CARD range or META (R287, Table 4.5). -/
def StageCtx.wide (x : StageCtx) (o : Opnd) : Nat × Nat :=
  match o.kind with
  | 8 => (48, o.imm)
  | 5 => x.metaOf o.index
  | 4 => (8 * o.len, leNat (x.bytes o))
  | _ => (0, 0)

/-- Value of a numeric operand; 0 for NONE. -/
def StageCtx.num (x : StageCtx) (o : Opnd) : Nat := (x.wide o).2

/-- Value of a numeric operand that may be NONE. -/
def StageCtx.numMaybe (x : StageCtx) (o : Opnd) : Option Nat := if o.kind = 0 then none else some (x.num o)

/-- Input bytes of the stage. -/
def StageCtx.input (x : StageCtx) : Bytes := x.bytes x.s.inn

/-- Parameter n of the stage. -/
def StageCtx.param (x : StageCtx) (n : Nat) : Opnd := x.s.param n

/-- Bound of the buffer the stage writes (R113). -/
def StageCtx.bound (x : StageCtx) : Nat := ((x.r.buffers[x.s.out.index]?).map fun b => b.bound x.e.origLen).getD 0

/-- Generator word of element m (R236). -/
def StageCtx.word (x : StageCtx) (m : Nat) : Nat := srWord x.seed x.e.epoch x.e.q x.s.index m

/-- Image of the vocabulary an operand names (R242): VOCAB index n is the route's n-th digest. -/
def StageCtx.vocab (x : StageCtx) (o : Opnd) : Bytes :=
  ((x.vocabs.find? fun v => some v.digest == x.r.vocabs[o.index]?).map (·.image)).getD []

/-- What an engine's run of a stage gives: its result, and what it counts and places. -/
structure Run where
  result : StageResult
  conv : ConvCount := {}
  tok : Option TokInfo := none
  invalid : Nat := 0
  placed : Option Placed := none
  tokens : Option (Bytes × Nat × Nat) := none
  deriving DecidableEq, Repr

/-- A failing run. -/
def Run.bad (st : Status) : Run := { result := .err st 0 none }

/-- The run of an engine that writes a buffer: output beyond the bound fails the stage (R113). -/
def StageCtx.out (x : StageCtx) (r : Res Bytes) : Run :=
  match r with
  | .error e => { result := .err e.status e.detail e.crc }
  | .ok b => if x.bound < b.length then Run.bad St.RTE_BUFFER_OVERFLOW else { result := .ok b }

/-! ### CDE (R144 to R157) -/

/-- Expected values and limits of a decode (R146, R147). -/
def StageCtx.decodeOpts (x : StageCtx) : DecodeOpts :=
  let stored := x.s.inn.kind == 1
  { multi := bit (x.param 1).imm 0, zeroPad := bit (x.param 1).imm 1
    expectCrc := if stored then some x.e.franking else x.numMaybe (x.param 2)
    expectLen := if stored then some x.e.origLen else x.numMaybe (x.param 3)
    bound := x.bound }

/-- A CDE decode by opcode 1 to 5; 5 takes the format from the first bytes (R145). -/
def runDecode (op : Nat) (x : StageCtx) : Run :=
  let op := if op = 5 then autoFormat x.input else op
  x.out (decodeBy op x.decodeOpts (x.maybe (x.param 0)) x.input)

/-- A CDE encode by opcode 0x11 to 0x14 (R156, R163). -/
def runEncode (op : Nat) (x : StageCtx) : Run :=
  x.out (encodeBy op (x.num (x.param 1)) (x.param 2).imm (x.maybe (x.param 0)) x.input)

/-! ### IDE (R166 to R197) -/

/-- DECODE_JPEG. -/
def runJpeg (x : StageCtx) : Run := x.out (decodeJpegBytes (imgCtlOf (x.param 1).imm) (x.maybe (x.param 0)) x.input)

/-- DECODE_PNG. -/
def runPng (x : StageCtx) : Run := x.out (decodePngBytes (imgCtlOf (x.param 1).imm) (x.maybe (x.param 0)) x.input)

/-- DECODE_IMAGE. -/
def runImage (x : StageCtx) : Run := x.out (decodeImageBytes (imgCtlOf (x.param 1).imm) (x.maybe (x.param 0)) x.input)

/-- DECODE_SEQUENCE. -/
def runSequence (x : StageCtx) : Run := x.out (decodeSequenceBytes (imgCtlOf (x.param 1).imm) (x.bytes (x.param 0)) x.input)

/-- DECODE_TENSOR. -/
def runTensor (x : StageCtx) : Run := x.out (decodeTensorBytes (x.maybe (x.param 0)) x.input)

/-- Controls of an audio stage. -/
def StageCtx.audCtl (x : StageCtx) : AudCtl := audCtlOf (x.param 1).imm (x.param 2).imm (x.maybe (x.param 0))

/-- DECODE_WAV. -/
def runWav (x : StageCtx) : Run := x.out (decodeWavBytes x.audCtl x.input)

/-- DECODE_FLAC. -/
def runFlac (x : StageCtx) : Run := x.out (decodeFlacBytes x.audCtl x.input)

/-- DECODE_AUDIO. -/
def runAudio (x : StageCtx) : Run := x.out (decodeAudioBytes x.audCtl x.input)

/-! ### VTE (R211 to R238) -/

/-- CROP. -/
def runCrop (x : StageCtx) : Run := x.out (vteCrop (x.bytes (x.param 0)) (bit (x.param 1).imm 0) x.input)

/-- FLIP_ROTATE. -/
def runFlipRotate (x : StageCtx) : Run :=
  let o := x.param 0
  x.out (vteFlipRotate (if o.kind = 8 then o.imm else leNat (x.bytes o)) x.input)

/-- RESIZE. -/
def runResize (x : StageCtx) : Run :=
  let o := x.param 0
  let size := if o.kind = 8 then (o.imm % 65536, o.imm / 65536 % 65536) else (fld (x.bytes o) 0 4, fld (x.bytes o) 4 4)
  x.out (vteResize size.1 size.2 ((x.param 1).imm % 4) x.input)

/-- COLOUR. -/
def runColour (x : StageCtx) : Run := x.out (vteColour (x.bytes (x.param 0)) x.input)

/-- NORMALISE. -/
def runNormalise (x : StageCtx) : Run := x.out (vteNormalise (x.bytes (x.param 0)) x.input)

/-- LAYOUT. -/
def runLayout (x : StageCtx) : Run := x.out (vteLayout (x.param 1).imm x.input)

/-- CUTOUT. -/
def runCutout (x : StageCtx) : Run := x.out (vteCutout (x.bytes (x.param 0)) x.input)

/-- MIX. -/
def runMix (x : StageCtx) : Run := x.out (vteMix (x.bytes (x.param 0)) (x.bytes (x.param 1)) x.input)

/-- CONVERT. -/
def runConvert (x : StageCtx) : Run :=
  match vteConvert (x.param 1).imm x.word x.input with
  | .error e => { result := .err e.status e.detail e.crc }
  | .ok (b, n) => { x.out (.ok b) with conv := n }

/-- SPECTRUM. -/
def runSpectrum (x : StageCtx) : Run := x.out (vteSpectrum (x.bytes (x.param 0)) (x.maybe (x.param 1)) x.input)

/-! ### TXE (R244 to R257) -/

/-- TOKENISE. -/
def runTokenise (x : StageCtx) : Run :=
  let (b, t) := tokeniseBytes (x.vocab (x.param 0)) (x.param 1).imm (x.num (x.param 2)) x.input
  { x.out (.ok b) with tok := some t, invalid := t.invalid }

/-- DETOKENISE. -/
def runDetokenise (x : StageCtx) : Run :=
  match detokeniseBytes (x.vocab (x.param 0)) (x.param 1).imm x.input with
  | .error st => Run.bad st
  | .ok (b, n) => { x.out (.ok b) with invalid := n }

/-! ### PKE (R280 to R289) -/

/-- PLACE. -/
def runPlace (x : StageCtx) : Run :=
  match placeBytes (x.r.decl x.s) x.s.out.index x.word x.input with
  | .error st => Run.bad st
  | .ok (p, n) => { result := .ok [], conv := n, placed := some p }

/-- PLACE_SCALAR. -/
def runPlaceScalar (x : StageCtx) : Run :=
  let v := x.wide x.s.inn
  let (p, n) := placeScalarBytes (x.r.decl x.s) x.s.out.index x.word v.1 v.2
  { result := .ok [], conv := n, placed := some p }

/-- PACK_TOKENS. -/
def runPackTokens (x : StageCtx) : Run :=
  match packBytes (x.r.decl x.s) x.word x.input with
  | .error st => Run.bad st
  | .ok (t, n) => { result := .ok [], conv := n, tokens := some t }

/-! ### SEQ (Table 4.6) -/

/-- COPY. -/
def runCopy (x : StageCtx) : Run := x.out (.ok x.input)

/-- SLICE. -/
def runSlice (x : StageCtx) : Run :=
  let at_ := x.num (x.param 0)
  let len := x.num (x.param 1)
  if x.input.length < at_ + len then Run.bad St.RTE_SLICE_RANGE else x.out (.ok (cut x.input at_ len))

/-- CHECK_FRANK (R154). -/
def runCheckFrank (x : StageCtx) : Run :=
  let c := crc32c x.input
  if c ≠ x.e.franking then { result := .err St.INFL_FRANKING c (some c) } else x.out (.ok x.input)

/-- FILL; beyond the bound no byte is written (R113). -/
def runFill (x : StageCtx) : Run :=
  let n := x.num (x.param 1)
  if x.bound < n then Run.bad St.RTE_BUFFER_OVERFLOW
  else x.out (.ok (List.replicate n (BitVec.ofNat 8 (x.param 0).imm)))

end Sys2Proof.Machine
end

