-- ==== Sys2Proof/Machine/Stages.lean ====
section
/-! DEFINITION. The route sequencer and its engines: items started, stages issued and completed, re-reads, the engine watchdog (R113 to
R123, R152, R153, R633). -/

namespace Sys2Proof.Machine

open Sys2Proof

/-! ### Start of an item (R113, R119, R633) -/

/-- The failure an item has before its first stage, the first of R633 that applies. -/
def Dev.startFailure (d : Dev) (j : Job) (i : ItemRef) (e : Entry) : Option Status :=
  let r := j.routeOfEntry i.rank e
  let obj := ((d.cardObject i).map (·.stored)).getD []
  let card := d.takesCard i
  if r.accepts e.format = false then some St.RTE_FORMAT
  else if card ∧ cardCovers obj e.epoch = false then some St.VTE_CARD_RANGE
  else if card ∧ cardKeyOk obj (e.card.getD []) e.index e.epoch e.q = false then some St.VTE_CARD_KEY
  else if 524288 < r.boundSum 0 e.format e.origLen then some St.RTE_BUFFER_OVERFLOW
  else if 34359738368 < r.boundSum 1 e.format e.origLen then some St.BUF_ITEM_TOO_LARGE
  else none

/-- Buffers of an item's path with a PLACE, at their bounds: (number, bytes). -/
def Job.placed (j : Job) (i : ItemRef) (e : Entry) (place : Nat) : List (Nat × Nat) :=
  (((j.routeOfEntry i.rank e).pathBufs e.format e.origLen).filter fun b => b.2.2 == place).map fun b => (b.1, b.2.1)

/-- An item's start is delayed for want of a buffer, counted once in START_WAITS (R119, Table 4.12). -/
def Dev.startWait (d : Dev) (c : CoreRef) (i : ItemRef) : Dev :=
  if ((d.entry i).map (·.waitCounted)).getD true then d
  else (d.onEntry i fun e => { e with waitCounted := true }).onCtrs c.die fun k => { k with startWaits := k.startWaits + 1 }

/-- The item's buffers are all reserved: it is in flight, its core holding the stored bytes too (R119, R499). -/
def Dev.startNow (d : Dev) (c : CoreRef) (i : ItemRef) (place0 : List (Nat × Nat)) : Dev :=
  let d := d.onCore c fun x =>
    let x := (x.placeAll i place0).getD x
    { x with sack := x.sack.filter (· != i), flight := x.flight ++ [i] }
  (d.bufShare (d.postDie i) (.stored i)).onEntry i fun e => { e with started := true, stage := 0 }

/-- ITEM_START (R119, R633): the first item of the sack starts, fails before its first stage, or waits. -/
def itemStartEffect (c : CoreRef) (_m : Mem) (d : Dev) : Dev :=
  if d.engineUp c 9 = false then d
  else match (d.core c).sack.head? with
  | none => d
  | some i => match d.job i.job, d.entry i with
    | some j, some e =>
      if 64 ≤ (d.core c).flight.length then d
      else match d.startFailure j i e with
      | some st => (d.itemFail i { status := st }).releaseOlds i.job
      | none =>
        let place0 := j.placed i e 0
        if ((d.core c).placeAll i place0).isNone then d.startWait c i
        else
          let parts := (j.placed i e 1).map fun b => (Use.item i b.1, b.2)
          let w : BufWait := { requester := 4 + i.job, parts := parts, cluster := (d.physical c).map (·.1), owner := d.seqUnit c }
          let (d, got) := d.allocate c.die w
          if got then d.startNow c i place0 else d.startWait c i
    | _, _ => d.onCore c fun x => { x with sack := x.sack.filter (· != i) }

/-- The route sequencer starting the next item of its sack. -/
def execItemStart (core : CoreRef) (s : State) : Host.Outcome State Fault Refusal :=
  .next (s.put (itemStartEffect core s.mem s.dev))

/-! ### Stages issued (R120) -/

/-- The item's stage may be issued: started on this core, not running, no settlement under way. -/
def Entry.ready (e : Entry) (c : CoreRef) : Bool :=
  e.state == .admitted && e.core == some c && e.started && !e.running && e.settling.isNone

/-- The stage an item of a core is ready for. -/
def Dev.readyStage (d : Dev) (c : CoreRef) (i : ItemRef) : Option Stage :=
  match d.entry i with
  | some e => if e.ready c then d.stageAt i else none
  | none => none

/-- The free engine of a kind with the lowest number (R120). -/
def Dev.freeEngine (d : Dev) (c : CoreRef) (kind : Nat) : Option Nat :=
  (slotsOfKind kind).find? fun s => d.engineUp c s && !((d.core c).busy.any fun b => b.slot == s)

/-- The item is the earliest in sack order of those ready for an engine kind (R120). -/
def Dev.firstReady (d : Dev) (c : CoreRef) (kind : Nat) (i : ItemRef) : Bool :=
  ((d.core c).flight.find? fun k => ((d.readyStage c k).map kindOf) == some kind) == some i

/-- Counters a run adds to its job; an item is counted once among the invalid and the truncated ones (Tables 7.8 and 8.9). -/
def Run.count (r : Run) (e : Entry) (c : JobCtrs) : JobCtrs :=
  let f := (r.tok.map (·.flags)).getD 0
  { c with
    convSaturated := c.convSaturated + r.conv.saturated
    convNan := c.convNan + r.conv.nan
    convOverflowInf := c.convOverflowInf + r.conv.overInf
    tokBytes := c.tokBytes + (r.tok.map (·.bytes)).getD 0
    tokInvalidUnits := c.tokInvalidUnits + r.invalid
    tokInvalidItems := c.tokInvalidItems + b2n (bit f 0 && !bit e.tokFlags 0)
    tokTruncated := c.tokTruncated + b2n (bit f 1 && !bit e.tokFlags 1) }

/-- The entry while an engine holds its stage, with what the run gives. -/
def Entry.runs (e : Entry) (r : Run) : Entry :=
  { e with
    running := true
    result := some r.result
    tokFlags := (r.tok.map (·.flags)).getD e.tokFlags
    placed := e.placed ++ r.placed.toList
    tokens := if r.tokens.isSome then r.tokens else e.tokens }

/-- A stage is issued to a free engine of its kind, which computes its result; the result takes effect at STAGE_COMPLETE (R120,
R121). Nothing happens where the item's stage is another, is not its turn, or no engine is free. -/
def Dev.issue (d : Dev) (c : CoreRef) (i : ItemRef) (engine opcode : Nat) (f : StageCtx → Run) : Dev :=
  match d.job i.job, d.entry i, d.readyStage c i with
  | some j, some e, some s =>
    if s.engine ≠ engine ∨ s.opcode ≠ opcode ∨ d.firstReady c (kindOf s) i = false then d
    else match d.freeEngine c (kindOf s) with
    | none => d
    | some slot =>
      let r := f { r := j.routeOfEntry i.rank e, s := s, e := e, seed := j.seed, w := j.w, b := j.b, vocabs := d.vocabs }
      let d := d.onCore c fun x => { x with busy := x.busy ++ [{ slot := slot, item := i, stage := e.stage, since := d.now }] }
      (d.onEntry i fun e => e.runs r).onJobCtrs i.job (r.count e)
  | _, _, _ => d

/-- Stage run: raw DEFLATE decode (R143, R151). -/
def inflateRawEffect (c : CoreRef) (i : ItemRef) (_m : Mem) (d : Dev) : Dev := d.issue c i 1 0x1 (runDecode 1)

/-- An engine running a stage: raw DEFLATE decode (R143, R151). -/
def execInflateRaw (core : CoreRef) (item : ItemRef) (s : State) : Host.Outcome State Fault Refusal :=
  .next (s.put (inflateRawEffect core item s.mem s.dev))

/-- Stage run: zlib decode (R143, R151). -/
def inflateZlibEffect (c : CoreRef) (i : ItemRef) (_m : Mem) (d : Dev) : Dev := d.issue c i 1 0x2 (runDecode 2)

/-- An engine running a stage: zlib decode (R143, R151). -/
def execInflateZlib (core : CoreRef) (item : ItemRef) (s : State) : Host.Outcome State Fault Refusal :=
  .next (s.put (inflateZlibEffect core item s.mem s.dev))

/-- Stage run: gzip decode (R143, R151). -/
def inflateGzipEffect (c : CoreRef) (i : ItemRef) (_m : Mem) (d : Dev) : Dev := d.issue c i 1 0x3 (runDecode 3)

/-- An engine running a stage: gzip decode (R143, R151). -/
def execInflateGzip (core : CoreRef) (item : ItemRef) (s : State) : Host.Outcome State Fault Refusal :=
  .next (s.put (inflateGzipEffect core item s.mem s.dev))

/-- Stage run: Zstandard decode (R143, R151). -/
def decodeZstdEffect (c : CoreRef) (i : ItemRef) (_m : Mem) (d : Dev) : Dev := d.issue c i 1 0x4 (runDecode 4)

/-- An engine running a stage: Zstandard decode (R143, R151). -/
def execDecodeZstd (core : CoreRef) (item : ItemRef) (s : State) : Host.Outcome State Fault Refusal :=
  .next (s.put (decodeZstdEffect core item s.mem s.dev))

/-- Stage run: decode in the format its first bytes select (R145). -/
def decodeAutoEffect (c : CoreRef) (i : ItemRef) (_m : Mem) (d : Dev) : Dev := d.issue c i 1 0x5 (runDecode 5)

/-- An engine running a stage: decode in the format its first bytes select (R145). -/
def execDecodeAuto (core : CoreRef) (item : ItemRef) (s : State) : Host.Outcome State Fault Refusal :=
  .next (s.put (decodeAutoEffect core item s.mem s.dev))

/-- Stage run: raw DEFLATE encode (R156 to R159). -/
def deflateRawEffect (c : CoreRef) (i : ItemRef) (_m : Mem) (d : Dev) : Dev := d.issue c i 1 0x11 (runEncode 0x11)

/-- An engine running a stage: raw DEFLATE encode (R156 to R159). -/
def execDeflateRaw (core : CoreRef) (item : ItemRef) (s : State) : Host.Outcome State Fault Refusal :=
  .next (s.put (deflateRawEffect core item s.mem s.dev))

/-- Stage run: zlib encode (R156 to R160). -/
def deflateZlibEffect (c : CoreRef) (i : ItemRef) (_m : Mem) (d : Dev) : Dev := d.issue c i 1 0x12 (runEncode 0x12)

/-- An engine running a stage: zlib encode (R156 to R160). -/
def execDeflateZlib (core : CoreRef) (item : ItemRef) (s : State) : Host.Outcome State Fault Refusal :=
  .next (s.put (deflateZlibEffect core item s.mem s.dev))

/-- Stage run: gzip encode (R156 to R160). -/
def deflateGzipEffect (c : CoreRef) (i : ItemRef) (_m : Mem) (d : Dev) : Dev := d.issue c i 1 0x13 (runEncode 0x13)

/-- An engine running a stage: gzip encode (R156 to R160). -/
def execDeflateGzip (core : CoreRef) (item : ItemRef) (s : State) : Host.Outcome State Fault Refusal :=
  .next (s.put (deflateGzipEffect core item s.mem s.dev))

/-- Stage run: Zstandard encode (R156, R161). -/
def encodeZstdEffect (c : CoreRef) (i : ItemRef) (_m : Mem) (d : Dev) : Dev := d.issue c i 1 0x14 (runEncode 0x14)

/-- An engine running a stage: Zstandard encode (R156, R161). -/
def execEncodeZstd (core : CoreRef) (item : ItemRef) (s : State) : Host.Outcome State Fault Refusal :=
  .next (s.put (encodeZstdEffect core item s.mem s.dev))

/-- Stage run: JPEG decode (R172 to R181). -/
def decodeJpegEffect (c : CoreRef) (i : ItemRef) (_m : Mem) (d : Dev) : Dev := d.issue c i 2 0x1 (runJpeg)

/-- An engine running a stage: JPEG decode (R172 to R181). -/
def execDecodeJpeg (core : CoreRef) (item : ItemRef) (s : State) : Host.Outcome State Fault Refusal :=
  .next (s.put (decodeJpegEffect core item s.mem s.dev))

/-- Stage run: PNG decode (R182 to R187). -/
def decodePngEffect (c : CoreRef) (i : ItemRef) (_m : Mem) (d : Dev) : Dev := d.issue c i 2 0x2 (runPng)

/-- An engine running a stage: PNG decode (R182 to R187). -/
def execDecodePng (core : CoreRef) (item : ItemRef) (s : State) : Host.Outcome State Fault Refusal :=
  .next (s.put (decodePngEffect core item s.mem s.dev))

/-- Stage run: image decode by its first bytes (R167). -/
def decodeImageEffect (c : CoreRef) (i : ItemRef) (_m : Mem) (d : Dev) : Dev := d.issue c i 2 0x3 (runImage)

/-- An engine running a stage: image decode by its first bytes (R167). -/
def execDecodeImage (core : CoreRef) (item : ItemRef) (s : State) : Host.Outcome State Fault Refusal :=
  .next (s.put (decodeImageEffect core item s.mem s.dev))

/-- Stage run: frame sequence decode (R188 to R191). -/
def decodeSequenceEffect (c : CoreRef) (i : ItemRef) (_m : Mem) (d : Dev) : Dev := d.issue c i 2 0x4 (runSequence)

/-- An engine running a stage: frame sequence decode (R188 to R191). -/
def execDecodeSequence (core : CoreRef) (item : ItemRef) (s : State) : Host.Outcome State Fault Refusal :=
  .next (s.put (decodeSequenceEffect core item s.mem s.dev))

/-- Stage run: tensor file decode (R192, R193). -/
def decodeTensorEffect (c : CoreRef) (i : ItemRef) (_m : Mem) (d : Dev) : Dev := d.issue c i 2 0x5 (runTensor)

/-- An engine running a stage: tensor file decode (R192, R193). -/
def execDecodeTensor (core : CoreRef) (item : ItemRef) (s : State) : Host.Outcome State Fault Refusal :=
  .next (s.put (decodeTensorEffect core item s.mem s.dev))

/-- Stage run: WAV decode (R194 to R198). -/
def decodeWavEffect (c : CoreRef) (i : ItemRef) (_m : Mem) (d : Dev) : Dev := d.issue c i 2 0x11 (runWav)

/-- An engine running a stage: WAV decode (R194 to R198). -/
def execDecodeWav (core : CoreRef) (item : ItemRef) (s : State) : Host.Outcome State Fault Refusal :=
  .next (s.put (decodeWavEffect core item s.mem s.dev))

/-- Stage run: FLAC decode (R199 to R203). -/
def decodeFlacEffect (c : CoreRef) (i : ItemRef) (_m : Mem) (d : Dev) : Dev := d.issue c i 2 0x12 (runFlac)

/-- An engine running a stage: FLAC decode (R199 to R203). -/
def execDecodeFlac (core : CoreRef) (item : ItemRef) (s : State) : Host.Outcome State Fault Refusal :=
  .next (s.put (decodeFlacEffect core item s.mem s.dev))

/-- Stage run: audio decode by its first bytes (R167). -/
def decodeAudioEffect (c : CoreRef) (i : ItemRef) (_m : Mem) (d : Dev) : Dev := d.issue c i 2 0x13 (runAudio)

/-- An engine running a stage: audio decode by its first bytes (R167). -/
def execDecodeAudio (core : CoreRef) (item : ItemRef) (s : State) : Host.Outcome State Fault Refusal :=
  .next (s.put (decodeAudioEffect core item s.mem s.dev))

/-- Stage run: crop (R211). -/
def cropEffect (c : CoreRef) (i : ItemRef) (_m : Mem) (d : Dev) : Dev := d.issue c i 3 0x1 (runCrop)

/-- An engine running a stage: crop (R211). -/
def execCrop (core : CoreRef) (item : ItemRef) (s : State) : Host.Outcome State Fault Refusal :=
  .next (s.put (cropEffect core item s.mem s.dev))

/-- Stage run: flips and quarter turns (R212). -/
def flipRotateEffect (c : CoreRef) (i : ItemRef) (_m : Mem) (d : Dev) : Dev := d.issue c i 3 0x2 (runFlipRotate)

/-- An engine running a stage: flips and quarter turns (R212). -/
def execFlipRotate (core : CoreRef) (item : ItemRef) (s : State) : Host.Outcome State Fault Refusal :=
  .next (s.put (flipRotateEffect core item s.mem s.dev))

/-- Stage run: resize (R213 to R217). -/
def resizeEffect (c : CoreRef) (i : ItemRef) (_m : Mem) (d : Dev) : Dev := d.issue c i 3 0x3 (runResize)

/-- An engine running a stage: resize (R213 to R217). -/
def execResize (core : CoreRef) (item : ItemRef) (s : State) : Host.Outcome State Fault Refusal :=
  .next (s.put (resizeEffect core item s.mem s.dev))

/-- Stage run: colour (R218 to R220). -/
def colourEffect (c : CoreRef) (i : ItemRef) (_m : Mem) (d : Dev) : Dev := d.issue c i 3 0x4 (runColour)

/-- An engine running a stage: colour (R218 to R220). -/
def execColour (core : CoreRef) (item : ItemRef) (s : State) : Host.Outcome State Fault Refusal :=
  .next (s.put (colourEffect core item s.mem s.dev))

/-- Stage run: normalise (R221). -/
def normaliseEffect (c : CoreRef) (i : ItemRef) (_m : Mem) (d : Dev) : Dev := d.issue c i 3 0x5 (runNormalise)

/-- An engine running a stage: normalise (R221). -/
def execNormalise (core : CoreRef) (item : ItemRef) (s : State) : Host.Outcome State Fault Refusal :=
  .next (s.put (normaliseEffect core item s.mem s.dev))

/-- Stage run: layout (R222). -/
def layoutEffect (c : CoreRef) (i : ItemRef) (_m : Mem) (d : Dev) : Dev := d.issue c i 3 0x6 (runLayout)

/-- An engine running a stage: layout (R222). -/
def execLayout (core : CoreRef) (item : ItemRef) (s : State) : Host.Outcome State Fault Refusal :=
  .next (s.put (layoutEffect core item s.mem s.dev))

/-- Stage run: cutout (R223). -/
def cutoutEffect (c : CoreRef) (i : ItemRef) (_m : Mem) (d : Dev) : Dev := d.issue c i 3 0x7 (runCutout)

/-- An engine running a stage: cutout (R223). -/
def execCutout (core : CoreRef) (item : ItemRef) (s : State) : Host.Outcome State Fault Refusal :=
  .next (s.put (cutoutEffect core item s.mem s.dev))

/-- Stage run: mix (R224). -/
def mixEffect (c : CoreRef) (i : ItemRef) (_m : Mem) (d : Dev) : Dev := d.issue c i 3 0x8 (runMix)

/-- An engine running a stage: mix (R224). -/
def execMix (core : CoreRef) (item : ItemRef) (s : State) : Host.Outcome State Fault Refusal :=
  .next (s.put (mixEffect core item s.mem s.dev))

/-- Stage run: format conversion (R229 to R236). -/
def convertEffect (c : CoreRef) (i : ItemRef) (_m : Mem) (d : Dev) : Dev := d.issue c i 3 0x9 (runConvert)

/-- An engine running a stage: format conversion (R229 to R236). -/
def execConvert (core : CoreRef) (item : ItemRef) (s : State) : Host.Outcome State Fault Refusal :=
  .next (s.put (convertEffect core item s.mem s.dev))

/-- Stage run: spectrum (R225 to R228). -/
def spectrumEffect (c : CoreRef) (i : ItemRef) (_m : Mem) (d : Dev) : Dev := d.issue c i 3 0x10 (runSpectrum)

/-- An engine running a stage: spectrum (R225 to R228). -/
def execSpectrum (core : CoreRef) (item : ItemRef) (s : State) : Host.Outcome State Fault Refusal :=
  .next (s.put (spectrumEffect core item s.mem s.dev))

/-- Stage run: tokenise (R244 to R251). -/
def tokeniseEffect (c : CoreRef) (i : ItemRef) (_m : Mem) (d : Dev) : Dev := d.issue c i 4 0x1 (runTokenise)

/-- An engine running a stage: tokenise (R244 to R251). -/
def execTokenise (core : CoreRef) (item : ItemRef) (s : State) : Host.Outcome State Fault Refusal :=
  .next (s.put (tokeniseEffect core item s.mem s.dev))

/-- Stage run: detokenise (R251, R256). -/
def detokeniseEffect (c : CoreRef) (i : ItemRef) (_m : Mem) (d : Dev) : Dev := d.issue c i 4 0x2 (runDetokenise)

/-- An engine running a stage: detokenise (R251, R256). -/
def execDetokenise (core : CoreRef) (item : ItemRef) (s : State) : Host.Outcome State Fault Refusal :=
  .next (s.put (detokeniseEffect core item s.mem s.dev))

/-- Stage run: array placed in its parcel slot (R283 to R286). -/
def placeEffect (c : CoreRef) (i : ItemRef) (_m : Mem) (d : Dev) : Dev := d.issue c i 5 0x1 (runPlace)

/-- An engine running a stage: array placed in its parcel slot (R283 to R286). -/
def execPlace (core : CoreRef) (item : ItemRef) (s : State) : Host.Outcome State Fault Refusal :=
  .next (s.put (placeEffect core item s.mem s.dev))

/-- Stage run: value placed in its parcel slot (R287). -/
def placeScalarEffect (c : CoreRef) (i : ItemRef) (_m : Mem) (d : Dev) : Dev := d.issue c i 5 0x2 (runPlaceScalar)

/-- An engine running a stage: value placed in its parcel slot (R287). -/
def execPlaceScalar (core : CoreRef) (item : ItemRef) (s : State) : Host.Outcome State Fault Refusal :=
  .next (s.put (placeScalarEffect core item s.mem s.dev))

/-- Stage run: token ids staged for packing (R289). -/
def packTokensEffect (c : CoreRef) (i : ItemRef) (_m : Mem) (d : Dev) : Dev := d.issue c i 5 0x3 (runPackTokens)

/-- An engine running a stage: token ids staged for packing (R289). -/
def execPackTokens (core : CoreRef) (item : ItemRef) (s : State) : Host.Outcome State Fault Refusal :=
  .next (s.put (packTokensEffect core item s.mem s.dev))

/-- Stage run: copy (Table 4.6). -/
def copyEffect (c : CoreRef) (i : ItemRef) (_m : Mem) (d : Dev) : Dev := d.issue c i 6 0x1 (runCopy)

/-- An engine running a stage: copy (Table 4.6). -/
def execCopy (core : CoreRef) (item : ItemRef) (s : State) : Host.Outcome State Fault Refusal :=
  .next (s.put (copyEffect core item s.mem s.dev))

/-- Stage run: slice (Table 4.6). -/
def sliceEffect (c : CoreRef) (i : ItemRef) (_m : Mem) (d : Dev) : Dev := d.issue c i 6 0x2 (runSlice)

/-- An engine running a stage: slice (Table 4.6). -/
def execSlice (core : CoreRef) (item : ItemRef) (s : State) : Host.Outcome State Fault Refusal :=
  .next (s.put (sliceEffect core item s.mem s.dev))

/-- Stage run: franking check (R154). -/
def checkFrankEffect (c : CoreRef) (i : ItemRef) (_m : Mem) (d : Dev) : Dev := d.issue c i 6 0x3 (runCheckFrank)

/-- An engine running a stage: franking check (R154). -/
def execCheckFrank (core : CoreRef) (item : ItemRef) (s : State) : Host.Outcome State Fault Refusal :=
  .next (s.put (checkFrankEffect core item s.mem s.dev))

/-- Stage run: fill (Table 4.6). -/
def fillEffect (c : CoreRef) (i : ItemRef) (_m : Mem) (d : Dev) : Dev := d.issue c i 6 0x4 (runFill)

/-- An engine running a stage: fill (Table 4.6). -/
def execFill (core : CoreRef) (item : ItemRef) (s : State) : Host.Outcome State Fault Refusal :=
  .next (s.put (fillEffect core item s.mem s.dev))


/-! ### Stages completed (R113, R115, R121, R152, R153) -/

/-- SEQ CHECK_FRANK. -/
def Stage.franks (s : Stage) : Bool := s.engine == 6 && s.opcode == 3

/-- A stage to which R152 applies: its input is STORED, or it is CHECK_FRANK. -/
def Stage.rereadable (s : Stage) : Bool := s.inn.kind == 1 || s.franks

/-- A failure that has the stored bytes read again (R152). -/
def Stage.doubtsStored (s : Stage) (st : Status) : Bool :=
  (s.inn.kind == 1 && st.toNat / 256 == 0x30) || (s.franks && st == St.INFL_FRANKING)

/-- A buffer of an item is released (R115). -/
def Dev.freeBuffer (d : Dev) (c : CoreRef) (i : ItemRef) (n : Nat) : Dev :=
  let d := (d.onCore c fun x => x.unplace i n).freeUse c.die (.item i n)
  d.onEntry i fun e => { e with bufs := e.bufs.filter fun b => b.1 != n }

/-- Buffers whose last reader on a path is the stage at a place (R115). -/
def lastReads (path : List Stage) (at_ : Nat) : List Nat :=
  (((path[at_]?).map Stage.reads).getD []).eraseDups.filter fun n => (path.drop (at_ + 1)).all fun s => !(s.reads.contains n)

/-- The stored bytes are read again: the item restarts once, counted in REREADS; a remote sample is fetched again from PRIMARY
(R152). -/
def Dev.reread (d : Dev) (i : ItemRef) (stage : Nat) (crc : Option Nat) : Dev :=
  let d := d.onEntry i fun e => { e with
    rereads := e.rereads + 1, firstCrc := crc, stored := none, remote := {}, mappedAt := d.now }
  let d := d.onJobCtrs i.job fun c => { c with rereads := c.rereads + 1 }
  (d.itemRestart i stage none false).1

/-- Settlement begins: the home node is asked, by a settle request when it is a peer (R153, R516). -/
def Dev.settleBegin (d : Dev) (j : Job) (i : ItemRef) (e : Entry) : Dev :=
  let d := d.onEntry i fun e => { e with settling := some d.now }
  if d.isLocal j e.index then d
  else match d.settleRequestOf i with
    | some m => d.post (j.peerQpn (d.peersOf j e.index).1) { op := .send, bytes := m, purpose := .settle (some i) }
    | none => d

/-- A stage passed: its output kept, buffers past their last reader released, and the next stage, or the item DONE (R115, R121). -/
def Dev.stagePassed (d : Dev) (c : CoreRef) (j : Job) (i : ItemRef) (e : Entry) (s : Stage) (out : Bytes) : Dev :=
  let path := (j.routeOfEntry i.rank e).path e.format
  let again := e.rereads == 1 && !e.settled && !e.recovered && s.rereadable && (path.drop (e.stage + 1)).all fun x => !x.rereadable
  let d := d.onEntry i fun e => { e with
    bufs := e.bufs ++ (s.writes.map fun n => (n, out)).toList, recovered := e.recovered || again, stage := e.stage + 1 }
  let d := d.onJobCtrs i.job fun k => { k with rereadRecovered := k.rereadRecovered + b2n again }
  let d := (lastReads path e.stage).foldl (fun d n => d.freeBuffer c i n) d
  if e.stage + 1 < path.length then d else (d.itemDone i).releaseOlds i.job

/-- A stage failed: its input read again, settled, or the item failed (R121, R152, R153). -/
def Dev.stageFailed (d : Dev) (j : Job) (i : ItemRef) (e : Entry) (s : Stage) (st : Status) (detail : Nat) (crc : Option Nat) : Dev :=
  let input := e.stored.getD []
  let doubt := s.doubtsStored st
  if doubt ∧ e.rereads = 0 then d.reread i s.index crc
  else if doubt ∧ e.settled = false ∧ st = St.INFL_FRANKING ∧ crc.isSome ∧ crc = e.firstCrc ∧ (s.franks ∨ hasFormatCheck s.opcode input) then
    d.settleBegin j i e
  else
    (d.itemFail i { status := st, detail := if st = St.INFL_FRANKING then crc.getD 0 else detail, stage := s.index, stored := doubt }).releaseOlds i.job

/-- STAGE_COMPLETE: the engine is free, and the stage's result takes effect after ranNs of running. -/
def stageCompleteEffect (c : CoreRef) (i : ItemRef) (ranNs : Nat) (_m : Mem) (d : Dev) : Dev :=
  match d.job i.job, d.entry i, d.stageAt i, (d.core c).busy.find? fun b => b.item == i with
  | some j, some e, some s, some b =>
    if e.running = false ∨ e.core ≠ some c then d
    else
      let d := d.until (b.since + ranNs)
      let d := d.onCore c fun x => { x with busy := x.busy.filter fun y => y.item != i }
      let k := kindOf s
      let d := d.onEntry i fun e => { e with
        running := false, result := none, ran := e.ran.modify k (· + d.scaled 1 ranNs) }
      match e.result with
      | some (.ok out) => d.stagePassed c j i e s out
      | some (.err st detail crc) => d.stageFailed j i e s st detail crc
      | none => d
  | _, _, _, _ => d

/-- An engine completing a stage. -/
def execStageComplete (core : CoreRef) (item : ItemRef) (ranNs : Nat) (s : State) : Host.Outcome State Fault Refusal :=
  .next (s.put (stageCompleteEffect core item ranNs s.mem s.dev))

/-- ENGINE_WATCHDOG (R122): 10 ms without input or output while holding a stage; the unit fault that follows restarts the item. -/
def engineWatchdogEffect (c : CoreRef) (slot : Nat) (_m : Mem) (d : Dev) : Dev :=
  match (d.core c).busy.find? fun b => b.slot == slot with
  | some b =>
    if slot < 7 ∧ d.engineUp c slot then
      let d := (d.until (b.since + 10000000)).onCtrs c.die fun k => { k with engineWatchdog := k.engineWatchdog + 1 }
      d.report St.FLT_WATCHDOG (d.engineUnit c slot)
    else d
  | none => d

/-- An engine holding a stage without progress for 10 ms. -/
def execEngineWatchdog (core : CoreRef) (slot : Nat) (s : State) : Host.Outcome State Fault Refusal :=
  .next (s.put (engineWatchdogEffect core slot s.mem s.dev))

end Sys2Proof.Machine
end

