-- ==== Sys2Proof/Machine/Faults.lean ====
section
/-! DEFINITION. Fault reports, Roist's handling of them, spares, and the loss of a die (R21, R30 to R37, R109, R139, R266, R397, R495,
R501, R505, R521 to R537). -/

namespace Sys2Proof.Machine

open Sys2Proof

/-! ### FAULT_REPORT -/

/-- Counters of chapter 17 that a status adds to (R519). -/
def countIntegrity (st : Status) (c : IntCtrs) : IntCtrs :=
  if st = St.INT_SRAM_CORRECTED then { c with sramCorrected := c.sramCorrected + 1 }
  else if st = St.INT_SRAM_UNCORRECTED then { c with sramUncorrected := c.sramUncorrected + 1 }
  else if st = St.INT_DRAM_CORRECTED then { c with dramCorrected := c.dramCorrected + 1 }
  else if st = St.INT_DRAM_UNCORRECTED then { c with dramUncorrected := c.dramUncorrected + 1 }
  else if st = St.INT_ROW_REPAIRED then { c with rowsRepaired := c.rowsRepaired + 1 }
  else c

/-- A report whose error the flip mask caused counts in INT_INJECTED (R512). -/
def countInjected (injected : Bool) (c : IntCtrs) : IntCtrs := { c with injected := c.injected + b2n injected }

/-- A unit reports a condition, with the counters it adds to (R512, R519, R521). -/
def Dev.reportCounted (d : Dev) (st : Status) (u : UnitRef) (detail : BitVec 64) (injected : Bool) : Dev :=
  (d.onInteg u.die fun c => countInjected injected (countIntegrity st c)).report st u detail injected

/-- FAULT_REPORT (R521 to R534): the collector of the unit's die takes the report. A kind that Table 18.2 does not define, or a die
that does not exist, reports nothing. -/
def faultReportEffect (st : Status) (u : UnitRef) (detail : BitVec 64) (injected : Bool) (_m : Mem) (d : Dev) : Dev :=
  if 8 ≤ u.die ∨ kindDefined u.kind = false ∨ d.seqs.step < 6 then d
  else
    let d := if u.kind = 0x0F then d.onFc u.die fun c => { c with selfFault := true } else d
    d.reportCounted st u detail injected

/-- A unit reporting a fault to its collector. -/
def execFaultReport (status : Status) (src : UnitRef) (detail : BitVec 64) (injected : Bool) (s : State) : Host.Outcome State Fault Refusal :=
  .next (s.put (faultReportEffect status src detail injected s.mem s.dev))

/-! ### Units and what stands in for them (R35, Table 1.5) -/

/-- The unit a record names, from its physical indices. -/
def FaultRec.who (r : FaultRec) : UnitRef :=
  let p := r.physical.toNat
  { kind := r.kind, die := bits p 2 0, cluster := bits p 6 3, core := bits p 10 7, slot := bits p 14 11 }

/-- The cluster a unit lies in, as a unit. -/
def clusterOfUnit (u : UnitRef) : UnitRef := { kind := 4, die := u.die, cluster := u.cluster }

/-- The core a unit lies in, as a unit. -/
def coreOfUnit (u : UnitRef) : UnitRef := { kind := 2, die := u.die, cluster := u.cluster, core := u.core }

/-- Logical number of a unit's cluster, 0xF where it is not mapped. -/
def Dev.clusterNumber (d : Dev) (u : UnitRef) : Nat := logicalOf (d.die u.die).map u.cluster

/-- Logical number of a unit's core in its cluster, 0xF where it is not mapped. -/
def Dev.coreNumber (d : Dev) (u : UnitRef) : Nat := logicalOf (d.cluster u.die u.cluster).map u.core

/-- A unit taken out of service: the unit, the logical number or slot it served as, and whether a spare takes that over, how long
after the report at the earliest. -/
structure Plan where
  who : UnitRef
  number : Nat
  spare : Bool := true
  wait : Nat := 0
  deriving DecidableEq, Repr, Inhabited

/-- A cluster is lost: the spare cluster stands in, or where it serves already only the unit that failed goes. -/
def Dev.clusterPlan (d : Dev) (u failed : UnitRef) (number : Nat) : Option Plan :=
  if d.clusterNumber u = 0xF then
    (if u.cluster = 8 ∧ (d.die u.die).spareCluster = false then some { who := (clusterOfUnit u), number := 0xF, spare := false } else none)
  else if (d.die u.die).spareCluster = false then some { who := (clusterOfUnit u), number := d.clusterNumber u, wait := 40000000 }
  else some { who := failed, number := number, spare := false }

/-- A core is lost: the spare core stands in, or a second loss takes the cluster. -/
def Dev.corePlan (d : Dev) (u : UnitRef) : Option Plan :=
  let x := d.cluster u.die u.cluster
  if d.coreNumber u = 0xF then
    (if u.core = 8 ∧ x.spareUsed = false then some { who := (coreOfUnit u), number := 0xF, spare := false } else none)
  else if x.spareUsed = false then some { who := (coreOfUnit u), number := d.coreNumber u, wait := 2000000 }
  else d.clusterPlan u (coreOfUnit u) (d.coreNumber u)

/-- A spare engine slot of a core is free to use. -/
def Core.spareFree (x : Core) (slot : Nat) : Bool := !(x.spareEngines.any fun p => p.1 == slot) && !x.deadEngines.contains slot

/-- What a fault at severity UNIT takes out, by unit kind; none where there is nothing to take out. -/
def Dev.planFor (d : Dev) (u : UnitRef) : Option Plan :=
  let x := (d.cluster u.die u.cluster).cores.getD u.core {}
  if u.kind = 1 then
    (if d.coreNumber u = 0xF ∨ x.deadEngines.contains u.slot then none
    else if u.slot ≤ 1 ∧ x.spareFree 7 then some { who := u, number := u.slot, wait := 50000 }
    else if (u.slot = 2 ∨ u.slot = 3) ∧ x.spareFree 8 then some { who := u, number := u.slot, wait := 50000 }
    else if (u.slot = 7 ∨ u.slot = 8) ∧ x.spareFree u.slot then some { who := u, number := u.slot, spare := false }
    else d.corePlan u)
  else if u.kind = 2 ∨ u.kind = 3 then d.corePlan u
  else if u.kind = 4 then d.clusterPlan u (clusterOfUnit u) (d.clusterNumber u)
  else if u.kind = 7 then some { who := u, number := u.slot, spare := decide ((d.die u.die).seqSpares < 2), wait := 1000000 }
  else if u.kind = 0x0C then some { who := u, number := u.slot, spare := false }
  else if u.kind = 0x0D then some { who := u, number := 0, spare := (d.die u.die).postmaster == 0, wait := 200000000 }
  else none

/-! ### Work on a unit -/

/-- Logical cores that a cluster or core unit stands for; none for other units. -/
def Dev.coresOf (d : Dev) (u : UnitRef) : List CoreRef :=
  if u.kind = 4 ∨ u.kind = 2 ∨ u.kind = 3 then
    (allCores.filter fun c => c.die == u.die && d.clusterNumber u == c.cluster && (u.core == 0xF || d.coreNumber u == c.core)).filter fun c =>
      (d.physical c).isSome
  else []

/-- Items in flight on a unit: in an engine's stages, or on the cores of a larger unit (R34). -/
def Dev.itemsOn (d : Dev) (u : UnitRef) : List ItemRef :=
  if u.kind = 1 then
    let x := (d.cluster u.die u.cluster).cores.getD u.core {}
    (x.busy.filter fun b => x.slotOf b.slot == u.slot).map (·.item)
  else (d.coresOf u).flatMap fun c => (d.core c).flight

/-- Items sacked on a unit's cores and not started. -/
def Dev.sackedOn (d : Dev) (u : UnitRef) : List ItemRef :=
  (d.coresOf u).flatMap fun c => let x := d.core c; (x.sack ++ x.nextSack).filter fun i => !x.flight.contains i

/-- An item restarts because of a fault report (R34, R123). -/
def Dev.restartFor (d : Dev) (r : FaultRec) (i : ItemRef) : Dev := (d.itemRestart i (d.stageIndex i) (some r.who) r.injected).1

/-- Streams of cores that go: they keep their core's number where a spare takes it over, else another TXE takes each, the sums of
R264 ignored (R266). -/
def Dev.moveStreams (d : Dev) (cores : List CoreRef) (spare : Bool) : Dev :=
  (d.streams.filter fun s => cores.contains s.home).foldl (fun (d : Dev) (s : Stream) =>
    let home := if spare then s.home
      else ((if s.bounded then d.placeBounded s.stepNs s.rate true else d.placeShared).getD s.home)
    d.onStream s.number fun s => { s with home := home, moves := s.moves + 1 }) d

/-- Handles in a cluster's cache return to the rings (R495). -/
def Dev.emptyCache (d : Dev) (die k : Nat) : Dev :=
  let c := (d.cluster die k).cache
  (d.onPool die fun x => (List.range 4).foldl (fun (x : Pool) i => x.push i (c.getD i [])) x).onCluster die k fun x =>
    { x with cache := [[], [], [], []] }

/-- Buffers whose last owner is a core's sequencer are repossessed (R501, Table 18.4). -/
def Dev.repossessCore (d : Dev) (c : CoreRef) : Dev :=
  let u := d.seqUnit c
  d.repossessAll (fun b => b.lastOwner == u) fun w => w.owner == u

/-- A core out of service holds nothing (R35, R528). -/
def Core.lost (x : Core) : Core := { slotWaits := x.slotWaits, deadEngines := x.deadEngines, spareEngines := x.spareEngines }

/-- The unit of a plan goes out of service. -/
def Dev.takeOut (d : Dev) (p : Plan) : Dev :=
  let u := p.who
  if u.kind = 1 then d.onCluster u.die u.cluster fun x => { x with
    cores := x.cores.modify u.core fun c => { c.freeWatches [p.number] with deadEngines := c.deadEngines ++ [p.number] } }
  else if u.kind = 2 then d.onCluster u.die u.cluster fun x => { x with
    map := x.map.map fun n => if n = u.core then 0xF else n
    cores := x.cores.modify u.core Core.lost
    spareUsed := x.spareUsed || u.core == 8 }
  else if u.kind = 4 then
    ((d.emptyCache u.die u.cluster).onDie u.die fun x => { x with
      map := x.map.map fun n => if n = u.cluster then 0xF else n
      spareCluster := x.spareCluster || u.cluster == 8 }).setDomain u.die (2 + u.cluster) false
  else d

/-- A retirement or repair recorded in the configuration store (R32, R36). -/
def Dev.recordRetired (d : Dev) (u : UnitRef) (at_ : Nat) (repaired : Bool) : Dev :=
  (d.cfgWrite fun c => { c with
    retired := c.retired ++ [{ who := u, at_ := at_ }]
    repairs := if repaired then c.repairs ++ [u] else c.repairs }).1

/-- Roist acts on a plan: items restarted, buffers and watches taken back, the unit out of service, and a spare prepared or, with none
left, the unit retired at DEGRADED (R34, R35, R139, R529). -/
def Dev.carryOut (d : Dev) (p : Plan) (r : FaultRec) : Dev :=
  let u := p.who
  let running := d.itemsOn u
  let sacked := d.sackedOn u
  let cores := d.coresOf u
  let d := cores.foldl (fun (d : Dev) c => d.stageUnitLost (16 + 64 * c.die + 8 * c.cluster + c.core)) d
  let d := cores.foldl Dev.repossessCore d
  let d := running.foldl (fun (d : Dev) i => d.restartFor r i) d
  let d := sacked.foldl Dev.itemRequeue d
  let d := d.takeOut p
  let d := d.moveStreams cores p.spare
  if p.spare then d.onFc u.die fun c => { c with repairs := c.repairs ++ [{ who := u, number := p.number, due := r.time + p.wait, at_ := r.time }] }
  else (d.recordRetired u r.time false).reportAt 3 r.status u r.detail r.injected

/-! ### Poisoned DRAM (R505) -/

/-- A slot of a parcel not yet released runs again: an item still running restarts, and one that was DONE is mapped anew. -/
def Dev.runAgain (d : Dev) (r : FaultRec) (i : ItemRef) : Dev :=
  match d.entry i with
  | none => d
  | some e =>
    if e.state = .admitted then d.restartFor r i
    else if e.state ≠ .done then d
    else
      let d := d.onEntry i fun e => { e with
        state := .mapped, placed := [], tokens := none, core := none, started := false, stage := 0, stored := none, remote := {}
        ran := [0, 0, 0, 0, 0, 0], restarts := e.restarts + 1, mappedAt := d.now }
      d.onJobCtrs i.job fun c => { c with itemsDone := c.itemsDone - 1, itemsInFlight := c.itemsInFlight + 1, restarts := c.restarts + 1 }

/-- The readers of the buffer at a poisoned address act (R505): DETAIL is the address. -/
def Dev.poisoned (d : Dev) (r : FaultRec) : Dev :=
  match d.buf (Config.bufferAt r.detail.toNat) with
  | none => d
  | some b => match b.use with
    | .stored i =>
      if ((d.entry i).map (·.state)) = some .admitted then
        let d := d.onEntry i fun e => { e with stored := none, remote := {}, mappedAt := d.now }
        (d.onJobCtrs i.job fun c => { c with rereads := c.rereads + 1 }).restartFor r i
      else d.onEntry i fun e => if e.state = .stored then { e with state := .mapped, stored := none, remote := {}, mappedAt := d.now } else e
    | .item i _ => d.restartFor r i
    | .parcel j rank step => match d.rank j rank with
      | some x => if step < x.nextStep then d
          else (x.window.filter fun e => e.step == step).foldl (fun (d : Dev) e => d.runAgain r (e.ref j rank)) d
      | none => d
    | .staging _ => d

/-! ### The loss of a die (R30, R31, R109, R309, R397, R531) -/

/-- Ranks bound to the ports of a die: (job handle, rank). -/
def Dev.ranksOfDie (d : Dev) (die : Nat) : List (Nat × Rank) := d.jobs.flatMap fun j => (j.ranksOn die).map fun r => (j.handle, r)

/-- A rank moves to its alternate port and is rebuilt from its cursor; what its lost die held is given up (R109, R309, R535). -/
def Dev.moveRank (d : Dev) (job : Nat) (r : Rank) : Dev :=
  let n := ((d.port r.port).node (.rank job r.rank)).getD { key := .rank job r.rank }
  let d := ((d.dropWindow job r.rank).dropParcels job r.rank).dropRankNode r.port job r.rank
  let d := d.addRankNode r.altPort job r.rank { n with queue := [], granted := false, deficit := 0 }
  (d.onRank job r.rank fun r => { r.startAt r.cursor with port := r.altPort }).advance job r.rank

/-- A rank with no alternate stays undelivered: items in flight have lost their input, the others are mapped without stored bytes,
and its parcels are held (R109, R123). -/
def Dev.strandRank (d : Dev) (job : Nat) (r : Rank) : Dev :=
  let d := r.window.foldl (fun (d : Dev) (e : Entry) =>
    let i := e.ref job r.rank
    if e.state = .admitted then d.itemFail i { status := St.RTE_INPUT_LOST, stage := d.stageIndex i, fault := true }
    else if e.state = .stored ∨ e.state = .readIssued then
      ((d.dropFetch i).freeStored i).onEntry i fun e => { e with state := .mapped, stored := none, remote := {} }
    else d) d
  r.parcels.foldl (fun (d : Dev) p => d.parcelReturn job r.rank p.step) d

/-- A job's boxes are rebuilt on the die of its lowest bound rank, and an ARRIVE already sent is sent again (R397). -/
def Dev.moveBoxes (d : Dev) (j : Job) (die : Nat) : Dev :=
  let b := j.barrier
  if b.die ≠ die ∨ b.boxes = 0 then d
  else
    let to_ := ((d.job j.handle).map Job.boxDie).getD die
    let d := (d.onDie die fun x => { x with boxesUsed := x.boxesUsed - b.boxes }).onDie to_ fun x => { x with boxesUsed := x.boxesUsed + b.boxes }
    let d := d.onBarrier j.handle fun b => { b with die := to_ }
    if b.sentAt.isSome ∧ b.lastUp ≠ [] then d.sendUp j.handle b.lastUp else d

/-- Another die becomes time master when the time master's is lost (R30, R31). -/
def Dev.moveMaster (d : Dev) (die : Nat) : Dev :=
  if d.clk.master ≠ die then d
  else if d.clk.onSecondary = false ∧ d.clk.secondary < 16 ∧ d.dieUp (d.clk.secondary / 2) then
    { d with clk := { d.clk with master := d.clk.secondary / 2, onSecondary := true, switchDue := false } }
  else { d with clk := { d.clk with master := ((List.range 8).find? d.dieUp).getD 0, holdover := true, switchDue := false } }

/-- Staged changes that a lost die takes with it (R139). -/
def Dev.withdrawAll (d : Dev) : Dev :=
  d.jobs.foldl (fun (d : Dev) (j : Job) => match j.staged with
    | some x => let st := if x.ph.isSome then St.RTE_PREPARE_FAILED else St.RTE_COMMIT_ABORTED; d.withdraw j st st
    | none => d) d

/-- Roist moves the work of a die in its safe state (R109, R397, R531 step 6). -/
def Dev.dieLost (d : Dev) (die : Nat) (r : FaultRec) : Dev :=
  let d := d.withdrawAll
  let d := ((d.die die).conns.filter fun c => c.state != .error).foldl (fun (d : Dev) c => d.connError c.localQpn St.CUR_FLUSHED) d
  let here := allCores.filter fun c => c.die == die && (d.physical c).isSome
  let away := fun (i : ItemRef) => d.postDie i != die
  let d := ((here.flatMap fun c => (d.core c).flight).filter away).foldl (fun (d : Dev) i => d.restartFor r i) d
  let d := ((here.flatMap fun c => (d.core c).sack ++ (d.core c).nextSack).filter fun i => d.postDie i != die).foldl Dev.itemRequeue d
  let d := (d.ranksOfDie die).foldl (fun (d : Dev) p =>
    if p.2.altPort < 16 ∧ d.dieUp (p.2.altPort / 2) then d.moveRank p.1 p.2 else d.strandRank p.1 p.2) d
  let d := d.jobs.foldl (fun (d : Dev) j => d.moveBoxes j die) d
  let d := d.moveStreams here false
  let d := d.onFetch die fun _ => {}
  let d := { d with
    stagings := d.stagings.filter fun x => qpnDie x.qpn != die
    leases := d.leases.filter fun x => x.die != die }
  let d := d.onDie die fun x => { x with spill := [], fc := { x.fc with repairs := [] } }
  d.moveMaster die

/-! ### FAULT_HANDLING (R37, R529) -/

/-- What Roist does about one record. An injected one never retires its unit: the unit is mapped again once its items have restarted
(R512). -/
def Dev.handleFault (d : Dev) (r : FaultRec) : Dev :=
  let u := r.who
  if r.severity = 6 then d.dieLost u.die r
  else if d.dieUp u.die = false then d
  else
    let d := if u.kind = 0x0A then d.onDie u.die fun x => { x with linksDying := x.linksDying ++ [r.detail.toNat % 3] } else d
    if u.kind = 5 ∧ 4 ≤ r.severity then d.poisoned r
    else if r.severity = 4 then (d.itemsOn u).foldl (fun (d : Dev) i => d.restartFor r i) d
    else if r.severity = 5 ∧ !(r.injected) then
      match d.planFor u with
      | some p => d.carryOut p r
      | none => d
    else if r.severity = 5 then
      ((d.itemsOn u).foldl (fun (d : Dev) i => d.restartFor r i) d).onFc u.die fun c => { c with fenced := c.fenced.erase u }
    else d

/-- FAULT_HANDLING of a die: its next record, in SEQ order; one on a die with a repair in progress waits (R37). -/
def faultHandlingEffect (die : Nat) (_m : Mem) (d : Dev) : Dev :=
  if 8 ≤ die ∨ d.seqs.pkgSafe then d
  else match (d.fc die).todo with
    | [] => d
    | r :: rest =>
      if (d.fc die).repairs ≠ [] ∧ r.severity < 6 then d
      else (d.onFc die fun c => { c with todo := rest }).handleFault r

/-- Roist taking the die's next fault. -/
def execFaultHandling (die : Nat) (s : State) : Host.Outcome State Fault Refusal := .next (s.put (faultHandlingEffect die s.mem s.dev))

/-! ### SPARE_ENTRY (R32, R35, R585, R626, Table 1.5) -/

/-- The spare of a repair enters service. -/
def Dev.bringIn (d : Dev) (r : Repair) : Dev :=
  let u := r.who
  if u.kind = 1 then d.onCluster u.die u.cluster fun x => { x with
    cores := x.cores.modify u.core fun c => { c with
      spareEngines := c.spareEngines ++ [(if u.slot ≤ 1 then 7 else 8, r.number)]
      deadEngines := c.deadEngines.erase r.number } }
  else if u.kind = 2 then d.onCluster u.die u.cluster fun x => { x with map := x.map.set r.number 8, spareUsed := true }
  else if u.kind = 4 then (d.onDie u.die fun x => { x with map := x.map.set r.number 8, spareCluster := true }).setDomain u.die 10 true
  else if u.kind = 7 then d.onDie u.die fun x => { x with seqSpares := x.seqSpares + 1 }
  else d.onDie u.die fun x => { x with
    postmaster := 1
    mbus := x.mbus.map fun (b : Mbus) => { b with clearDue := true }
    fc := { x.fc with lastKick := d.now } }

/-- SPARE_ENTRY of a die: at the first tick boundary late enough after the report, or 200 ms after it for a Postmaster core. -/
def spareEntryEffect (die : Nat) (_m : Mem) (d : Dev) : Dev :=
  if d.dieUp die = false then d
  else match (d.fc die).repairs with
    | [] => d
    | r :: rest =>
      if r.who.kind ≠ 0x0D ∧ d.clk.tickStart < r.due then d
      else
        let d := if r.who.kind = 0x0D then d.until r.due else d
        ((d.onFc die fun c => { c with repairs := rest }).bringIn r).recordRetired r.who r.at_ true

/-- A spare brought into service. -/
def execSpareEntry (die : Nat) (s : State) : Host.Outcome State Fault Refusal := .next (s.put (spareEntryEffect die s.mem s.dev))

/-! ### Leases, watchdog, accounting (R530, R537) -/

/-- LEASE_EXPIRY (R530): a lease not renewed within 20 ms is broken; its table stands as its last switch set it. -/
def leaseExpiryEffect (die lease : Nat) (_m : Mem) (d : Dev) : Dev :=
  if 8 ≤ die ∨ d.seqs.step < 6 then d
  else
    (d.onFc die fun c => { c with ctrs := { c.ctrs with leasesBroken := c.ctrs.leasesBroken + 1 } }).report St.FLT_LEASE_BROKEN
      (d.postmasterUnit die) (BitVec.ofNat 64 lease)

/-- A Roist lease broken by the always-on watchdog. -/
def execLeaseExpiry (die lease : Nat) (s : State) : Host.Outcome State Fault Refusal := .next (s.put (leaseExpiryEffect die lease s.mem s.dev))

/-- WATCHDOG_EXPIRY (R530): 100 ms without a KICK; UNIT against the Postmaster core, or DIE once the spare serves. -/
def watchdogExpiryEffect (die : Nat) (_m : Mem) (d : Dev) : Dev :=
  if 8 ≤ die ∨ d.seqs.step < 6 then d
  else
    let d := d.until ((d.fc die).lastKick + 100000000)
    let d := d.onFc die fun c => { c with
      lastKick := d.now
      ctrs := { c.ctrs with watchdogExpiries := c.ctrs.watchdogExpiries + 1 } }
    let u := d.postmasterUnit die
    if (d.die die).postmaster = 0 then d.report St.FLT_WATCHDOG u
    else d.reportAt (if die = 0 then 7 else 6) St.FLT_WATCHDOG u 0 false

/-- FC_WATCHDOG not refreshed in time. -/
def execWatchdogExpiry (die : Nat) (s : State) : Host.Outcome State Fault Refusal := .next (s.put (watchdogExpiryEffect die s.mem s.dev))

/-- ACCOUNTING_CHECK (R537): each job whose item counters do not agree is reported, with the difference. -/
def accountingCheckEffect (_m : Mem) (d : Dev) : Dev :=
  if d.seqs.step < 6 ∨ d.seqs.pkgSafe then d
  else d.jobs.foldl (fun (d : Dev) j => d.checkItems j.handle) d

/-- The check made every second. -/
def execAccountingCheck (s : State) : Host.Outcome State Fault Refusal := .next (s.put (accountingCheckEffect s.mem s.dev))

end Sys2Proof.Machine
end

