-- ==== Sys2Proof/Machine/Health.lean ====
section
/-! DEFINITION. Margins, junction sensors and the fatal dump (R540, R541, R625, R638). -/

namespace Sys2Proof.Machine

open Sys2Proof

/-! ### MARGIN_MEASUREMENT (R540, Table 18.7) -/

/-- Status of a margin: its row of Table 18.7. -/
def marginStatus (row : Nat) : Status :=
  [St.FLT_MARGIN_VR, St.FLT_MARGIN_EYE, St.FLT_MARGIN_OPTICAL, St.FLT_MARGIN_RETRY, St.FLT_MARGIN_HBM, St.FLT_MARGIN_TJ].getD row 0

/-- Unit kind that a margin's reports name (Table 18.2). -/
def marginKind (row : Nat) : Nat := [0x10, 9, 0x10, 8, 6, 0x10].getD row 0x10

/-- WARN and ACTION of a margin in thousandths of its unit; the optical levels follow the module's low-warning threshold. -/
def marginLevels (row : Nat) (baseline : Int) : Int × Int :=
  if row = 0 then (2000, 3000)
  else if row = 1 then (40000, 25000)
  else if row = 2 then (baseline + 2000, baseline)
  else if row = 3 then (4000, 8000)
  else if row = 4 then (150, 100)
  else (100000, 105000)

/-- A measurement lies beyond its warning level, and beyond its action level. For a regulator the baseline is its current, in
thousandths of a per cent of its rating. -/
def marginBeyond (row : Nat) (value baseline : Int) : Bool × Bool :=
  let l := marginLevels row baseline
  if row = 0 then (decide (l.1 < value ∨ 90000 < baseline), decide (l.2 < value ∨ 97000 < baseline))
  else if row = 3 ∨ row = 5 then (decide (l.1 ≤ value), decide (l.2 ≤ value))
  else (decide (value < l.1), decide (value < l.2))

/-- One level of a margin at a measurement: reported now, reported flag, and since when the margin has been clear. A level is
reported once per crossing, and again only after 24 h clear. -/
def levelStep (beyond reported : Bool) (clear : Option Nat) (now : Nat) : Bool × Bool × Option Nat :=
  let again := match clear with
    | some t => decide (t + dayNs ≤ now)
    | none => false
  let held := reported && !again
  if beyond then (!held, true, none) else (false, held, some (clear.getD now))

/-- The margin's entry after a measurement, and which levels it reports. -/
def Margin.measured (x : Margin) (value baseline : Int) (now : Nat) : Margin × Bool × Bool :=
  let b := marginBeyond x.row value baseline
  let l := marginLevels x.row baseline
  let w := levelStep b.1 x.warned x.warnClear now
  let a := levelStep b.2 x.acted x.actClear now
  ({ x with value := value, warn := l.1, action := l.2, warned := w.2.1, acted := a.2.1, warnClear := w.2.2, actClear := a.2.2, at_ := now },
   w.1, a.1)

/-- Regulator actions in force after a measurement of one regulator (R564). -/
def regStep (l : List (Nat × Option Nat)) (unit : Nat) (fires beyond : Bool) (now : Nat) : List (Nat × Option Nat) :=
  if fires then (l.filter fun x => x.1 != unit) ++ [(unit, none)]
  else updWhere l (fun x => x.1 == unit) fun x => (x.1, if beyond then none else some (x.2.getD now))

/-- What the action level of a margin calls for (Table 18.7): a spare SerDes slice, refreshes, a spare DQ lane; the others act
elsewhere. -/
def Dev.marginAction (d : Dev) (die row unit : Nat) : Dev :=
  if row = 1 then d.onPort (unit / 8) fun p => { p with sliceUsed := true }
  else if row = 3 then d.onStore fun s => { s with
    cells := s.cells.map fun (c : Cell) => if lunKey c.slot = unit ∧ c.refreshBy = none then { c with refreshBy := some (d.now + 60 * second) } else c }
  else if row = 4 then d.onDie die fun x =>
    let ch := unit / 64
    let used := ((x.dqSpares.find? fun p => p.1 == ch).map (·.2)).getD 0
    if used < 2 then { x with dqSpares := (x.dqSpares.filter fun p => p.1 != ch) ++ [(ch, used + 1)] } else x
  else d

/-- A margin can be measured: the die runs, and the bus it is read over is not isolated (R627). -/
def Dev.measurable (d : Dev) (die row : Nat) : Bool :=
  d.dieUp die && decide (6 ≤ d.seqs.step) && decide (row ≤ 5) &&
    !(row == 2 && d.busIsolated die 2) && !(row == 0 && d.busIsolated die 3)

/-- MARGIN_MEASUREMENT: the latest value kept, crossings reported, the action taken. -/
def marginMeasurementEffect (die row unit : Nat) (value baseline : Int) (_m : Mem) (d : Dev) : Dev :=
  if d.measurable die row = false then d
  else
    let same := fun (x : Margin) => x.row == row && x.unit == unit
    let old := ((d.die die).margins.find? same).getD { row := row, unit := unit, value := 0, warn := 0, action := 0 }
    let (x, warns, acts) := old.measured value baseline d.now
    let d := d.onDie die fun y => { y with margins := if y.margins.any same then updWhere y.margins same fun _ => x else y.margins ++ [x] }
    let u : UnitRef := { kind := marginKind row, die := die }
    let d := if row = 0 then { d with pwr := { d.pwr with
        regActions := regStep d.pwr.regActions (256 * die + unit) acts (marginBeyond row value baseline).2 d.now } } else d
    let d := if warns then d.reportAt 1 (marginStatus row) u (BitVec.ofNat 64 unit) false else d
    if acts then (d.marginAction die row unit).report (marginStatus row) u (BitVec.ofNat 64 unit) else d

/-- A margin measured. -/
def execMarginMeasurement (die margin unit : Nat) (value baseline : Int) (s : State) : Host.Outcome State Fault Refusal :=
  .next (s.put (marginMeasurementEffect die margin unit value baseline s.mem s.dev))

/-! ### JUNCTION_SENSOR_READ (R625) -/

/-- JUNCTION_SENSOR_READ: the reading kept; at 118 °C THERMTRIP_N falls and FLT_THERMTRIP is FATAL. During the power-fail sequence
the pin alone falls. -/
def junctionSensorReadEffect (die sensor : Nat) (celsius : Int) (_m : Mem) (d : Dev) : Dev :=
  if 8 ≤ die ∨ 24 ≤ sensor then d
  else
    let key := 24 * die + sensor
    let d := { d with pwr := { d.pwr with junctions := (d.pwr.junctions.filter fun x => x.1 != key) ++ [(key, celsius)] } }
    if celsius < 118 then d
    else
      let d := { d with pins := { d.pins with thermtripN := true } }
      if d.seqs.powerFailAt.isSome then d
      else d.report St.FLT_THERMTRIP { kind := 0x10, die := die } (BitVec.ofInt 64 celsius)

/-- A junction sensor read. -/
def execJunctionSensorRead (die sensor : Nat) (celsius : Int) (s : State) : Host.Outcome State Fault Refusal :=
  .next (s.put (junctionSensorReadEffect die sensor celsius s.mem s.dev))

/-! ### DUMP_COMPLETE (R541, R638) -/

/-- A fault record's 32 bytes (Table 18.1). -/
def FaultRec.bytes (r : FaultRec) : Bytes :=
  layout 32 [(0, le 8 r.seq), (8, le 8 r.time), (16, le 2 r.status.toNat),
    (18, le 1 (r.severity + 8 * b2n r.first + 16 * b2n r.injected + 32 * b2n r.fixed)), (19, le 1 r.kind),
    (20, le 2 r.logical.toNat), (22, le 2 r.physical.toNat), (24, le 8 r.detail.toNat)]

/-- FC_STATUS of a die (Table 21.11). -/
def Die.fcStatus (x : Die) : Nat :=
  x.fc.seen.toNat + 256 * b2n x.fc.first.isSome + 512 * b2n x.fc.logOverwrite + 1024 * b2n x.safe + 2048 * b2n x.fc.selfFault

/-- FC_FIRST as read: the record's bytes, or zeros (R605). -/
def Collector.firstBytes (c : Collector) : Bytes := match c.first with
  | some r => r.bytes
  | none => zeros 32

/-- Severities in force on a die that differ from their default, in ascending status and kind (Table 18.14). -/
def Die.overrides (x : Die) (die : Nat) : List (Status × Nat × Nat) :=
  (x.fc.severities.filter fun v => v.2.2 != defaultSeverity v.1 v.2.1 die).foldl (fun l v =>
    let before := fun (y : Status × Nat × Nat) => decide (y.1.toNat * 256 + y.2.1 < v.1.toNat * 256 + v.2.1)
    l.takeWhile before ++ [v] ++ l.dropWhile before) []

/-- Collector section of a dump (Table 18.14). -/
def Die.dumpCollector (x : Die) (die : Nat) : Bytes :=
  let o := x.overrides die
  layout 256 ([(0, le 4 x.fcStatus), (4, le 1 (min 52 o.length)), (5, le 1 (b2n (decide (52 < o.length)))), (8, x.fc.firstBytes),
    (40, le 4 x.fc.next.toNat)] ++
    ((o.take 52).zipIdx.map fun p => (48 + 4 * p.2, le 2 p.1.1.toNat ++ le 1 p.1.2.1 ++ le 1 p.1.2.2)))

/-- Records a die still holds: its always-on records that the ring has not, and the ring (R526). -/
def Collector.held (c : Collector) : List FaultRec := (c.aon.filter fun r => !(c.ring.any fun y => y.seq == r.seq)) ++ c.ring

/-- Recent-faults section: the last 1,024 records. -/
def Collector.dumpFaults (c : Collector) : Bytes :=
  fit 32768 ((c.held.drop (c.held.length - 1024)).flatMap FaultRec.bytes)

/-- Postmaster section: the active core's registers and top of stack, which only its program gives; a core that does not run has zero
bytes. -/
def dumpPostmaster (die core : Nat) : Bytes :=
  ((List.range 296).map fun i => Config.postmasterByte die core i) ++ zeros 216 ++
    ((List.range 7680).map fun i => Config.postmasterByte die core (512 + i)) ++ zeros 8192

/-- Items of a job in flight on a die: begun and not ended, of its ranks there. -/
def Job.inFlightOn (j : Job) (die : Nat) : Nat := ((j.ranksOn die).map fun r => r.window.countP fun e => e.begun && e.unfinished).sum

/-- Lowest cursor of a job's ranks on a die; all ones for none. -/
def Job.lowestCursorOn (j : Job) (die : Nat) : Nat :=
  match (j.ranksOn die).map (·.cursor) with
  | [] => ones 64
  | c :: cs => cursorOf j.k (cs.foldl min c)

/-- A dump's entry for a job slot (Table 18.15). -/
def Dev.dumpJob (d : Dev) (die slot : Nat) : Bytes :=
  match d.jobs.find? fun j => slotOf j.handle == slot with
  | some j => layout 32 [(0, le 4 j.handle), (4, le 1 j.state.code), (5, le 1 (b2n j.barrier.held)), (8, le 4 j.stamp),
      (16, le 8 (j.inFlightOn die)), (24, le 8 (j.lowestCursorOn die))]
  | none => layout 32 [(4, le 1 0xFF), (24, le 8 (ones 64))]

/-- Sections of a die (Table 18.9). -/
def Dev.dumpDie (d : Dev) (die : Nat) : Bytes :=
  let x := d.die die
  x.dumpCollector die ++ x.fc.dumpFaults ++ dumpPostmaster die x.postmaster ++ (List.range 256).flatMap fun s => d.dumpJob die s

/-- Running Roist image. -/
def Dev.runningImage (d : Dev) : Image := if d.seqs.image = 1 then d.nor.imageB else d.nor.imageA

/-- Dies whose sections a dump holds: those not retired. -/
def Dev.dumpDies (d : Dev) : List Nat := (List.range 8).filter fun i => !(d.die i).retired

/-- The dump of a FATAL report, header first (Table 18.8). -/
def Dev.dumpBytes (d : Dev) : Bytes :=
  let dies := d.dumpDies
  let writer := dies.headD 0
  let body := dies.flatMap d.dumpDie
  let head := layout 64 [(0, ascii "DUMP"), (4, le 2 1), (6, le 2 (1 + 2 * b2n (writer != 0))), (8, le 4 (64 + 57600 * dies.length)),
    (16, le 4 d.nor.dumpSeq), (20, le 4 d.semantics), (24, le 8 (d.seqs.fatalAt.getD 0)), (32, le 2 d.seqs.fatalStatus.toNat),
    (34, le 1 ((dies.map fun i => 2 ^ i).sum)), (35, le 1 writer), (36, le 4 d.bkp.failedStarts.toNat), (40, fit 16 d.runningImage.digest)]
  let x := head ++ body
  putAt x 12 (le 4 (crc32c x))

/-- SEQUENCE of a dump. -/
def dumpSequence (b : Bytes) : Nat := fld b 16 4

/-- Slot that holds the newer dump (R541, R542); none where neither holds one. -/
def Nor.newerDump (n : Nor) : Option Nat := match n.dump0, n.dump1 with
  | none, none => none
  | some _, none => some 0
  | none, some _ => some 1
  | some a, some b => some (if dumpSequence a < dumpSequence b then 1 else 0)

/-- DUMP_COMPLETE: the header of the dump under way is written, and the dump stands in the slot that held the older one. -/
def dumpCompleteEffect (_m : Mem) (d : Dev) : Dev :=
  if d.seqs.fatalAt.isNone ∨ d.seqs.dumpAt.isSome ∨ d.seqs.powerFailAt.isSome then d
  else
    let b := d.dumpBytes
    let nor := if d.nor.newerDump = some 0 then { d.nor with dump1 := some b } else { d.nor with dump0 := some b }
    { d with
      nor := { nor with dumpSeq := nor.dumpSeq + 1 }
      seqs := { d.seqs with dumpAt := some d.now } }

/-- The fatal dump's header written. -/
def execDumpComplete (s : State) : Host.Outcome State Fault Refusal := .next (s.put (dumpCompleteEffect s.mem s.dev))

end Sys2Proof.Machine
end

