-- ==== Sys2Proof/Machine/Integrity.lean ====
section
/-! DEFINITION. Scrubbing, row repair, the flip mask's arming and the franking units (R502 to R515, R612 to R614). -/

namespace Sys2Proof.Machine

open Sys2Proof

/-! ### Memories under check (R507, R613) -/

/-- Physical cluster, core and macro of an SRAM UNIT number: core 0xF the cluster's own SRAM, 0xE uncore (Table 21.16). -/
def sramPlace (unit : Nat) : Nat × Nat × Nat := (bits unit 15 12, bits unit 11 8, bits unit 7 0)

/-- Macros of 1 MiB at such a place: 2 of core scratch, 32 of a sorting frame; how many uncore has is not bounded. -/
def sramExists (unit : Nat) : Bool :=
  let p := sramPlace unit
  if p.2.1 = 0xE then true else decide (p.1 ≤ 8) && (if p.2.1 = 0xF then decide (p.2.2 < 32) else decide (p.2.1 ≤ 8 ∧ p.2.2 < 2))

/-- Unit that holds a memory, as a fault report names it. -/
def memoryUnit (die : Nat) (dram : Bool) (unit : Nat) : UnitRef :=
  let p := sramPlace unit
  if dram then { kind := 5, die := die }
  else if p.2.1 = 0xE then { kind := 0x0B, die := die }
  else if p.2.1 = 0xF then { kind := 4, die := die, cluster := p.1 }
  else { kind := 3, die := die, cluster := p.1, core := p.2.1 }

/-- Bytes of a memory: a 1 MiB macro, or a pseudo-channel pair. -/
def memoryBytes (dram : Bool) : Nat := if dram then pairBytes else 2 ^ 20

/-- The memory exists and is powered. -/
def Dev.memoryOn (d : Dev) (die : Nat) (dram : Bool) (unit : Nat) : Bool :=
  let p := sramPlace unit
  d.dieUp die && (if dram then decide (unit < 32) else sramExists unit && (p.2.1 == 0xE || (d.die die).domains.getLsbD (2 + p.1)))

/-! ### SCRUB_READ (R502 to R504, R506 to R509) -/

/-- Shortest time between the reads of a scrubber, ns (R508, R612). -/
def Dev.scrubInterval (d : Dev) (die : Nat) (dram : Bool) : Nat :=
  let b := (d.die die).scb
  if dram then max 1 b.dramInterval.toNat * 1000 else max 16 b.sramInterval.toNat * 1000 / d.pwr.sortMhz

/-- d with the scrubbers of a die changed. -/
def Dev.onScb (d : Dev) (die : Nat) (f : Scb → Scb) : Dev := d.onDie die fun x => { x with scb := f x.scb }

/-- One error found: corrected and written back, or poisoned; DETAIL is its address (Table 17.5, R504, R512). -/
def Dev.scrubError (d : Dev) (die : Nat) (dram : Bool) (unit addr wrong : Nat) (injected : Bool) : Dev :=
  let st := if dram then (if wrong = 1 then St.INT_DRAM_CORRECTED else St.INT_DRAM_UNCORRECTED)
    else if wrong = 1 then St.INT_SRAM_CORRECTED else St.INT_SRAM_UNCORRECTED
  let detail := if dram then die * 2 ^ 36 + unit * pairBytes + addr else addr
  d.reportCounted st (memoryUnit die dram unit) (BitVec.ofNat 64 detail) injected

/-- A row's error noted for R506: an uncorrectable one, or one in a second round, puts the row up for repair. -/
def Scb.noteRow (b : Scb) (unit row round wrong : Nat) : Scb :=
  if b.toRepair.contains (unit, row) then b
  else if 2 ≤ wrong ∨ (b.suspect.any fun x => x.1 == unit && x.2.1 == row && x.2.2 != round) then { b with toRepair := b.toRepair ++ [(unit, row)] }
  else if b.suspect.contains (unit, row, round) then b
  else { b with suspect := b.suspect ++ [(unit, row, round)] }

/-- A lap ended: its round time kept, the class's longest shown, and a slow one reported (R509). -/
def Dev.lapDone (d : Dev) (die : Nat) (dram : Bool) (unit took : Nat) : Dev :=
  let d := d.onScb die fun b =>
    let laps := updWhere b.laps (fun l => l.dram == dram && l.memory == unit) fun l => { l with next := 0, last := took }
    let longest := ((laps.filter fun l => l.dram == dram).map (·.last)).foldl max 0
    if dram then { b with laps := laps, lastDramMs := BitVec.ofNat 32 (longest / 1000000) }
    else { b with laps := laps, lastSramUs := BitVec.ofNat 32 (longest / 1000) }
  let b := (d.die die).scb
  let slow := if dram then decide (b.warnDramMs.toNat * 1000000 < took) else decide (b.warnSramUs.toNat * 1000 < took)
  if slow then d.reportAt (max 1 (d.severityApplied St.INT_SCRUB_SLOW (memoryUnit die dram unit))) St.INT_SCRUB_SLOW (memoryUnit die dram unit) 0 false
  else d

/-- SCRUB_READ: a scrubber reads its next 64 B, no sooner than its interval allows. wrong is the most wrong bits in a byte of SRAM, or
wrong bytes in a word of DRAM, that wear and particles have left there; errors of the flip mask are found beside them. -/
def scrubReadEffect (die : Nat) (dram : Bool) (unit addr wrong : Nat) (_m : Mem) (d : Dev) : Dev :=
  let b := (d.die die).scb
  let same := fun (l : Lap) => l.dram == dram && l.memory == unit
  let lap := b.laps.find? same
  if d.memoryOn die dram unit = false ∨ (if dram then b.dramEn else b.sramEn) = false ∨ (lap.map (·.next)).getD 0 ≠ addr then d
  else
    let d := match lap with
      | some l => d.until (l.readAt + d.scrubInterval die dram)
      | none => d
    let l : Lap := match lap with
      | some l => { l with start := if addr = 0 then d.now else l.start, readAt := d.now, next := addr + 64 }
      | none => { dram := dram, memory := unit, next := addr + 64, start := d.now, readAt := d.now }
    let d := d.onScb die fun b => { b with laps := if b.laps.any same then updWhere b.laps same fun _ => l else b.laps ++ [l] }
    let d := if wrong = 0 then d
      else
        let d := d.scrubError die dram unit addr wrong false
        if dram then d else d.onScb die fun b => b.noteRow unit (addr / 64) l.start wrong
    let mine := fun (p : Bool × Nat × Nat × Nat) => p.1 == dram && p.2.1 == unit && decide (addr ≤ p.2.2.1 ∧ p.2.2.1 < addr + 64)
    let d := (b.planted.filter mine).foldl (fun (d : Dev) p => d.scrubError die dram unit p.2.2.1 p.2.2.2 true) d
    let d := d.onScb die fun b => { b with planted := b.planted.filter fun p => !(mine p && p.2.2.2 == 1) }
    if addr + 64 < memoryBytes dram then d else d.lapDone die dram unit (d.now - l.start)

/-- A scrubber reading its next address. -/
def execScrubRead (die : Nat) (dram : Bool) (memory addr errors : Nat) (s : State) : Host.Outcome State Fault Refusal :=
  .next (s.put (scrubReadEffect die dram memory addr errors s.mem s.dev))

/-- ROW_REPAIR (R506): a row up for repair gets one of its macro's 16 redundancy rows; with none left the unit reports. -/
def rowRepairEffect (die unit row : Nat) (_m : Mem) (d : Dev) : Dev :=
  let b := (d.die die).scb
  if d.memoryOn die false unit = false ∨ b.toRepair.contains (unit, row) = false then d
  else
    let d := d.onScb die fun b => { b with
      toRepair := b.toRepair.erase (unit, row)
      suspect := b.suspect.filter fun x => !(x.1 == unit && x.2.1 == row) }
    if (b.repaired.countP fun x => x.1 == unit) < 16 then
      (d.onScb die fun b => { b with repaired := b.repaired ++ [(unit, row)] }).reportCounted St.INT_ROW_REPAIRED (memoryUnit die false unit)
        (BitVec.ofNat 64 row) false
    else d.report St.INT_REDUNDANCY_EXHAUSTED (memoryUnit die false unit) (BitVec.ofNat 64 row)

/-- A redundancy row brought in at a macro's idle pass. -/
def execRowRepair (die memory row : Nat) (s : State) : Host.Outcome State Fault Refusal :=
  .next (s.put (rowRepairEffect die memory row s.mem s.dev))

/-! ### Host access to a die's blocks (R594 to R598) -/

/-- The host reaches the windows through a port. -/
def Dev.portUp (d : Dev) (port : Nat) : Bool := decide (port < 4) && d.pins.trained.getD port false

/-- Blocks of a die's UNC domain take host writes (R598). -/
def Dev.uncOpen (d : Dev) (die : Nat) : Bool := d.dieUp die && (d.die die).domains.getLsbD 1

/-- A host write that Table 21.2 does not allow (R595). -/
def Dev.badWrite (d : Dev) (die : Nat) : Dev := d.onDie die fun x => { x with bad := { x.bad with count := satSucc x.bad.count } }

/-- Host software has the registers that test and recovery mode open; test mode has no entry here. -/
def Dev.openRegs (d : Dev) : Bool := d.start == .recovery

/-! ### ARM and DISARM (R510, R511, R613) -/

/-- The mask's range lies in its target. -/
def Flip.inTarget (f : Flip) : Bool :=
  let dram := bit f.target.toNat 0
  let unit := bits f.target.toNat 19 4
  (if dram then decide (unit < 32) else sramExists unit) && f.count != 0 && f.len != 0 && decide (f.addr.toNat + f.len.toNat ≤ memoryBytes dram)

/-- The range lies wholly in a flip page: the top 4 KiB of an SRAM macro, or of the stack (R511). -/
def Flip.inPage (f : Flip) : Bool :=
  let dram := bit f.target.toNat 0
  (!dram || bits f.target.toNat 19 4 == 31) && decide (memoryBytes dram - 4096 ≤ f.addr.toNat)

/-- A write of FLIP_ARM: DISARM before ARM; an arming outside R511 or R613 arms nothing. -/
def Flip.arm (f : Flip) (open_ : Bool) (value : Nat) : Flip :=
  if bit value 1 then { f with armed := false, remaining := 0 }
  else if bit value 0 = false then f
  else if f.inTarget ∧ (open_ ∨ f.inPage) then { f with armed := true, remaining := f.count, status := 0 }
  else { f with status := St.INT_FLIP_REFUSED }

/-- FLIP_ARM written by the host. -/
def Dev.armWrite (d : Dev) (port die : Nat) (value : BitVec 32) : Dev :=
  if d.portUp port = false ∨ d.uncOpen die = false then d
  else d.onDie die fun x => { x with flip := x.flip.arm d.openRegs value.toNat }

/-- ARM: a write of FLIP_ARM with ARM set. -/
def armEffect (port die : Nat) (value : BitVec 32) (_m : Mem) (d : Dev) : Dev := if bit value.toNat 0 then d.armWrite port die value else d

/-- The flip mask armed or refused. -/
def execArm (port die : Nat) (value : BitVec 32) (s : State) : Host.Outcome State Fault Refusal :=
  .next (s.put (armEffect port die value s.mem s.dev))

/-- DISARM: a write of FLIP_ARM with DISARM set. -/
def disarmEffect (port die : Nat) (value : BitVec 32) (_m : Mem) (d : Dev) : Dev := if bit value.toNat 1 then d.armWrite port die value else d

/-- The flip mask disarmed. -/
def execDisarm (port die : Nat) (value : BitVec 32) (s : State) : Host.Outcome State Fault Refusal :=
  .next (s.put (disarmEffect port die value s.mem s.dev))

/-! ### Franking units (R513, R515, R599, R614) -/

/-- Franking unit u of a die. -/
def Dev.frk (d : Dev) (die u : Nat) : Frk := (d.cluster die (u / 2)).frk.getD (u % 2) {}

/-- d with a franking unit changed. -/
def Dev.onFrk (d : Dev) (die u : Nat) (f : Frk → Frk) : Dev := d.onCluster die (u / 2) fun x => { x with frk := x.frk.modify (u % 2) f }

/-- A write of FRK_CTL: COMPARE set, then ABORT ends work in progress, or START begins the list when none is. -/
def Frk.ctl (f : Frk) (value : Nat) (undefined : BitVec 32) : Frk :=
  let f := { f with compare := bit value 1 }
  if bit value 2 then (if f.state = 1 then { f with state := 0, result := undefined, work := none } else f)
  else if bit value 0 ∧ f.state ≠ 1 then
    { f with state := 1, matched := false, saved := false, error := 0, work := some (f.list, if f.compare then some f.expect else none) }
  else f

/-- Roist's write always reaches the unit; the host's does in recovery mode and is otherwise counted (R515). -/
def Dev.frkWrite (d : Dev) (port die u : Nat) (byRoist : Bool) (f : Frk → Frk) : Dev :=
  if 18 ≤ u ∨ d.uncOpen die = false ∨ (byRoist = false ∧ d.portUp port = false) then d
  else if byRoist ∨ d.openRegs then d.onFrk die u f
  else d.onInteg die fun c => { c with frkHostIgnored := c.frkHostIgnored + 1 }

/-- FRK_CTL written; RESULT after an ABORT is undefined. -/
def Dev.frkCtl (d : Dev) (port die u : Nat) (value : BitVec 32) (byRoist : Bool) : Dev :=
  let undefined := Config.freeWord d.free
  ({ d with free := d.free + 1 } : Dev).frkWrite port die u byRoist fun f => f.ctl value.toNat undefined

/-- FRK_START: a write of FRK_CTL with START set. -/
def frkStartEffect (port die u : Nat) (value : BitVec 32) (byRoist : Bool) (_m : Mem) (d : Dev) : Dev :=
  if bit value.toNat 0 then d.frkCtl port die u value byRoist else d

/-- A franking unit's list begun. -/
def execFrkStart (port die unit : Nat) (value : BitVec 32) (byRoist : Bool) (s : State) : Host.Outcome State Fault Refusal :=
  .next (s.put (frkStartEffect port die unit value byRoist s.mem s.dev))

/-- FRK_ABORT: a write of FRK_CTL with ABORT set. -/
def frkAbortEffect (port die u : Nat) (value : BitVec 32) (byRoist : Bool) (_m : Mem) (d : Dev) : Dev :=
  if bit value.toNat 2 then d.frkCtl port die u value byRoist else d

/-- A franking unit's work ended. -/
def execFrkAbort (port die unit : Nat) (value : BitVec 32) (byRoist : Bool) (s : State) : Host.Outcome State Fault Refusal :=
  .next (s.put (frkAbortEffect port die unit value byRoist s.mem s.dev))

/-- What reading a list's bytes gives: the bytes, poison, an entry that Table 21.17 does not allow, or an address that does not exist. -/
inductive Franked where
  | bytes (b : Bytes)
  | poison
  | badEntry
  | outside (addr : Nat)
  deriving DecidableEq, Repr, Inhabited

/-- Size of the package DRAM space (R17). -/
def dramSpace : Nat := 2 ^ 39

/-- A package DRAM range read by a unit: poisoned where its stack's die is in its safe state (R505, R531). -/
def Dev.dramFranked (d : Dev) (m : Mem) (a len : Nat) : Franked :=
  if dramSpace < a + len then .outside (max a dramSpace)
  else if (List.range 8).any fun i => (d.die i).safe && decide (a < (i + 1) * 2 ^ 36 ∧ i * 2 ^ 36 < a + len) then .poison
  else .bytes (cellsRead m.dram a len)

/-- The bytes of one entry: package DRAM, or with ADDR[63] the unit's own sorting frame. -/
def Dev.entryFranked (d : Dev) (m : Mem) (die cluster : Nat) (e : Bytes) : Franked :=
  let a := fld e 0 8
  let len := fld e 8 4
  if len = 0 then .badEntry
  else if bit a 63 then
    (if 2 ^ 25 < a % 2 ^ 25 + len then .outside a else .bytes (cellsRead m.frame (frameKey die cluster 0 + a % 2 ^ 25) len))
  else d.dramFranked m a len

/-- The bytes of a list, entry by entry to the one marked LAST; n is at most the entries the space has room for. -/
def Dev.listFranked (d : Dev) (m : Mem) (die cluster : Nat) : Nat → Nat → Franked
  | 0, at_ => .outside at_
  | n + 1, at_ => match d.dramFranked m at_ 16 with
    | .bytes e => match d.entryFranked m die cluster e with
      | .bytes b =>
        if bit (fld e 12 4) 0 then .bytes b
        else match d.listFranked m die cluster n (at_ + 16) with
          | .bytes r => .bytes (b ++ r)
          | x => x
      | x => x
    | x => x

/-- The unit's registers when its list ends. -/
def Frk.done (f : Frk) (expect : Option (BitVec 32)) (crc : Nat) : Frk :=
  { f with state := 2, work := none, result := BitVec.ofNat 32 crc, matched := expect == some (BitVec.ofNat 32 crc) }

/-- The unit's registers when its list ends in error. -/
def Frk.failed (f : Frk) (st : Status) : Frk := { f with state := 3, work := none, matched := false, error := st }

/-- FRANKING_LIST_DONE: the list of a running unit ends, with its CRC-32C, or at poisoned data; an address outside the package's space
stops the model. An entry of LEN 0 ends it in error too, with a status the manual does not give. -/
def frankingListDoneEffect (die u : Nat) (poisoned : Bool) (m : Mem) (d : Dev) : Except Nat Dev :=
  match (if 18 ≤ u ∨ d.uncOpen die = false then none else (d.frk die u).work) with
  | none => .ok d
  | some (list, expect) =>
    match (if poisoned then .poison else d.listFranked m die (u / 2) (dramSpace / 16) list.toNat) with
    | .bytes b => .ok (d.onFrk die u fun f => f.done expect (crc32c b))
    | .poison => .ok (d.onFrk die u fun f => f.failed St.INT_DRAM_UNCORRECTED)
    | .badEntry =>
      let st : Status := (Config.freeWord d.free).setWidth 16
      .ok (({ d with free := d.free + 1 } : Dev).onFrk die u fun f => f.failed st)
    | .outside a => .error a

/-- A franking unit finishing its list. -/
def execFrankingListDone (die unit : Nat) (poisoned : Bool) (s : State) : Host.Outcome State Fault Refusal :=
  match frankingListDoneEffect die unit poisoned s.mem s.dev with
  | .ok d => .next (s.put d)
  | .error a => .fault (.outsideAddressSpace a)

end Sys2Proof.Machine
end

