-- ==== Sys2Proof/Machine/Registers.lean ====
section
/-! DEFINITION. Register writes that have a command of their own, management-bus clears, improper accesses, and the low-half
latch (R594 to R609, R625 to R628). -/

namespace Sys2Proof.Machine

open Sys2Proof

/-! ### RST_CTL (R601) -/

/-- RST_CTL written by the host: PKG_RESET with its key asks for a SOFT reset 10 µs later, without it is counted; both are ignored
during the power-fail sequence (R549). -/
def Dev.rstCtl (d : Dev) (port die : Nat) (value : BitVec 32) : Dev :=
  if d.portUp port = false ∨ 8 ≤ die ∨ bit value.toNat 0 = false ∨ d.seqs.powerFailAt.isSome then d
  else if bits value.toNat 15 8 ≠ 0x5A then d.badWrite die
  else if d.seqs.softDue.isSome then d
  else { d with seqs := { d.seqs with softDue := some (1, d.now + 10000) } }

/-- PKG_RESET: RST_CTL written with PKG_RESET set. -/
def pkgResetEffect (port die : Nat) (value : BitVec 32) (_m : Mem) (d : Dev) : Dev := d.rstCtl port die value

/-- A SOFT reset asked for, or a wrong key counted. -/
def execPkgReset (port die : Nat) (value : BitVec 32) (s : State) : Host.Outcome State Fault Refusal :=
  .next (s.put (pkgResetEffect port die value s.mem s.dev))

/-! ### BKP (R602) -/

/-- BKP_FAILED_STARTS written; the block is in die 0's window only (Table 21.2). -/
def Dev.bkpFailedStarts (d : Dev) (port die : Nat) (value : BitVec 32) : Dev :=
  if d.portUp port = false ∨ 8 ≤ die then d
  else if die ≠ 0 then d.badWrite die
  else if bit value.toNat 8 then { d with bkp := { d.bkp with failedStarts := 0 } }
  else d

/-- BKP_CLEAR: BKP_FAILED_STARTS CLEAR written (R556). -/
def bkpClearEffect (port die : Nat) (value : BitVec 32) (_m : Mem) (d : Dev) : Dev :=
  if bit value.toNat 8 then d.bkpFailedStarts port die value else d

/-- The failed-start count cleared. -/
def execBkpClear (port die : Nat) (value : BitVec 32) (s : State) : Host.Outcome State Fault Refusal :=
  .next (s.put (bkpClearEffect port die value s.mem s.dev))

/-- BKP_FLAGS written: RECOVERY_REQ RW1S, POWER_FAIL and BACKUP_LOST RW1C (Table 21.7). -/
def Dev.bkpFlags (d : Dev) (port die : Nat) (value : BitVec 32) : Dev :=
  let v := value.toNat
  if d.portUp port = false ∨ 8 ≤ die then d
  else if die ≠ 0 then d.badWrite die
  else { d with bkp := { d.bkp with
    recoveryReq := d.bkp.recoveryReq || bit v 0
    powerFail := d.bkp.powerFail && !bit v 1
    backupLost := d.bkp.backupLost && !bit v 3 } }

/-- RECOVERY_REQ: BKP_FLAGS written with RECOVERY_REQ set. -/
def recoveryReqEffect (port die : Nat) (value : BitVec 32) (_m : Mem) (d : Dev) : Dev :=
  if bit value.toNat 0 then d.bkpFlags port die value else d

/-- The next start asked to enter recovery mode. -/
def execRecoveryReq (port die : Nat) (value : BitVec 32) (s : State) : Host.Outcome State Fault Refusal :=
  .next (s.put (recoveryReqEffect port die value s.mem s.dev))

/-! ### FC_ALERT_ACK and FC_WATCHDOG (R530, R534, R606) -/

/-- Highest SEQ acknowledged after a write of FC_ALERT_ACK: never lower, and clamped to the last SEQ given (R606). -/
def Collector.acknowledge (c : Collector) (seq : Nat) : Collector := { c with alertAcked := max c.alertAcked (min seq (c.seqNext - 1)) }

/-- FC_ALERT_ACK: records up to a SEQ acknowledged, and ALERT_N released when no die holds an unacknowledged one. -/
def fcAlertAckEffect (port die : Nat) (value : BitVec 64) (_m : Mem) (d : Dev) : Dev :=
  if d.portUp port = false ∨ 8 ≤ die then d else (d.onFc die fun c => c.acknowledge value.toNat).drivePins

/-- Fault records acknowledged. -/
def execFcAlertAck (port die : Nat) (value : BitVec 64) (s : State) : Host.Outcome State Fault Refusal :=
  .next (s.put (fcAlertAckEffect port die value s.mem s.dev))

/-- FC_WATCHDOG written: by Roist on a die in service, or by the host in recovery mode (Table 21.2). -/
def Dev.watchdogWrite (d : Dev) (port die : Nat) (value : BitVec 32) (byRoist : Bool) : Dev :=
  let kick := fun (d : Dev) => if bit value.toNat 0 then d.onFc die fun c => { c with lastKick := d.now } else d
  if 8 ≤ die then d
  else if byRoist then (if d.dieUp die then kick d else d)
  else if d.portUp port = false then d
  else if d.openRegs then kick d
  else d.badWrite die

/-- KICK: the watchdog of a die refreshed. -/
def kickEffect (port die : Nat) (value : BitVec 32) (byRoist : Bool) (_m : Mem) (d : Dev) : Dev :=
  if bit value.toNat 0 then d.watchdogWrite port die value byRoist else d

/-- The watchdog refreshed. -/
def execKick (port die : Nat) (value : BitVec 32) (byRoist : Bool) (s : State) : Host.Outcome State Fault Refusal :=
  .next (s.put (kickEffect port die value byRoist s.mem s.dev))

/-! ### Management buses (R608, R609, R626 to R628) -/

/-- A die's management bus. -/
def Dev.bus (d : Dev) (die b : Nat) : Mbus := (d.die die).mbus.getD b {}

/-- d with a management bus changed. -/
def Dev.onBus (d : Dev) (die b : Nat) (f : Mbus → Mbus) : Dev := d.onDie die fun x => { x with mbus := x.mbus.modify b f }

/-- Attempts a clear may make: RETRIES, 0 acting as 1. -/
def Mbus.tries (x : Mbus) : Nat := max 1 x.retries.toNat

/-- A clear at whose first successful attempt, if any, SDA and SCL read high. -/
def Mbus.clears_ (x : Mbus) (good : Nat) : Bool := decide (1 ≤ good ∧ good ≤ x.tries)

/-- Registers after a clear: attempts made, and on failure STUCK, with the switch open under AUTO_ISOLATE. -/
def Mbus.cleared (x : Mbus) (good : Nat) (sda scl : Bool) (now : Nat) : Mbus :=
  if x.clears_ good then { x with attempts := BitVec.ofNat 3 good, clears := x.clears + 1, clearDue := false, sda := true, scl := true }
  else
    let opens := x.autoIsolate && !x.autoIsolated
    { x with
      attempts := BitVec.ofNat 3 x.tries
      clears := x.clears + 1
      stuck := true
      autoIsolated := x.autoIsolated || x.autoIsolate
      isolateTries := if opens then 0 else x.isolateTries
      isolatedAt := if opens then now else x.isolatedAt
      sda := sda
      scl := scl }

/-- DETAIL of FLT_MBUS_STUCK: bus number, then the live SDA and SCL levels (R627; their places are DESIGN CHOICE, log entry 112). -/
def busDetail (b : Nat) (sda scl : Bool) : BitVec 64 := BitVec.ofNat 64 (b + 256 * b2n sda + 512 * b2n scl)

/-- A bus clear runs (R609); a failed one is reported. -/
def Dev.busClear (d : Dev) (die b good : Nat) (sda scl : Bool) : Dev :=
  let ok := (d.bus die b).clears_ good
  let d := d.onBus die b fun x => x.cleared good sda scl d.now
  if ok then d else d.report St.FLT_MBUS_STUCK { kind := 0x10, die := die } (busDetail b sda scl)

/-- Fields of MBUS_CTL written: ENABLE's rise resets the controller, and ISOLATE 0 closes a switch the clear opened; both leave a clear
due before the next transfer. SPEED 3 exists on bus 3 only. -/
def Mbus.control (x : Mbus) (b value : Nat) : Mbus :=
  let speed := bits value 2 1
  let closes := bit value 3 = false ∧ (x.stuck ∨ x.autoIsolated)
  { x with
    enable := bit value 0
    speed := if speed = 3 ∧ b ≠ 3 then x.speed else BitVec.ofNat 2 speed
    isolate := bit value 3
    retries := BitVec.ofNat 3 (bits value 6 4)
    autoIsolate := bit value 7
    autoIsolated := if closes then false else x.autoIsolated
    isolateTries := if closes then 0 else x.isolateTries
    clearDue := x.clearDue || (bit value 0 && !x.enable) || decide closes }

/-- A write of a die's management-bus block acts: Roist's always, the host's in recovery mode; others are counted (Table 21.2). -/
def Dev.busWrite (d : Dev) (port die b : Nat) (byRoist : Bool) (f : Dev → Dev) : Dev :=
  if 4 ≤ b ∨ d.uncOpen die = false ∨ (byRoist = false ∧ d.portUp port = false) then d
  else if byRoist ∨ d.openRegs then f d
  else d.badWrite die

/-- MBUS_CTL written without CLEAR. -/
def Dev.busCtl (d : Dev) (port die b : Nat) (value : BitVec 32) (byRoist : Bool) : Dev :=
  d.busWrite port die b byRoist fun d => d.onBus die b fun x => x.control b value.toNat

/-- MBUS_CLEAR: MBUS_CTL written with CLEAR set; an active controller runs a clear. -/
def mbusClearEffect (port die bus : Nat) (value : BitVec 32) (byRoist : Bool) (good : Nat) (sda scl : Bool) (_m : Mem) (d : Dev) : Dev :=
  if bit value.toNat 8 = false then d
  else d.busWrite port die bus byRoist fun d =>
    let d := d.onBus die bus fun x => x.control bus value.toNat
    if (d.bus die bus).enable then d.busClear die bus good sda scl else d

/-- A bus clear started by software. -/
def execMbusClear (port die bus : Nat) (value : BitVec 32) (byRoist : Bool) (goodAttempt : Nat) (sda scl : Bool) (s : State) :
    Host.Outcome State Fault Refusal :=
  .next (s.put (mbusClearEffect port die bus value byRoist goodAttempt sda scl s.mem s.dev))

/-- ISOLATE: MBUS_CTL written without CLEAR. -/
def isolateEffect (port die bus : Nat) (value : BitVec 32) (byRoist : Bool) (_m : Mem) (d : Dev) : Dev :=
  if bit value.toNat 8 then d else d.busCtl port die bus value byRoist

/-- A segment switch opened or closed. -/
def execIsolate (port die bus : Nat) (value : BitVec 32) (byRoist : Bool) (s : State) : Host.Outcome State Fault Refusal :=
  .next (s.put (isolateEffect port die bus value byRoist s.mem s.dev))

/-- A controller can run a clear: the die runs, the bus is active, and its segment is not cut off. -/
def Dev.busRuns (d : Dev) (die b : Nat) : Bool := decide (b < 4) && d.uncOpen die && (d.bus die b).enable

/-- SCL_LOW_TIMEOUT (R609): SCL held low for 35 ms. -/
def sclLowTimeoutEffect (die bus good : Nat) (sda scl : Bool) (_m : Mem) (d : Dev) : Dev :=
  if d.busRuns die bus = false ∨ d.busIsolated die bus then d else (d.until (d.now + 35000000)).busClear die bus good sda scl

/-- A clear after SCL was held low. -/
def execSclLowTimeout (die bus goodAttempt : Nat) (sda scl : Bool) (s : State) : Host.Outcome State Fault Refusal :=
  .next (s.put (sclLowTimeoutEffect die bus goodAttempt sda scl s.mem s.dev))

/-- ISOLATE_RETRY (R628): 60 s after the last, at most ten times, the switch is closed and a clear run. -/
def isolateRetryEffect (die bus good : Nat) (sda scl : Bool) (_m : Mem) (d : Dev) : Dev :=
  let x := d.bus die bus
  if d.busRuns die bus = false ∨ x.autoIsolated = false ∨ 10 ≤ x.isolateTries then d
  else
    let d := d.until (x.isolatedAt + 60 * second)
    if x.clears_ good then
      (d.onBus die bus fun x => { x.cleared good sda scl d.now with autoIsolated := false, isolateTries := 0 }).report St.FLT_MBUS_RECOVERED
        { kind := 0x10, die := die } (busDetail bus true true)
    else (d.onBus die bus fun x => { x.cleared good sda scl d.now with
      autoIsolated := true
      isolateTries := x.isolateTries + 1
      isolatedAt := d.now }).report St.FLT_MBUS_STUCK { kind := 0x10, die := die } (busDetail bus sda scl)

/-- Roist trying an isolated segment again. -/
def execIsolateRetry (die bus goodAttempt : Nat) (sda scl : Bool) (s : State) : Host.Outcome State Fault Refusal :=
  .next (s.put (isolateRetryEffect die bus goodAttempt sda scl s.mem s.dev))

/-! ### Improper accesses (R596, Table 21.6) -/

/-- An access of improper size or alignment. -/
def improper (offset size : Nat) : Bool := !((size == 4 || size == 8) && offset % size == 0)

/-- RST_BAD_ACCESS captures the first since VALID was cleared; every one is counted. -/
def BadRegs.note (b : BadRegs) (port offset : Nat) (write : Bool) : BadRegs :=
  let b := { b with count := satSucc b.count }
  if b.valid then b
  else { b with offset := BitVec.ofNat 25 offset, write := write, port := BitVec.ofNat 2 port, valid := true }

/-- An improper access to BAR0 of a port's function. -/
def Dev.improperAccess (d : Dev) (port offset : Nat) (write : Bool) : Dev :=
  d.onDie (offset / 2 ^ 25) fun x => { x with bad := x.bad.note port (offset % 2 ^ 25) write }

/-- BAD_ACCESS: recorded, and without other effect. -/
def badAccessEffect (port offset size : Nat) (write : Bool) (_m : Mem) (d : Dev) : Dev :=
  if d.portUp port = false ∨ 2 ^ 28 ≤ offset ∨ improper offset size = false then d else d.improperAccess port offset write

/-- An improper host access. -/
def execBadAccess (port offset size : Nat) (write : Bool) (s : State) : Host.Outcome State Fault Refusal :=
  .next (s.put (badAccessEffect port offset size write s.mem s.dev))

/-! ### 64-bit registers and the latch (R597, R598) -/

/-- Registers that FC_FIRST and FLIP_DATA spread over four words. -/
def wordOf (b : Bytes) (i : Nat) : BitVec 64 := BitVec.ofNat 64 (fld b (8 * i) 8)

/-- BKP_CLOCK: backup time in units of 1/32,768 s (Table 21.7). -/
def Dev.bkpClock (d : Dev) : BitVec 64 := BitVec.ofNat 64 (d.now * 32768 / 1000000000)

/-- The domain a block lies in runs (R598, Table 21.2): AON and backup always. -/
def Dev.blockOn (d : Dev) (die block : Nat) : Bool := decide (block < 5) || (d.die die).domains.getLsbD 1

/-- Value of the 64-bit register at an offset of a block of a die's window, none where no 64-bit register stands there (Tables 21.7 to
21.17). -/
def Dev.reg64 (d : Dev) (die block off : Nat) : Option (BitVec 64) :=
  let x := d.die die
  let from_ := fun (base n : Nat) (f : Nat → BitVec 64) =>
    if base ≤ off ∧ off < base + 8 * n ∧ (off - base) % 8 = 0 then some (f ((off - base) / 8)) else none
  match block with
  | 1 => if die ≠ 0 then none else if off = 0x10 then some d.bkp.pfTime else if off = 0x18 then some d.bkpClock else none
  | 3 => if off = 0x18 then some (BitVec.ofNat 64 (if die = 0 then d.pwr.throttleSteps else 0)) else none
  | 4 =>
    if off = 0x58 then some 0
    else if off = 0x60 then some (BitVec.ofNat 64 x.fc.alertAcked)
    else if off = 0x68 then some (BitVec.ofNat 64 x.fc.seqNext)
    else if off = 0x70 then some x.fc.logBase
    else from_ 0x20 4 fun i => wordOf x.fc.firstBytes i
  | 5 =>
    if off = 0x00 then some (BitVec.ofNat 64 (d.clk.dieTick.getD die 0))
    else if off = 0x10 then some (BitVec.ofNat 64 d.clk.phase)
    else if off = 0x18 then some (BitVec.ofNat 64 d.now)
    else if off = 0x38 then some (BitVec.ofNat 64 ((d.clk.pending.map (·.1)).getD 0))
    else none
  | 8 =>
    if off = 0x18 then some (BitVec.ofNat 64 (x.scb.lastSramUs.toNat + 2 ^ 32 * x.scb.lastDramMs.toNat))
    else if off = 0x20 then some (BitVec.ofNat 64 (x.scb.warnSramUs.toNat + 2 ^ 32 * x.scb.warnDramMs.toNat))
    else none
  | 9 =>
    if off = 0x08 then some x.flip.addr
    else if off = 0x40 then some (x.flip.check.setWidth 64)
    else from_ 0x20 4 fun i => x.flip.data.getD i 0
  | 10 =>
    let u := off / 0x80
    if 18 ≤ u then none
    else
      let f := d.frk die u
      if off % 0x80 = 0 then some f.list
      else from_ (0x80 * u + 0x28) 4 fun i => f.context.getD i 0
  | _ => none

/-- LOW_HALF_READ: a 4 B read of a 64-bit register's low half loads the port's latch with the high half of that instant; registers of a
domain that is off read all ones. -/
def lowHalfReadEffect (port offset : Nat) (_m : Mem) (d : Dev) : Dev :=
  let die := offset / 2 ^ 25
  let block := offset % 2 ^ 25 / 2 ^ 16
  if d.portUp port = false ∨ 2 ^ 28 ≤ offset then d
  else match d.reg64 die block (offset % 2 ^ 16) with
    | none => d
    | some v =>
      let high : BitVec 32 := if d.blockOn die block then (v >>> 32).setWidth 32 else 0xFFFFFFFF
      { d with pghPorts := d.pghPorts.modify port fun x => { x with latch := some (offset, high) } }

/-- The low half of a 64-bit register read. -/
def execLowHalfRead (port offset : Nat) (s : State) : Host.Outcome State Fault Refusal :=
  .next (s.put (lowHalfReadEffect port offset s.mem s.dev))

end Sys2Proof.Machine
end

