-- ==== Sys2Proof/Machine/Start.lean ====
section
/-! DEFINITION. The end of a run and the start after it: the store flush, what each reset keeps, and the start sequence (R407,
R427 to R435, R545 to R573, R600, R635, R637, Table 19.2). -/

namespace Sys2Proof.Machine

open Sys2Proof

/-! ### The store flush (R635, Table 14.7) -/

/-- The effect of a record that a flush makes durable, without what only a running store does next. -/
def Dev.flushRec (d : Dev) (e : JEntry) : Dev :=
  match e.what with
  | .commit o => d.commitObj o
  | .discard id _ => d.dropVersion id
  | .preDiscard id _ => d.dropVersion id
  | .secureBegin id =>
    if d.store.securing id then d
    else (d.dropVersion id).onStore fun s => { s with secures := s.secures ++ [{ id := id, cells := [], blocks := [], queue := none }] }
  | .secureEnd id => d.onStore fun s => { s with secures := s.secures.filter fun x => x.id != id }
  | .pin .. | .dset .. | .streamCells .. | .foldRec .. | .cellMove .. | .cellFree .. | .ledger .. | .dirUpdate ..
  | .mediaState .. | .checkpoint _ | .cleanLoss => d

/-- Records of a partition that are not on media: programs under way, then its buffers. -/
def Store.owedRecs (s : Store) (p : Nat) : List JEntry :=
  let x := s.parts.getD p { die := p }
  (s.programs.flatMap fun y => match y.work with
    | .journal q recs => if q = p then recs else []
    | .page .. => []) ++ x.sync ++ x.lazy_

/-- A partition that is served writes its buffers to its journal, CLEAN_LOSS last. -/
def Dev.flushPartition (d : Dev) (p : Nat) : Dev :=
  let x := d.part p
  if x.ready = false ∨ x.unserved ∨ d.dieUp x.die = false then d
  else
    let recs := d.store.owedRecs p
    let d := recs.foldl Dev.flushRec d
    d.onPart p fun y => { y with
      sync := []
      syncSince := none
      lazy_ := []
      journal := y.journal ++ recs ++ [{ seq := y.seq, what := .cleanLoss }]
      seq := y.seq + 1
      clean := true }

/-- PUTs without a durable COMMIT are abandoned, letterbox commands end with their queues, and every partition is flushed. -/
def Dev.flushStore (d : Dev) : Dev :=
  if d.store.started = false then d
  else (List.range 8).foldl Dev.flushPartition (({ d with lbx := {} } : Dev).onStore fun s => s.dropPuts fun _ => true)

/-! ### What a package-wide reset keeps (R36, R55, R521 to R526, R545, R560, Table 19.1) -/

/-- Fault collector after a reset: the always-on records and ROS bits go with a COLD one only. -/
def Collector.afterReset (c : Collector) (cold : Bool) : Collector :=
  if cold then {}
  else { seqNext := c.seqNext, alertAcked := c.alertAcked, first := c.first, next := c.next, seen := c.seen, logOverwrite := c.logOverwrite,
         selfFault := c.selfFault, aon := c.aon, severities := c.severities, ctrs := c.ctrs }

/-- A management bus after a reset. -/
def Mbus.afterReset (x : Mbus) (cold : Bool) : Mbus := if cold then {} else { clears := x.clears, naks := x.naks }

/-- RST_BAD_ACCESS and RST_BAD_COUNT after a reset. -/
def BadRegs.afterReset (b : BadRegs) (cold : Bool) : BadRegs := if cold then {} else { b with valid := false, count := 0 }

/-- A die after a package-wide reset: its switched domains are off. -/
def Die.afterReset (x : Die) (cold : Bool) : Die :=
  { retired := x.retired
    fuse := x.fuse
    bad := x.bad.afterReset cold
    fc := x.fc.afterReset cold
    mbus := x.mbus.map fun b => b.afterReset cold
    scb := { repaired := x.scb.repaired }
    cur := if cold then {} else x.cur
    ctrs := if cold then {} else x.ctrs
    integ := if cold then {} else x.integ
    dqSpares := x.dqSpares }

/-- An Ethernet port after a package-wide reset. -/
def EthPort.afterReset (x : EthPort) (cold : Bool) : EthPort :=
  if cold then { sliceUsed := x.sliceUsed }
  else { sliceUsed := x.sliceUsed, txByClass := x.txByClass, gateWaits := x.gateWaits, pauseRx := x.pauseRx, xoffTx := x.xoffTx }

/-- A job after a start (R55): SEALED with its record, otherwise LOST; what it had bound is released. -/
def Job.afterReset (j : Job) : Job :=
  let bare := { j with ranks := [], staged := none, old := [], barrier := {}, deadLetters := [], deadSeq := 0, dlReported := none, ctrs := {} }
  if j.state = .sealed_ then { bare with sealRec := j.sealRec.map fun x => { x with waiters := [] } }
  else { bare with state := .lost, sealRec := none }

/-- A sled slot with its NP domain off. -/
def Sled.afterReset (x : Sled) : Sled :=
  { x with
    state := if x.present then .unpowered else .empty
    ledPower := 0
    ledFault := false
    ledLocate := false
    prepare := none
    admission := none
    absentSince := if x.present then none else x.absentSince }

/-- A partition on media, served by no die yet. -/
def Partition.afterReset (x : Partition) (p : Nat) : Partition :=
  { x with die := p, ready := false, unserved := false, sync := [], syncSince := none, lazy_ := [], bytesSince := 0 }

/-- What the media hold of the store; everything else is built again. -/
def Store.afterReset (s : Store) : Store :=
  { s with
    started := false
    direct := true
    parts := s.parts.zipIdx.map fun x => x.1.afterReset x.2
    cells := s.cells.map fun c => if c.state = .open_ then { c with state := .full } else c
    sleds := s.sleds.map Sled.afterReset
    streams := []
    turns := List.replicate 8 0
    puts := []
    waits := []
    settles := []
    programs := []
    reads := []
    secures := s.secures.map fun x => { x with queue := none }
    dirPages := [] }

/-- Pins that an object has: entries of datasets that name it, and configurations whose card it is (R405). -/
def Dev.pinsOf (d : Dev) (id : Nat) : Nat :=
  ((d.datasets.map fun x => x.entries.countP fun e => e.id == id).sum) +
    d.jobs.countP fun j => (routeOf j.conf.route).cardLen != 0 && j.conf.cardObject == id

/-- Pin counts follow what still names each object. -/
def Dev.repin (d : Dev) : Dev :=
  d.onStore fun s => ({ s with objs := s.objs.map fun o => { o with pins := d.pinsOf o.id } } : Store).recount

/-- Pins during reset (Table 19.4): inputs keep their level, and THERMTRIP_N what it last showed but after a COLD reset. -/
def Pins.afterReset (x : Pins) (cold : Bool) : Pins := { perst := x.perst, thermtripN := x.thermtripN && !cold }

/-- Everything in the switched domains is gone, DRAM is cleared and jobs are SEALED or LOST. -/
def Dev.lostVolatile (d : Dev) (cold : Bool) : Dev :=
  let all : MemWrite := { space := .dram, addr := 0, bytes := [], clear := 2 ^ 39 }
  let frames : MemWrite := { space := .frame, addr := 0, bytes := [], clear := 72 * 2 ^ 25 }
  let d := { d with
    start := .starting
    seqs := {}
    pwr := { throttleSteps := if cold then 0 else d.pwr.throttleSteps }
    pins := d.pins.afterReset cold
    clk := { now := d.clk.now, tickStart := d.clk.now }
    dies := d.dies.map fun (x : Die) => x.afterReset cold
    ports := d.ports.map fun (x : EthPort) => x.afterReset cold
    pgh := List.replicate 128 {}
    pghPorts := List.replicate 4 {}
    jobs := d.jobs.map Job.afterReset
    routes := []
    vocabs := []
    grammars := []
    streams := []
    stagings := []
    leases := []
    store := d.store.afterReset
    lbx := {}
    dma := d.dma ++ [all, frames] }
  d.repin

/-- A package-wide reset with its cause: SOURCE, SOFT_KIND and STATUS of RST_CAUSE (R545, R600, R637). -/
def Dev.packageReset (d : Dev) (source kind status : Nat) : Dev :=
  let d := d.lostVolatile (source == 1)
  let late := if status = 0x08 then [St.RSTP_START_TIMEOUT] else if status = 0x0A then [St.RSTP_POWER_GLITCH] else []
  { d with
    rst := if source = 1 then {} else { d.rst with dieRestart := true, autoRestart := true }
    seqs := { d.seqs with cause := (source, kind, status), deferredFaults := late } }

/-! ### Reset sources (Table 19.1) -/

/-- COLD_RESET: the main supply rises. -/
def coldResetEffect (_m : Mem) (d : Dev) : Dev := d.packageReset 1 0 0

/-- Main supply rising. -/
def execColdReset (s : State) : Host.Outcome State Fault Refusal := .next (s.put (coldResetEffect s.mem s.dev))

/-- BROWNOUT (R618): VDD_CORE, rail 0, at any time; another rail of Table 22.2 while PWR_FAIL_N is high. VBAT, rail 8, is no main
supply rail. -/
def brownoutEffect (rail : Nat) (_m : Mem) (d : Dev) : Dev :=
  if 8 ≤ rail ∨ (rail ≠ 0 ∧ d.seqs.powerFailAt.isSome) then d else d.packageReset 1 0 0

/-- A supply rail out of its range. -/
def execBrownout (rail : Nat) (s : State) : Host.Outcome State Fault Refusal := .next (s.put (brownoutEffect rail s.mem s.dev))

/-- The power-fail sequence runs: 10 ms from the fall of PWR_FAIL_N (R549, R570). -/
def Dev.powerFailing (d : Dev) : Bool := match d.seqs.powerFailAt with
  | some t => decide (d.now < t + 10000000)
  | none => false

/-- PIN_RESET: RESET_N low, ignored while the power-fail sequence runs (R549). -/
def pinResetEffect (_m : Mem) (d : Dev) : Dev := if d.powerFailing then d else d.packageReset 2 0 0

/-- RESET_N low for 1 µs. -/
def execPinReset (s : State) : Host.Outcome State Fault Refusal := .next (s.put (pinResetEffect s.mem s.dev))

/-- SOFT_RESET (R635): the request that is due; a store that has started is flushed first. -/
def softResetEffect (_m : Mem) (d : Dev) : Dev :=
  match d.seqs.softDue with
  | some (kind, t) => if d.seqs.powerFailAt.isSome then d else ((d.until t).flushStore).packageReset 3 kind 0
  | none => d

/-- A SOFT reset made. -/
def execSoftReset (s : State) : Host.Outcome State Fault Refusal := .next (s.put (softResetEffect s.mem s.dev))

/-- START_TIMEOUT (R553): START_LIMIT runs out before normal service. -/
def startTimeoutEffect (_m : Mem) (d : Dev) : Dev :=
  match d.seqs.startEnds with
  | some t => (d.until t).packageReset 4 0 0x08
  | none => d

/-- START_LIMIT running out. -/
def execStartTimeout (s : State) : Host.Outcome State Fault Refusal := .next (s.put (startTimeoutEffect s.mem s.dev))

/-- FATAL_RESTART (R554): 1 s after the dump header, or 5 s after the FATAL report, whichever comes first. -/
def fatalRestartEffect (_m : Mem) (d : Dev) : Dev :=
  match d.seqs.fatalAt with
  | some t =>
    if d.rst.autoRestart = false ∨ d.seqs.pkgSafe = false then d
    else
      let due := match d.seqs.dumpAt with
        | some x => min (x + second) (t + 5 * second)
        | none => t + 5 * second
      (d.until due).packageReset 4 0 0
  | none => d

/-- The AUTO reset after a FATAL report. -/
def execFatalRestart (s : State) : Host.Outcome State Fault Refusal := .next (s.put (fatalRestartEffect s.mem s.dev))

/-- GLITCH_RESTART (R571): PWR_FAIL_N rose again, and the sequence has ended. -/
def glitchRestartEffect (_m : Mem) (d : Dev) : Dev :=
  match d.seqs.powerFailAt with
  | some t => (d.until (t + 10000000)).packageReset 4 0 0x0A
  | none => d

/-- The AUTO reset after a power glitch. -/
def execGlitchRestart (s : State) : Host.Outcome State Fault Refusal := .next (s.put (glitchRestartEffect s.mem s.dev))

/-- POWER_FAIL (R428, R570): BKP_FLAGS records it, the store is flushed, and every domain but AON goes off. -/
def powerFailEffect (_m : Mem) (d : Dev) : Dev :=
  if d.seqs.powerFailAt.isSome then d
  else
    let after := d.flushStore.lostVolatile false
    { after with
      bkp := { d.bkp with powerFail := true, pfTime := d.bkpClock }
      seqs := { after.seqs with powerFailAt := some d.now } }

/-- PWR_FAIL_N low for 1 µs. -/
def execPowerFail (s : State) : Host.Outcome State Fault Refusal := .next (s.put (powerFailEffect s.mem s.dev))

/-! ### START_UP (R32, R430, R546, R550 to R558, R600, R618, R636, R637, Tables 19.2 and 19.5) -/

/-- Step 1: the backup domain, cleared when both supplies were lost. -/
def Dev.startBackup (d : Dev) : Dev :=
  let d := if d.env.backupLost then
      ({ d with bkp := {}, env := { d.env with backupLost := false }, nor := { d.nor with dumpSeq := 1 } } : Dev).reportReset St.RSTP_BACKUP_LOST
    else d
  { d with seqs := { d.seqs with startEnds := some (d.now + d.bkp.startLimit.toNat * second) } }

/-- Step 2 sends the start into recovery mode (R552). -/
def Dev.toRecovery (d : Dev) : Bool :=
  decide (d.bkp.recoveryAt ≤ d.bkp.failedStarts) || d.bkp.recoveryReq || d.nor.selected.isNone

/-- Step 2: the failed-start count, or recovery mode, and RST_CAUSE latched (R552, R600). -/
def Dev.startCount (d : Dev) (recovery : Bool) : Dev :=
  let d := if d.nor.selected.isNone then d.reportReset St.RSTP_CFG_NONE else d
  let n := d.bkp.failedStarts
  let c := d.seqs.cause
  { d with
    bkp := { d.bkp with recoveryReq := false, failedStarts := if recovery then n else if n = 15 then 15 else n + 1 }
    rst := { d.rst with source := BitVec.ofNat 4 c.1, softKind := BitVec.ofNat 4 c.2.1, status := BitVec.ofNat 8 c.2.2, recovery := recovery,
                        valid := true } }

/-- Step 3: UNC and PCI domains on, and ports train (R18, R549, R555). -/
def Dev.startLinks (d : Dev) (recovery : Bool) : Dev :=
  let d := (List.range 8).foldl (fun (d : Dev) i =>
    if (d.die i).retired then d
    else (d.setDomain i 1 true).setDomain i 14 (!recovery || decide (i < 2))) d
  { d with
    pins := { d.pins with trained := (List.range 4).map fun k => !d.pins.perst.getD k false && d.dieUp (2 * k) && (!recovery || k == 0) }
    seqs := { d.seqs with step := 3 } }

/-- Image loaded at step 4 (R558), if either passes its check. -/
def Nor.imageFor (n : Nor) (active : Nat) : Option Nat :=
  let ok := fun (i : Nat) => if i = 1 then n.imageB.valid else n.imageA.valid
  if ok active then some active else if ok (1 - active) then some (1 - active) else none

/-- Step 4: bank, image, and the settings copied from the store (R552 to R554, R558, R563, R569). -/
def Dev.startImage (d : Dev) : Dev :=
  let d := { d with nor := { d.nor with inUse := d.nor.selected.getD 0 } }
  let c := d.cfg
  let d := { d with
    rst := { d.rst with dieRestart := c.dieRestart, autoRestart := c.autoRestart }
    pwr := { d.pwr with setCap := c.capW } }
  match d.nor.imageFor c.activeImage with
  | none => d
  | some i =>
    let d := { d with seqs := { d.seqs with image := i } }
    let d := if i = c.activeImage then d else d.reportReset St.RSTP_IMAGE_FALLBACK
    (d.copyBackup c).cfgMirror

/-- A core with its fuse repairs applied (Table 21.8). -/
def Core.fused (c : Core) (e : BitVec 2 × BitVec 2) : Core :=
  let cde := if e.1 = 1 then [(7, 0)] else if e.1 = 2 then [(7, 1)] else []
  let vte := if e.2 = 1 then [(8, 2)] else if e.2 = 2 then [(8, 3)] else []
  { c with spareEngines := cde ++ vte }

/-- A logical map in which a physical unit's place is taken by the spare, or by none. -/
def spared (l : List Nat) (who spare : Nat) : List Nat := l.map fun n => if n = who then spare else n

/-- A die with its test repairs applied (R32, Table 21.8). -/
def Die.fused (x : Die) : Die :=
  let f := x.fuse
  let out := (List.range 8).find? fun c => (f.clusters.getD c (0xF, false)).2
  { x with
    map := match out with
      | some c => spared x.map c 8
      | none => x.map
    spareCluster := out.isSome
    seqSpares := b2n (f.seqA ≠ 0x1F) + b2n (f.seqB ≠ 0x1F)
    clusters := x.clusters.zipIdx.map fun p =>
      let core := (f.clusters.getD p.2 (0xF, false)).1.toNat
      { p.1 with
        map := spared p.1.map core 8
        spareUsed := decide (core < 8)
        cores := p.1.cores.zipIdx.map fun q => q.1.fused (f.engines.getD (9 * p.2 + q.2) (0, 0)) } }

/-- A core with an engine slot out of service, the spare of its kind standing in where it can. -/
def Core.without (c : Core) (slot : Nat) : Core :=
  let spare := if slot ≤ 1 then 7 else 8
  if slot ≤ 3 ∧ c.spareFree spare then { c with spareEngines := c.spareEngines ++ [(spare, slot)] }
  else { c with deadEngines := c.deadEngines ++ [slot] }

/-- d with a recorded repair or retirement applied (R32, R36). -/
def Dev.withoutUnit (d : Dev) (u : UnitRef) : Dev :=
  if u.kind = 1 then d.onCluster u.die u.cluster fun x => { x with cores := x.cores.modify u.core fun c => c.without u.slot }
  else if u.kind = 2 ∨ u.kind = 3 then d.onCluster u.die u.cluster fun x =>
    if x.map.contains u.core then { x with map := spared x.map u.core (if x.spareUsed then 0xF else 8), spareUsed := true }
    else { x with spareUsed := x.spareUsed || u.core == 8 }
  else if u.kind = 4 then d.onDie u.die fun x =>
    if x.map.contains u.cluster then { x with map := spared x.map u.cluster (if x.spareCluster then 0xF else 8), spareCluster := true }
    else { x with spareCluster := x.spareCluster || u.cluster == 8 }
  else if u.kind = 7 then d.onDie u.die fun x => { x with seqSpares := min 2 (x.seqSpares + 1) }
  else if u.kind = 0x0D then d.onDie u.die fun x => { x with postmaster := 1 }
  else d

/-- Retirements that host software cleared are over (R36, R527). -/
def Cfg.purged (c : Cfg) : Cfg :=
  let cleared := (c.retired.filter (·.cleared)).map (·.who)
  { c with retired := c.retired.filter fun r => !r.cleared, repairs := c.repairs.filter fun u => !cleared.contains u }

/-- Step 5: test repairs, then recorded ones (R32). -/
def Dev.startRepairs (d : Dev) : Dev :=
  let nor := d.nor
  let d := { d with nor := { nor with bank0 := { nor.bank0 with cfg := nor.bank0.cfg.purged }, bank1 := { nor.bank1 with cfg := nor.bank1.cfg.purged } } }
  let d := { d with dies := d.dies.map Die.fused }
  (d.cfg.retired.map (·.who)).foldl Dev.withoutUnit d

/-- Conditions found before the collectors record are reported (R637). -/
def Dev.reportDeferred (d : Dev) : Dev :=
  let l := d.seqs.deferredFaults
  l.foldl (fun (d : Dev) st => d.report st { kind := 0x12, die := 0 }) { d with seqs := { d.seqs with deferredFaults := [] } }

/-- Step 6: stacks cleared, reserved structures built, watchdogs running, pins driven, pigeonholes open (R530, R549, R636, R637). -/
def Dev.startOpen (d : Dev) : Dev :=
  let d := { d with dies := d.dies.zipIdx.map fun (p : Die × Nat) => { p.1 with
    pool := { p.1.pool with bytes := Config.poolBytes p.2 }
    fc := { p.1.fc with logBase := Config.logBase p.2, lastKick := d.now } } }
  let d := { d with seqs := { d.seqs with step := 6 } }
  (if d.noImage then d else d.reportDeferred).drivePins

/-- Ticks run from phase 0 at the period in force (R27). -/
def Dev.startTicks (d : Dev) : Dev :=
  let n := d.now / d.tickNs
  { d with clk := { d.clk with tick := n, tickStart := n * d.tickNs, dieTick := List.replicate 8 n } }

/-- Step 7: CL domains of the clusters mapped, and ETH. -/
def Dev.startClusters (d : Dev) : Dev :=
  (List.range 8).foldl (fun (d : Dev) i =>
    if (d.die i).retired then d
    else (((d.die i).map.filter fun c => decide (c < 9)).foldl (fun (d : Dev) c => d.setDomain i (2 + c) true) d).setDomain i 13 true) d

/-- Step 8: NP domains of occupied slots, and admission in rejoin mode of sleds labelled for this store and slot. -/
def Dev.startSleds (d : Dev) : Dev :=
  (List.range 16).foldl (fun (d : Dev) k =>
    let x := d.store.sled k
    if x.present = false ∨ (d.die (k / 2)).retired then d
    else if x.label = some (d.store.identity, k) then d.admitBegin k 0 false none
    else d.sledPower k true) d

/-- Step 9: the store starts; each partition on its die, its chord die, or none (R407, R408, R430). An unclean loss is reported once. -/
def Dev.startStore (d : Dev) : Dev :=
  let host := fun (p : Nat) => if d.dieUp p then some p else if d.dieUp ((p + 4) % 8) then some ((p + 4) % 8) else none
  let d := d.onStore fun s => { s with
    started := true
    parts := s.parts.zipIdx.map fun x => { x.1 with die := (host x.2).getD x.2, unserved := (host x.2).isNone } }
  let d := ((List.range 8).filter fun p => (host p).isNone).foldl
    (fun (d : Dev) p => d.report St.STO_PARTITION_UNSERVED (storeUnit 0) (BitVec.ofNat 64 p)) d
  match (List.range 8).find? fun p => !(d.part p).clean && !(d.part p).unserved with
  | some p => d.report St.STO_UNCLEAN_LOSS (storeUnit (d.servingDie p))
  | none => d

/-- Steps 1 to 6: to where pigeonholes open, and whether in recovery mode. -/
def Dev.startSix (d : Dev) : Dev :=
  let t0 := d.now
  let d := d.startBackup
  let asked := d.toRecovery
  let d := ((d.startCount asked).startLinks asked).startImage
  let recovery := asked || d.noImage
  let d := ((d.until (t0 + 1000000000)).startRepairs).startOpen
  if recovery then
    { d with
      start := .recovery
      rst := { d.rst with recovery := true }
      seqs := { d.seqs with startEnds := none }
      pins := { d.pins with trained := [d.pins.trained.getD 0 false, false, false, false] } }
  else d

/-- START_UP: Table 19.2 from step 1 as far as it runs by itself: to step 6 in recovery mode, otherwise to store start. -/
def startUpEffect (_m : Mem) (d : Dev) : Dev :=
  if d.start ≠ .starting ∨ d.seqs.step ≠ 0 ∨ d.seqs.powerFailAt.isSome then d
  else
    let t0 := d.now
    let d := d.startSix
    if d.start = .recovery then d
    else
      let d := ((d.startTicks.startClusters.until (t0 + 2 * second)).startSleds).startStore
      { d with seqs := { d.seqs with step := 9 } }

/-- A start after a package-wide reset. -/
def execStartUp (s : State) : Host.Outcome State Fault Refusal := .next (s.put (startUpEffect s.mem s.dev))

/-! ### PARTITION_READY and START_READY (R431, R434, R435, R550, R551) -/

/-- Blocks of a secure discard on sleds that cannot be erased wait for their rejoin (R462). -/
def Dev.secureAway (d : Dev) (x : Secure) : Dev :=
  let gone := fun (b : Nat) => !(d.store.sled (slotSled b)).reads
  if (x.blocks.any gone) = false then d
  else
    let away := x.cells.filter fun c => gone (blockKey c)
    d.onStore fun s => { s with
      secures := updWhere s.secures (fun y => y.id == x.id) fun y => { y with blocks := y.blocks.filter fun b => !gone b, absent := true }
      sleds := s.sleds.zipIdx.map fun p => { p.1 with eraseOnRejoin := p.1.eraseOnRejoin ++ away.filter fun c => slotSled c == p.2 } }

/-- SECURE_END of an identifier is on its way to the journal. -/
def Store.endingSecure (s : Store) (id : Nat) : Bool := (s.owedRecs (partitionOf id)).any fun e => e.what == .secureEnd id

/-- A secure discard that a start finds goes on (R435): its cells are found, where that had not been done, and SECURE_END follows
the last erase. -/
def Dev.secureResume (d : Dev) (id : Nat) : Dev :=
  match d.store.secures.find? fun x => x.id == id with
  | none => d
  | some x =>
    let d := d.secureAway x
    if d.store.endingSecure id then d
    else if x.cells = [] ∧ x.absent = false then
      (d.onStore fun s => { s with secures := s.secures.filter fun y => y.id != id }).secureStart id none
    else if (d.store.secures.any fun y => y.id == id && y.blocks.isEmpty) then (d.pushSync (partitionOf id) (.secureEnd id)).2
    else d

/-- PARTITION_READY: after its checkpoint, journal and any tag scan; secure discards come first. -/
def partitionReadyEffect (partition : Nat) (_m : Mem) (d : Dev) : Dev :=
  let x := d.part partition
  if 8 ≤ partition ∨ d.store.started = false ∨ x.ready ∨ x.unserved ∨ d.dieUp x.die = false then d
  else
    let ids := (d.store.secures.filter fun y => partitionOf y.id == partition).map (·.id)
    if ids ≠ [] then ids.foldl Dev.secureResume d
    else
      let d := d.onPart partition fun y => { y with ready := true, broken := false, checkpointAt := d.now }
      if x.broken then d.report St.STO_REBUILD (storeUnit x.die) (BitVec.ofNat 64 partition) else d

/-- A partition becoming ready. -/
def execPartitionReady (partition : Nat) (s : State) : Host.Outcome State Fault Refusal :=
  .next (s.put (partitionReadyEffect partition s.mem s.dev))

/-- Normal service begins (R427, R551). -/
def Dev.beginService (d : Dev) : Dev :=
  let d := { d with
    start := .normal
    bkp := { d.bkp with failedStarts := 0 }
    seqs := { d.seqs with startEnds := none, step := 10 } }
  d.onStore fun s => { s with direct := false }

/-- START_READY: every partition is ready or served by no die; a waiting DEV_START_COMPLETE completes. -/
def startReadyEffect (_m : Mem) (d : Dev) : Dev :=
  if d.start ≠ .starting ∨ d.store.started = false ∨ (d.store.parts.any fun x => !x.ready && !x.unserved) then d
  else
    let d := ({ d with start := .ready, seqs := { d.seqs with step := 10 } } : Dev).journalCopies
    let w := d.seqs.startWaiters
    if w = [] then d
    else w.foldl (fun (d : Dev) p => d.answer p {}) (({ d with seqs := { d.seqs with startWaiters := [] } } : Dev).beginService)

/-- The start reaching ready. -/
def execStartReady (s : State) : Host.Outcome State Fault Refusal := .next (s.put (startReadyEffect s.mem s.dev))

/-! ### DIE_RESET (R545, R547) -/

/-- A cluster whose domain was switched off and on: only its mapping stands. -/
def Cluster.restarted (x : Cluster) : Cluster :=
  { map := x.map, spareUsed := x.spareUsed, cores := x.cores.map fun k => { spareEngines := k.spareEngines, deadEngines := k.deadEngines } }

/-- A die brought back by Roist, with everything of its switched domains at reset; it serves nothing yet. -/
def Die.restarted (x : Die) (die now : Nat) : Die :=
  { (x.afterReset false) with
    domains := x.domains
    idle := true
    map := x.map
    spareCluster := x.spareCluster
    seqSpares := x.seqSpares
    postmaster := x.postmaster
    links := x.links
    clusters := x.clusters.map Cluster.restarted
    bad := x.bad
    boxesUsed := 0
    pool := { bytes := x.pool.bytes }
    fc := { x.fc with ring := [], todo := [], fenced := [], repairs := [], lastKick := now, logBase := Config.logBase die }
    margins := x.margins }

/-- A pigeonhole after a DIE reset of its SRAM's die; a command under way completes and its response is lost. -/
def Pgh.dieReset (h : Pgh) : Pgh := if h.busy then { request := h.request, busy := true, lost := true } else {}

/-- DIE_RESET. -/
def dieResetEffect (die : Nat) (_m : Mem) (d : Dev) : Dev :=
  let x := d.die die
  if 8 ≤ die ∨ x.safe = false ∨ x.noRestart ∨ x.retired ∨ d.rst.dieRestart = false ∨ d.seqs.pkgSafe ∨ d.seqs.step < 6 then d
  else
    let stack : MemWrite := { space := .dram, addr := die * 2 ^ 36, bytes := [], clear := 2 ^ 36 }
    let frames : MemWrite := { space := .frame, addr := frameKey die 0 0, bytes := [], clear := 9 * 2 ^ 25 }
    let d := { d with dma := d.dma ++ [stack, frames] }
    let d := d.onDie die fun x => x.restarted die d.now
    let d := { d with clk := { d.clk with dieTick := d.clk.dieTick.set die d.clk.tick } }
    let d := [2 * die, 2 * die + 1].foldl (fun (d : Dev) p => d.onPort p fun x => x.afterReset false) d
    let k := die / 2
    let trains := !d.pins.perst.getD k false && (d.start != .recovery || k == 0)
    let d : Dev := if die % 2 = 1 then d
      else { d with
        pgh := d.pgh.zipIdx.map fun (p : Pgh × Nat) => if p.2 / 32 = k then p.1.dieReset else p.1
        pghPorts := d.pghPorts.modify k fun _ => ({} : PghPort)
        pins := { d.pins with trained := d.pins.trained.set k trains } }
    d.drivePins

/-- A die coming back from its safe state. -/
def execDieReset (die : Nat) (s : State) : Host.Outcome State Fault Refusal := .next (s.put (dieResetEffect die s.mem s.dev))

/-! ### PORT_RESET and PERST_N_HIGH (R545, R548, R549, R582) -/

/-- Pigeonhole registers of a port after PERST_N: PGH_DONE and PGH_IRQ_EN cleared, a command under way loses its response. -/
def Pgh.portReset (h : Pgh) : Pgh := { h with done := false, irqEn := false, lost := h.lost || h.busy }

/-- PORT_RESET: PERST_N of a port asserted. -/
def portResetEffect (port : Nat) (m : Mem) (d : Dev) : Dev :=
  if 4 ≤ port then d
  else
    let d := { d with
      pins := { d.pins with perst := d.pins.perst.set port true, trained := d.pins.trained.set port false }
      pgh := d.pgh.zipIdx.map fun (p : Pgh × Nat) => if p.2 / 32 = port then p.1.portReset else p.1 }
    let d := (d.setDomain (2 * port) 14 false).setDomain (2 * port + 1) 14 false
    let qs := (d.lbx.queues.filter fun (q : Queue) => q.port == port).map fun (q : Queue) => q.number
    Dev.lbxSettle m (qs.foldl (fun (d : Dev) q => d.lbxResetBegin q 1 none) d)

/-- PERST_N of a PCIe port asserted. -/
def execPortReset (port : Nat) (s : State) : Host.Outcome State Fault Refusal := .next (s.put (portResetEffect port s.mem s.dev))

/-- PERST_N_HIGH: the port trains, once step 3 of start-up has come (R549). -/
def perstNHighEffect (port : Nat) (_m : Mem) (d : Dev) : Dev :=
  if 4 ≤ port then d
  else
    let d := { d with pins := { d.pins with perst := d.pins.perst.set port false } }
    if d.seqs.step < 3 ∨ (d.start = .recovery ∧ port ≠ 0) then d
    else
      let d := ([2 * port, 2 * port + 1].filter fun i => !(d.die i).retired).foldl (fun (d : Dev) i => d.setDomain i 14 true) d
      { d with pins := { d.pins with trained := d.pins.trained.set port (d.dieUp (2 * port)) } }

/-- PERST_N of a PCIe port released. -/
def execPerstNHigh (port : Nat) (s : State) : Host.Outcome State Fault Refusal := .next (s.put (perstNHighEffect port s.mem s.dev))

/-! ### The service button (R62, R551, R557, R573) -/

/-- SERVICE_BUTTON_PRESS: the hold is timed. -/
def serviceButtonPressEffect (_m : Mem) (d : Dev) : Dev :=
  if d.seqs.powerFailAt.isSome ∨ d.seqs.svcPressedAt.isSome then d
  else { d with seqs := { d.seqs with svcPressedAt := some d.now } }

/-- A debounced press. -/
def execServiceButtonPress (s : State) : Host.Outcome State Fault Refusal := .next (s.put (serviceButtonPressEffect s.mem s.dev))

/-- JOB_SEAL with STOP_CURSOR zero on a job, with a nonce Roist draws (R62). -/
def Dev.sealByButton (d : Dev) (j : Job) : Dev :=
  let nonce := (Config.freeNonce d.free).toNat
  (({ d with free := d.free + 1 } : Dev)).beginSeal j 0 nonce none

/-- SERVICE_BUTTON_RELEASE: within 5 s of the press, in normal service, every RUNNING job is sealed. -/
def serviceButtonReleaseEffect (_m : Mem) (d : Dev) : Dev :=
  match d.seqs.svcPressedAt with
  | none => d
  | some t =>
    let d := { d with seqs := { d.seqs with svcPressedAt := none } }
    if d.start ≠ .normal ∨ t + 5 * second ≤ d.now then d
    else (d.jobs.filter fun j => j.state == .running).foldl Dev.sealByButton d

/-- The button released. -/
def execServiceButtonRelease (s : State) : Host.Outcome State Fault Refusal := .next (s.put (serviceButtonReleaseEffect s.mem s.dev))

/-- SERVICE_BUTTON_HOLD: 5 s after the press, RECOVERY_REQ is set and a SOFT reset is due. -/
def serviceButtonHoldEffect (_m : Mem) (d : Dev) : Dev :=
  match d.seqs.svcPressedAt with
  | none => d
  | some t =>
    let d := d.until (t + 5 * second)
    { d with
      bkp := { d.bkp with recoveryReq := true }
      seqs := { d.seqs with svcPressedAt := none, softDue := some (3, d.now) } }

/-- The button held for five seconds. -/
def execServiceButtonHold (s : State) : Host.Outcome State Fault Refusal := .next (s.put (serviceButtonHoldEffect s.mem s.dev))

/-! ### PTP lock and 1PPS (R30, R31, R546, R602, R620, Tables 19.4 and 21.12) -/

/-- PTP client port in use (R30). -/
def Clk.portInUse (k : Clk) : Nat := if k.onSecondary then k.secondary else k.primary

/-- The other port named by DEV_SET_TICK has lock. -/
def Clk.otherLocked (k : Clk) : Bool :=
  let o := if k.onSecondary then k.primary else k.secondary
  decide (o < 16) && k.locked.getD o false

/-- PTP_LOCK_LOSS: the other port takes over at the next tick boundary, or time is held and the loss reported at DEGRADED, under a
status the manual does not name. -/
def ptpLockLossEffect (port : Nat) (_m : Mem) (d : Dev) : Dev :=
  let was := d.clk.locked.getD port false
  let d := { d with clk := { d.clk with locked := d.clk.locked.set port false } }
  if was = false ∨ port ≠ d.clk.portInUse then d
  else if d.clk.otherLocked then { d with clk := { d.clk with switchDue := true } }
  else
    let st : Status := (Config.freeWord d.free).setWidth 16
    ({ d with clk := { d.clk with holdover := true, switchDue := false }, free := d.free + 1 } : Dev).reportAt 3 st { kind := 0x10, die := d.clk.master }
      (BitVec.ofNat 64 port) false

/-- A PTP client port losing lock. -/
def execPtpLockLoss (port : Nat) (s : State) : Host.Outcome State Fault Refusal := .next (s.put (ptpLockLossEffect port s.mem s.dev))

/-- PTP_LOCK_GAIN: a port whose ETH domain runs gains lock. On the port in use it ends holdover, 1PPS_OUT is driven, and the backup
clock is set from PTP time; on the other port, while time is held, it takes over at the next boundary. -/
def ptpLockGainEffect (port : Nat) (_m : Mem) (d : Dev) : Dev :=
  if 16 ≤ port ∨ d.ethUp port = false then d
  else
    let k := { d.clk with locked := d.clk.locked.set port true }
    if port = d.clk.portInUse then
      { d with
        clk := { k with holdover := false, switchDue := false }
        pins := { d.pins with ppsOut := true }
        bkp := { d.bkp with clockValid := true } }
    else { d with clk := { k with switchDue := k.switchDue || (k.holdover && k.otherLocked) } }

/-- A PTP client port gaining lock. -/
def execPtpLockGain (port : Nat) (s : State) : Host.Outcome State Fault Refusal := .next (s.put (ptpLockGainEffect port s.mem s.dev))

/-- PPS_IN_EDGE: the second marked, to 8 ns. -/
def ppsInEdgeEffect (_m : Mem) (d : Dev) : Dev :=
  if d.seqs.step < 3 then d else { d with pins := { d.pins with ppsInAt := d.now / 8 * 8 } }

/-- A rising edge on 1PPS_IN. -/
def execPpsInEdge (s : State) : Host.Outcome State Fault Refusal := .next (s.put (ppsInEdgeEffect s.mem s.dev))

end Sys2Proof.Machine
end

