-- ==== Sys2Proof/Machine/DevCmds.lean ====
section
/-! DEFINITION. Pigeonhole commands of the device, fault, power and firmware groups (R3, R24, R29, R522, R527, R540, R542, R551,
R562, R563, R588, R591, R592, R634). -/

namespace Sys2Proof.Machine

open Sys2Proof

/-! ### DEV_IDENTIFY (R588) -/

/-- START_STATE (R550). -/
def StartState.code : StartState → Nat
  | .starting => 0
  | .ready => 1
  | .normal => 2
  | .recovery => 3

/-- RST_CAUSE [15:0] (R600). -/
def RstRegs.cause (r : RstRegs) : Nat := r.source.toNat + 16 * r.softKind.toNat + 256 * r.status.toNat

/-- STAGED_IMAGE. -/
def Nor.stagedSlot (n : Nor) : Nat := if n.imageA.staged then 0 else if n.imageB.staged then 1 else 0xFF

/-- Response body of DEV_IDENTIFY. -/
def Dev.identity (d : Dev) : Bytes :=
  layout 64 [(0, ascii "L880"), (4, le 2 (d.die 0).fuse.stepping.toNat), (6, le 1 d.start.code), (7, le 1 d.diesMask), (8, le 4 d.semantics),
    (12, le 1 d.cfg.activeImage), (13, le 1 d.nor.stagedSlot), (14, le 2 d.rst.cause), (16, fit 32 d.runningImage.digest), (48, fit 16 d.serial)]

/-- DEV_IDENTIFY. -/
def devIdentifyRun (p : Nat) (_b : Bytes) (_m : Mem) (d : Dev) : Dev := d.answer p { body := d.identity }

/-- The command of opcode 0x0101. -/
def devIdentifyOp : PghOp where
  opcode := 0x0101
  run := devIdentifyRun

/-- DEV_IDENTIFY: part, start state, dies, image and cause of reset. -/
def execDevIdentify (p : Nat) (frame : Bytes) (s : State) : Host.Outcome State Fault Refusal :=
  .next (s.put (devIdentifyOp.ring p frame s.mem s.dev))

/-! ### DEV_GET_FIGURES (R3, R588, R634) -/

/-- Logical cores of a die that run. -/
def Dev.coresRunning (d : Dev) (die : Nat) : List CoreRef := (allCores.filter fun c => c.die == die).filter d.coreRuns

/-- Clusters of a die that are mapped and switched on. -/
def Dev.clustersOn (d : Dev) (die : Nat) : Nat :=
  if d.dieUp die then (d.die die).map.countP fun c => decide (c < 9) && (d.die die).domains.getLsbD (2 + c) else 0

/-- Engines of a kind in service on some cores. -/
def Dev.engineCount (d : Dev) (cs : List CoreRef) (kind : Nat) : Nat := (cs.map fun c => d.enginesOf c kind).sum

/-- Response body of DEV_GET_FIGURES over some dies, with COUNTERS_LEN. -/
def Dev.figures (d : Dev) (dies : List Nat) (countersLen : Nat) : Bytes :=
  let up := dies.filter d.dieUp
  let cs := up.flatMap d.coresRunning
  let n := d.engineCount cs
  let rate := fun (v : Nat) => v * d.pwr.sortMhz / 1600
  layout 88 ([(0, le 2 d.pwr.sortMhz), (2, le 2 d.pwr.admitFill), (4, le 2 d.pwr.setCap), (6, le 2 d.effectiveCap), (8, le 1 up.length),
    (12, le 2 ((up.map d.clustersOn).sum)), (14, le 2 cs.length), (16, le 2 (n 0)), (18, le 2 (n 2)), (20, le 2 (n 1)), (22, le 2 (n 3)),
    (24, le 2 (n 4)), (28, le 4 (51200 * up.length)), (32, le 4 (rate (1200 * n 0))), (36, le 4 (rate (250 * n 1))), (40, le 4 (rate (125 * n 3))),
    (44, le 4 (rate (78125 * n 3) / 2)), (48, le 4 (rate (78125 * cs.length))), (84, le 4 countersLen)] ++
    (List.range 8).map fun i => (52 + 4 * i, le 4 ((d.die i).pool.bytes / 2 ^ 20)))

/-- A counter of DEV_GET_FIGURES on a die: kept once for the die, or once for each of its ports, priorities, classes or meters. -/
inductive Kept where
  | once (v : Nat)
  | each (vs : List Nat)
  deriving DecidableEq, Repr, Inhabited

/-- Open streams homed on a die. -/
def Dev.streamsOn (d : Dev) (die : Nat) : List Stream := d.streams.filter fun s => s.home.die == die

/-- Counters of chapters 4, 8 and 9 (Tables 4.12, 8.9 and 9.9). -/
def Dev.workCounters (d : Dev) (die : Nat) : List Kept :=
  let c := (d.die die).ctrs
  let of_ := fun (f : Stream → Nat) => ((d.streamsOn die).map f).sum
  [.once c.startWaits, .once c.overrunTicks, .once c.engineWatchdog, .once (c.tokInvalidUnits + of_ (·.invalidUnits)), .once (c.steps + of_ (·.steps)),
   .once (c.lateMasks + of_ (·.lateMasks)), .once (c.deadEnds + of_ (·.deadEnds)), .once (c.rejectedCommits + of_ (·.rejected)),
   .once (c.streamOverflow + of_ (·.overflow)), .once c.streamForeign, .once (c.respRefused + of_ (·.refused)), .once (c.streamMoves + of_ (·.moves)),
   .once c.parcelWaits]

/-- Counters of chapter 11 (Table 11.6). -/
def Dev.courierCounters (d : Dev) (die : Nat) : List Kept :=
  let x := d.die die
  let c := x.cur
  let of_ := fun (f : Conn → Nat) => (x.conns.map f).sum
  [.once (c.goneRetransmits + of_ (·.retransmits)), .once c.timeouts, .once (c.goneCnpRx + of_ (·.cnpRx)), .once (c.goneCnpTx + of_ (·.cnpTx)),
   .once c.windowCuts, .once (c.goneKeyRefused + of_ (·.keyRefused)), .once c.keyRefusedGen, .once c.dupRequests, .once c.connFailed, .once c.ctxMisses,
   .once c.unknownQp, .once c.badIcrc, .once c.badPkey]

/-- Counters of chapter 12 (Table 12.5). -/
def Dev.dispatchCounters (d : Dev) (die : Nat) : List Kept :=
  let ports := [d.port (2 * die), d.port (2 * die + 1)]
  let meters := fun (f : Meter → Nat) => (List.range 4096).map fun i => (((d.die die).meters.find? fun m => m.number == i + 1).map f).getD 0
  [.each (ports.flatMap (·.txByClass)), .each (ports.map (·.gateWaits)), .each (ports.flatMap (·.pauseRx)), .each (ports.flatMap (·.xoffTx)),
   .each (meters (·.green)), .each (meters (·.yellow)), .each (meters (·.red)), .each (meters (·.dropped))]

/-- Counters of chapters 13, 15 and 16 (Tables 13.6, 15.8 and 16.10). -/
def Dev.storeCounters (d : Dev) (die : Nat) : List Kept :=
  let x := d.die die
  let c := x.ctrs
  [.once ((x.clusters.map fun k => (k.cores.map (·.slotWaits)).sum).sum), .once c.barrierBadMsg, .once c.retryReads, .once c.softReads, .once c.degradedReads,
   .once c.slcFullWaits, .once c.blocksRetired, .once c.standinTakeovers, .once c.lbxFetched, .once c.lbxReplays, .once c.lbxHeld, .once c.lbxFreezes,
   .once c.lbxCacheMisses, .once c.lbxDoorbellIgnored, .once c.lbxWritebackLost]

/-- Counters of chapters 17 and 18 (Tables 17.11 and 18.11). -/
def Dev.healthCounters (d : Dev) (die : Nat) : List Kept :=
  let i := (d.die die).integ
  let f := (d.fc die).ctrs
  [.once i.bufWaits, .once i.bufRefused, .once i.bufRepossessed, .once i.sramCorrected, .once i.sramUncorrected, .once i.dramCorrected,
   .once i.dramUncorrected, .once i.rowsRepaired, .once i.injected, .once i.frkHostIgnored, .once i.settleRepaired, .once i.settleBytes,
   .once i.settleUndecided] ++ ((List.range 8).map fun v => .once (f.bySeverity.getD v 0)) ++
  [.once f.logOverwritten, .once f.fenceDrops, .once f.leasesBroken, .once f.watchdogExpiries]

/-- Counters of a die, in table order (R634). -/
def Dev.dieCounters (d : Dev) (die : Nat) : List Kept :=
  d.workCounters die ++ d.courierCounters die ++ d.dispatchCounters die ++ d.storeCounters die ++ d.healthCounters die

/-- Counters of two dies together: sums, and instances one after the other. -/
def Kept.join : Kept → Kept → Kept
  | .once a, .once b => .once (a + b)
  | .each a, .each b => .each (a ++ b)
  | x, _ => x

/-- Values of a counter. -/
def Kept.values : Kept → List Nat
  | .once v => [v]
  | .each vs => vs

/-- The counter block over some dies; those not in service contribute nothing. -/
def Dev.counterBlock (d : Dev) (dies : List Nat) : Bytes :=
  let joined := match dies.filter d.dieUp with
    | [] => []
    | i :: is => is.foldl (fun (l : List Kept) j => (l.zip (d.dieCounters j)).map fun (p : Kept × Kept) => p.1.join p.2) (d.dieCounters i)
  (joined.flatMap Kept.values).flatMap (le 8)

/-- DEV_GET_FIGURES. -/
def devGetFiguresRun (p : Nat) (b : Bytes) (_m : Mem) (d : Dev) : Dev :=
  let die := fld b 0 1
  if 7 < die ∧ die ≠ 0xFF then d.answer p (fail St.PGH_FIELD)
  else
    let dies := if die = 0xFF then List.range 8 else [die]
    let block := d.counterBlock dies
    d.answerBuf p (hostBuf b 8) block { body := d.figures dies block.length }

/-- The command of opcode 0x0102. -/
def devGetFiguresOp : PghOp where
  opcode := 0x0102
  used := [(0, 1), (8, 16)]
  run := devGetFiguresRun

/-- DEV_GET_FIGURES: figures in force, and the counters of a die or the package. -/
def execDevGetFigures (p : Nat) (frame : Bytes) (s : State) : Host.Outcome State Fault Refusal :=
  .next (s.put (devGetFiguresOp.ring p frame s.mem s.dev))

/-! ### DEV_SET_TICK, DEV_SET_MODE, DEV_START_COMPLETE (R24, R29, R30, R551, R588) -/

/-- DEV_SET_TICK. -/
def devSetTickRun (p : Nat) (b : Bytes) (_m : Mem) (d : Dev) : Dev :=
  let period := fld b 0 4
  let eff := fld b 16 8
  let p1 := fld b 24 1
  let p2 := fld b 25 1
  if period < 2000 ∨ 100000000 < period ∨ eff < d.clk.tick + 2 ∨ 15 < p1 ∨ (15 < p2 ∧ p2 ≠ 0xFF) ∨ p1 = p2 then d.answer p (fail St.PGH_FIELD)
  else
    let d := { d with
      clk := { d.clk with pending := some (eff, period, fld b 8 8, p1, p2) }
      pins := { d.pins with tickOutLive := true } }
    d.answer p { body := le 8 d.clk.tick }

/-- The command of opcode 0x0103. -/
def devSetTickOp : PghOp where
  opcode := 0x0103
  used := [(0, 4), (8, 8), (16, 8), (24, 1), (25, 1)]
  run := devSetTickRun

/-- DEV_SET_TICK: period, phase and PTP ports from a named tick. -/
def execDevSetTick (p : Nat) (frame : Bytes) (s : State) : Host.Outcome State Fault Refusal :=
  .next (s.put (devSetTickOp.ring p frame s.mem s.dev))

/-- DEV_SET_MODE; while the clock is throttled below its profile it is not raised (R24, R26, R564). -/
def devSetModeRun (p : Nat) (b : Bytes) (_m : Mem) (d : Dev) : Dev :=
  let mhz := fld b 0 2
  let fill := fld b 2 2
  if mhz < 800 ∨ 1800 < mhz ∨ mhz % 25 ≠ 0 ∨ fill < 128 ∨ 256 < fill then d.answer p (fail St.PGH_FIELD)
  else
    let next := if d.sortNext < d.pwr.profileMhz then min d.sortNext mhz else mhz
    ({ d with pwr := { d.pwr with profileMhz := mhz, nextMhz := some next, admitFill := fill } } : Dev).answer p {}

/-- The command of opcode 0x0104. -/
def devSetModeOp : PghOp where
  opcode := 0x0104
  used := [(0, 2), (2, 2)]
  run := devSetModeRun

/-- DEV_SET_MODE: clock profile and ADMIT_FILL. -/
def execDevSetMode (p : Nat) (frame : Bytes) (s : State) : Host.Outcome State Fault Refusal :=
  .next (s.put (devSetModeOp.ring p frame s.mem s.dev))

/-- DEV_START_COMPLETE: sent before ready, it waits for it. -/
def devStartCompleteRun (p : Nat) (_b : Bytes) (_m : Mem) (d : Dev) : Dev :=
  match d.start with
  | .starting => { d with seqs := { d.seqs with startWaiters := d.seqs.startWaiters ++ [p] } }
  | .ready => d.beginService.answer p {}
  | .normal | .recovery => d.answer p {}

/-- The command of opcode 0x0107. -/
def devStartCompleteOp : PghOp where
  opcode := 0x0107
  run := devStartCompleteRun

/-- DEV_START_COMPLETE: normal service begins. -/
def execDevStartComplete (p : Nat) (frame : Bytes) (s : State) : Host.Outcome State Fault Refusal :=
  .next (s.put (devStartCompleteOp.ring p frame s.mem s.dev))

/-! ### Fault group (R522, R526, R527, R538, R539, R542) -/

/-- A dead-letter entry's 64 bytes (Table 18.6). -/
def DeadLetter.bytes (x : DeadLetter) : Bytes :=
  layout 64 [(0, le 8 x.seq), (8, le 8 x.q), (16, le 8 x.index), (24, le 4 x.epoch), (28, le 4 x.rank), (32, le 4 x.slot), (36, le 4 x.stamp),
    (40, le 2 x.status.toNat), (42, le 2 x.flags), (44, le 1 x.stage), (45, le 1 x.restarts), (46, le 2 x.logical.toNat), (48, le 2 x.physical.toNat),
    (52, le 4 x.detail), (56, le 8 x.time)]

/-- Answer of FLT_READ_LOG from a log, oldest first: entries as (SEQ, bytes), the SEQ the next one takes, and how many fit. -/
def logAnswer (log : List (Nat × Bytes)) (next from_ most : Nat) : Answer :=
  let l := log.filter fun x => decide (from_ ≤ x.1)
  let out := l.take most
  { more := decide (most < l.length)
    body := le 8 ((log.head?.map (·.1)).getD next) ++ le 4 out.length ++ zeros 4 ++ out.flatMap (·.2) }

/-- FLT_READ_LOG. -/
def fltReadLogRun (p : Nat) (b : Bytes) (_m : Mem) (d : Dev) : Dev :=
  let die := fld b 0 1
  let source := fld b 1 1
  let records := fun (l : List FaultRec) => logAnswer (l.map fun r => (r.seq, r.bytes)) (d.fc die).seqNext (fld b 8 8) 126
  if 2 < source then d.answer p (fail St.PGH_FIELD)
  else if source = 2 then
    match d.job (fld b 4 4) with
    | none => d.answer p (fail St.FLT_LOG_RANGE)
    | some j => d.answer p (logAnswer (j.deadLetters.map fun x => (x.seq, x.bytes)) j.deadSeq (fld b 8 8) 63)
  else if 7 < die ∨ (d.die die).retired then d.answer p (fail St.FLT_LOG_RANGE)
  else d.answer p (records (if source = 0 then (d.fc die).ring else (d.fc die).aon))

/-- The command of opcode 0x0901. -/
def fltReadLogOp : PghOp where
  opcode := 0x0901
  used := [(0, 1), (1, 1), (4, 4), (8, 8)]
  run := fltReadLogRun

/-- FLT_READ_LOG: fault records, always-on records or dead letters from a sequence number. -/
def execFltReadLog (p : Nat) (frame : Bytes) (s : State) : Host.Outcome State Fault Refusal :=
  .next (s.put (fltReadLogOp.ring p frame s.mem s.dev))

/-- FLT_CLEAR_STICKY of a retirement (R36, R527): a unit with none recorded is in service. -/
def Dev.clearRetirement (d : Dev) (p die kind physical : Nat) : Dev :=
  let hit := fun (r : Retired) => r.who.die == die && r.who.kind == kind && (physicalField r.who).toNat == physical
  if (d.cfg.retired.any hit) = false then d.answer p (fail St.FLT_CLEAR_DENIED)
  else
    let w := d.cfgWrite fun c => { c with retired := updWhere c.retired hit fun r => { r with cleared := true } }
    w.1.answer p (if w.2 then {} else fail St.RSTP_CFG_WRITE_FAILED)

/-- FLT_CLEAR_STICKY. -/
def fltClearStickyRun (p : Nat) (b : Bytes) (_m : Mem) (d : Dev) : Dev :=
  let what := fld b 0 1
  let die := fld b 1 1
  if 3 < what ∨ (what ≠ 3 ∧ 7 < die) then d.answer p (fail St.PGH_FIELD)
  else if what = 0 then (d.onFc die fun c => { c with first := none, next := 0 }).answer p {}
  else if what = 1 then (d.onFc die fun c => { c with seen := 0, logOverwrite := false, selfFault := false }).answer p {}
  else if what = 2 then d.clearRetirement p die (fld b 2 1) (fld b 4 2)
  else ({ d with nor := { d.nor with dump0 := none, dump1 := none } } : Dev).answer p {}

/-- The command of opcode 0x0902. -/
def fltClearStickyOp : PghOp where
  opcode := 0x0902
  used := [(0, 1), (1, 1), (2, 1), (4, 2)]
  run := fltClearStickyRun

/-- FLT_CLEAR_STICKY: first capture, status bits, a retirement or the dumps cleared. -/
def execFltClearSticky (p : Nat) (frame : Bytes) (s : State) : Host.Outcome State Fault Refusal :=
  .next (s.put (fltClearStickyOp.ring p frame s.mem s.dev))

/-- A severity set for a status and kind in a collector. -/
def Collector.setSeverity (c : Collector) (st : Status) (kind v : Nat) : Collector :=
  { c with severities := (c.severities.filter fun x => !(x.1 == st && x.2.1 == kind)) ++ [(st, kind, v)] }

/-- FLT_SET_SEVERITY. -/
def fltSetSeverityRun (p : Nat) (b : Bytes) (_m : Mem) (d : Dev) : Dev :=
  let st : Status := BitVec.ofNat 16 (fld b 0 2)
  let kind := fld b 2 1
  let die := fld b 3 1
  let v := fld b 4 1
  if (7 < die ∧ die ≠ 0xFF) ∨ 7 < v then d.answer p (fail St.PGH_FIELD)
  else if !(St.all.contains st) ∨ kindDefined kind = false then d.answer p (fail St.FLT_SOURCE_UNKNOWN)
  else if severityFixed st kind ∨ v < severityFloor st kind then d.answer p (fail St.FLT_SEVERITY_FIXED)
  else
    let dies := if die = 0xFF then List.range 8 else [die]
    (dies.foldl (fun (d : Dev) i => d.onFc i fun c => c.setSeverity st kind v) d).answer p {}

/-- The command of opcode 0x0903. -/
def fltSetSeverityOp : PghOp where
  opcode := 0x0903
  used := [(0, 2), (2, 1), (3, 1), (4, 1)]
  run := fltSetSeverityRun

/-- FLT_SET_SEVERITY: the severity of a status code for a unit kind. -/
def execFltSetSeverity (p : Nat) (frame : Bytes) (s : State) : Host.Outcome State Fault Refusal :=
  .next (s.put (fltSetSeverityOp.ring p frame s.mem s.dev))

/-- The newest dump (R542). -/
def Nor.dump (n : Nor) : Option Bytes := match n.newerDump with
  | some 0 => n.dump0
  | some _ => n.dump1
  | none => none

/-- FLT_GET_DUMP. -/
def fltGetDumpRun (p : Nat) (b : Bytes) (_m : Mem) (d : Dev) : Dev :=
  let off := fld b 0 4
  if off % 4096 ≠ 0 then d.answer p (fail St.PGH_FIELD)
  else match d.nor.dump with
    | none => d.answer p (fail St.FLT_NO_DUMP)
    | some x =>
      if x.length ≤ off then d.answer p (fail St.PGH_FIELD)
      else d.answerBuf p (fld b 8 8, 4096) (fit 4096 (cut x off 4096)) { body := le 4 x.length }

/-- The command of opcode 0x0904. -/
def fltGetDumpOp : PghOp where
  opcode := 0x0904
  used := [(0, 4), (8, 8)]
  run := fltGetDumpRun

/-- FLT_GET_DUMP: 4 KiB of the newest dump. -/
def execFltGetDump (p : Nat) (frame : Bytes) (s : State) : Host.Outcome State Fault Refusal :=
  .next (s.put (fltGetDumpOp.ring p frame s.mem s.dev))

/-! ### Power group (R540, R555, R561 to R563) -/

/-- PWR_SET_CAP. -/
def pwrSetCapRun (p : Nat) (b : Bytes) (_m : Mem) (d : Dev) : Dev :=
  let w := fld b 0 2
  if w < 900 ∨ 1650 < w then d.answer p (fail St.RSTP_CAP_RANGE)
  else
    let r := d.cfgWrite fun c => { c with capW := w }
    if r.2 then ({ r.1 with pwr := { r.1.pwr with nextCap := some w } } : Dev).answer p {}
    else r.1.answer p (fail St.RSTP_CFG_WRITE_FAILED)

/-- The command of opcode 0x0A01. -/
def pwrSetCapOp : PghOp where
  opcode := 0x0A01
  used := [(0, 2)]
  run := pwrSetCapRun

/-- PWR_SET_CAP: the power cap from the next tick boundary. -/
def execPwrSetCap (p : Nat) (frame : Bytes) (s : State) : Host.Outcome State Fault Refusal :=
  .next (s.put (pwrSetCapOp.ring p frame s.mem s.dev))

/-- A cluster's domain goes off: its work goes elsewhere and only its mapping stands (R560). -/
def Dev.clusterOff (d : Dev) (die c : Nat) : Dev :=
  let u : UnitRef := { kind := 4, die := die, cluster := c }
  let running := d.itemsOn u
  let sacked := d.sackedOn u
  let cores := d.coresOf u
  let d := cores.foldl Dev.repossessCore d
  let d := running.foldl (fun (d : Dev) i => (d.itemRestart i (d.stageIndex i) none false).1) d
  let d := (sacked.foldl Dev.itemRequeue d).moveStreams cores false
  ((d.emptyCache die c).onCluster die c Cluster.restarted).setDomain die (2 + c) false

/-- A connection uses an Ethernet port of a die, or one of them carries PTP (Table 19.5). -/
def Dev.ethInUse (d : Dev) (die : Nat) : Bool :=
  (d.dies.any fun x => x.conns.any fun c => c.port / 2 == die) || d.clk.primary / 2 == die || (decide (d.clk.secondary < 16) && d.clk.secondary / 2 == die)

/-- The ETH domain of a die goes off. -/
def Dev.ethOff (d : Dev) (die : Nat) : Dev :=
  let d := [2 * die, 2 * die + 1].foldl (fun (d : Dev) p => d.onPort p fun x => { x with
    ingress := [], paused := List.replicate 8 none, xoff := List.replicate 8 false }) d
  ({ d with clk := { d.clk with locked := (d.clk.locked.set (2 * die) false).set (2 * die + 1) false } } : Dev).setDomain die 13 false

/-- NP domain of a sled slot in recovery mode (R555): switched on, its sled is admitted and the store starts. -/
def Dev.recoverySled (d : Dev) (slot : Nat) (on : Bool) : Dev :=
  if on = false then d.sledOff slot .unpowered false
  else
    let x := d.store.sled slot
    let d := if x.present ∧ x.label = some (d.store.identity, slot) then d.admitBegin slot 0 false none else d.sledPower slot true
    if d.store.started then d else d.startStore

/-- PWR_DOMAIN_CTL. -/
def pwrDomainCtlRun (p : Nat) (b : Bytes) (_m : Mem) (d : Dev) : Dev :=
  let die := fld b 0 1
  let dom := fld b 1 1
  let on := fld b 2 1
  let np := dom == 11 || dom == 12
  if d.dieUp die = false ∨ 13 < dom ∨ dom ≤ 1 ∨ (np ∧ d.start ≠ .recovery) then d.answer p (fail St.RSTP_DOMAIN_BAD)
  else if 1 < on then d.answer p (fail St.PGH_FIELD)
  else if np then (d.recoverySled (2 * die + (dom - 11)) (on == 1)).answer p {}
  else if dom = 13 then
    if d.ethInUse die then d.answer p (fail St.RSTP_DOMAIN_IN_USE)
    else (if on = 1 then d.setDomain die 13 true else d.ethOff die).answer p {}
  else if d.jobs.any fun j => j.state == .running then d.answer p (fail St.RSTP_DOMAIN_IN_USE)
  else (if on = 1 then d.setDomain die dom true else d.clusterOff die (dom - 2)).answer p {}

/-- The command of opcode 0x0A02. -/
def pwrDomainCtlOp : PghOp where
  opcode := 0x0A02
  used := [(0, 1), (1, 1), (2, 1)]
  run := pwrDomainCtlRun

/-- PWR_DOMAIN_CTL: a power domain switched. -/
def execPwrDomainCtl (p : Nat) (frame : Bytes) (s : State) : Host.Outcome State Fault Refusal :=
  .next (s.put (pwrDomainCtlOp.ring p frame s.mem s.dev))

/-- A margin's 24 bytes (R591). -/
def Margin.bytes (x : Margin) : Bytes :=
  layout 24 [(0, le 2 (marginStatus x.row).toNat), (4, le 4 x.unit), (8, le 4 (toBits 32 x.value)), (12, le 4 (toBits 32 x.warn)),
    (16, le 4 (toBits 32 x.action))]

/-- PWR_READ_MARGINS: as many as the response area holds. -/
def pwrReadMarginsRun (p : Nat) (b : Bytes) (_m : Mem) (d : Dev) : Dev :=
  let die := fld b 0 1
  if 7 < die then d.answer p (fail St.PGH_FIELD)
  else
    let l := (d.die die).margins.take 169
    d.answer p { body := le 4 l.length ++ zeros 4 ++ l.flatMap Margin.bytes }

/-- The command of opcode 0x0A03. -/
def pwrReadMarginsOp : PghOp where
  opcode := 0x0A03
  used := [(0, 1)]
  run := pwrReadMarginsRun

/-- PWR_READ_MARGINS: the latest value of each margin. -/
def execPwrReadMargins (p : Nat) (frame : Bytes) (s : State) : Host.Outcome State Fault Refusal :=
  .next (s.put (pwrReadMarginsOp.ring p frame s.mem s.dev))

/-! ### Firmware group (R558, R591, R592) -/

/-- n with an image slot set. -/
def Nor.setImage (n : Nor) (slot : Nat) (x : Image) : Nor := if slot = 1 then { n with imageB := x } else { n with imageA := x }

/-- Image in a slot. -/
def Nor.image (n : Nor) (slot : Nat) : Image := if slot = 1 then n.imageB else n.imageA

/-- FW_STAGE_IMAGE: the slot that ACTIVE_IMAGE does not name is written and checked. -/
def fwStageImageRun (p : Nat) (b : Bytes) (m : Mem) (d : Dev) : Dev :=
  let buf := hostBuf b 0
  let slot := 1 - d.cfg.activeImage
  if 16777216 < buf.2 then d.answer p (fail St.PGH_FIELD)
  else match pghRead m d p buf with
    | none => d.answer p (fail St.PGH_DMA)
    | some x =>
      if sha256 x ≠ cut b 16 32 then ({ d with nor := d.nor.setImage slot {} } : Dev).answer p (fail St.PGH_FW_IMAGE)
      else
        let sem := (Config.imageSemantics x).toNat
        ({ d with nor := d.nor.setImage slot { valid := true, digest := cut b 16 32, semantics := sem, staged := true } } : Dev).answer p
          { body := le 1 slot ++ zeros 3 ++ le 4 sem }

/-- The command of opcode 0x0B01. -/
def fwStageImageOp : PghOp where
  opcode := 0x0B01
  used := [(0, 16), (16, 32)]
  run := fwStageImageRun

/-- FW_STAGE_IMAGE: a Roist image written to the inactive slot. -/
def execFwStageImage (p : Nat) (frame : Bytes) (s : State) : Host.Outcome State Fault Refusal :=
  .next (s.put (fwStageImageOp.ring p frame s.mem s.dev))

/-- FW_ACTIVATE: ACTIVE_IMAGE written, the failed-start count cleared, a SOFT reset due 100 ms after the response. -/
def fwActivateRun (p : Nat) (b : Bytes) (_m : Mem) (d : Dev) : Dev :=
  let slot := fld b 0 1
  let x := d.nor.image slot
  if 1 < slot then d.answer p (fail St.PGH_FIELD)
  else if d.jobs.any fun j => !(j.state == .sealed_ || j.state == .lost) then d.answer p (fail St.PGH_FW_JOBS_ACTIVE)
  else if x.valid = false ∨ x.staged = false then d.answer p (fail St.PGH_FW_STAGE)
  else
    let r := d.cfgWrite fun c => { c with activeImage := slot }
    if r.2 = false then r.1.answer p (fail St.RSTP_CFG_WRITE_FAILED)
    else
      ({ r.1 with
        nor := r.1.nor.setImage slot { x with staged := false }
        bkp := { r.1.bkp with failedStarts := 0 }
        seqs := { r.1.seqs with softDue := some (2, r.1.now + 100000000) } } : Dev).answer p {}

/-- The command of opcode 0x0B02. -/
def fwActivateOp : PghOp where
  opcode := 0x0B02
  used := [(0, 1)]
  run := fwActivateRun

/-- FW_ACTIVATE: the staged image named for the next start. -/
def execFwActivate (p : Nat) (frame : Bytes) (s : State) : Host.Outcome State Fault Refusal :=
  .next (s.put (fwActivateOp.ring p frame s.mem s.dev))

end Sys2Proof.Machine
end

