-- ==== Sys2Proof/Machine/RegisterWrite.lean ====
section
/-! DEFINITION. A host write to any register of BAR0, under the access code of its field (R595 to R614). A write that another
row of the table names has the effect that row gives it. -/

namespace Sys2Proof.Machine

open Sys2Proof

/-! ### Doorbells (R576, R610) -/

/-- Every pigeonhole command but the two of opcode 0x0502 (R578). -/
def pghOps : List PghOp :=
  [devIdentifyOp, devGetFiguresOp, devSetTickOp, devStageConfigOp, devCommitConfigOp, devSetModeOp, devStartCompleteOp] ++
  [jobCreateOp, jobBindRanksOp, jobStartOp, jobSealOp, jobResumeOp, jobDestroyOp, jobQueryOp] ++
  [dsetOpenOp, dsetAddManifestOp, dsetCloseOp, dsetVerifyOp, dsetDeleteOp] ++
  [routeLoadOp, routeValidateOp, routeUnloadOp, vocabLoadOp, grammarLoadOp] ++
  [curRegisterRegionOp, curRevokeRegionOp, curConnectOp, curDisconnectOp, dspSetNodeOp, dspSetMeterOp, dspSetGatesOp] ++
  [streamOpenOp, streamCloseOp, lbxCreateOp, lbxResetOp, lbxRestartOp, lbxErrorLogOp] ++
  [stoFormatOp, stoSledPrepareRemoveOp, stoSledAdmitOp, stoStandinOp, stoSetEccStrengthOp] ++
  [fltReadLogOp, fltClearStickyOp, fltSetSeverityOp, fltGetDumpOp, fwStageImageOp, fwActivateOp] ++
  [pwrSetCapOp, pwrDomainCtlOp, pwrReadMarginsOp]

/-- The command a request names: by opcode, and under 0x0502 by KIND (Table 20.6). -/
def opOf (req : Bytes) : Option PghOp :=
  if fld req 6 2 = 0x0502 then some (if unloadKind req = 1 then grammarUnloadOp else vocabUnloadOp)
  else pghOps.find? fun op => op.opcode == fld req 6 2

/-- PGH_DOORBELL written: the request standing in the area is served. -/
def Dev.doorbell (d : Dev) (p : Nat) (m : Mem) : Dev :=
  if d.holeReachable p = false then d
  else if (d.hole p).busy then d.doorbellIgnored p
  else
    let d := d.holeTaken p
    match opOf (d.hole p).request with
    | some op => op.serve p m d
    | none => pghUnknown p d

/-! ### The blocks -/

/-- RST block (Tables 21.3 to 21.6). -/
def Dev.writeRst (d : Dev) (port die off : Nat) (value : BitVec 32) : Dev :=
  match off with
  | 0x00 => if bit value.toNat 31
    then { d with rst := { d.rst with source := 0, softKind := 0, status := 0, recovery := false, valid := false } }
    else d
  | 0x04 => d.rstCtl port die value
  | 0x08 => if bit value.toNat 31
    then d.onDie die fun x => { x with bad := { x.bad with offset := 0, write := false, port := 0, valid := false } }
    else d
  | _ => d.badWrite die

/-- BKP block; on a die other than 0 every write is counted (R595). -/
def Dev.writeBkp (d : Dev) (port die off : Nat) (value : BitVec 32) : Dev :=
  match off with
  | 0x00 => d.bkpFailedStarts port die value
  | 0x08 => d.bkpFlags port die value
  | _ => d.badWrite die

/-- FC_STATUS_CLR: severities seen, LOG_OVERWRITE and SELF_FAULT, each cleared by a 1 (Table 21.11). -/
def Collector.statusClear (c : Collector) (value : BitVec 32) : Collector :=
  { c with
    seen := c.seen &&& ~~~(value.setWidth 8)
    logOverwrite := c.logOverwrite && !bit value.toNat 9
    selfFault := c.selfFault && !bit value.toNat 11 }

/-- FC_FIRST_CLR: a 1 in VALID clears FC_FIRST and FC_NEXT (R605). -/
def Collector.firstClear (c : Collector) (value : BitVec 32) : Collector :=
  if bit value.toNat 0 then { c with first := none, next := 0 } else c

/-- FC block's 32-bit registers: in normal service the host may write FC_ALERT_ACK only. -/
def Dev.writeFc (d : Dev) (port die off : Nat) (value : BitVec 32) : Dev :=
  match off with
  | 0x08 => if d.openRegs then d.onFc die fun c => c.statusClear value else d.badWrite die
  | 0x40 => if d.openRegs then d.onFc die fun c => c.firstClear value else d.badWrite die
  | 0x50 => d.watchdogWrite port die value false
  | _ => d.badWrite die

/-- TICK block: TICK_OUT_CTL of die 0, in force from the next tick boundary (R607). -/
def Dev.writeTick (d : Dev) (die off : Nat) (value : BitVec 32) : Dev :=
  if die = 0 ∧ off = 0x30 then { d with clk := { d.clk with nextCtl := some (bit value.toNat 0, bit value.toNat 1) } } else d.badWrite die

/-- MBUS block. MBUS_CTL with CLEAR set belongs to MBUS_CLEAR, whose operands give what the clear met. -/
def Dev.writeMbus (d : Dev) (port die off : Nat) (value : BitVec 32) : Dev :=
  let b := off / 0x100
  if 4 ≤ b then d.badWrite die
  else
    match off % 0x100 with
    | 0x00 => if bit value.toNat 8 then d.busWrite port die b false (fun d => d) else d.busCtl port die b value false
    | 0x08 => d.busWrite port die b false fun d => d.onBus die b fun x => { x with stuck := x.stuck && !bit value.toNat 3 }
    | _ => d.badWrite die

/-- PGH block, of dies 0, 2, 4 and 6; bit n concerns pigeonhole 32k + n (R610, R611). -/
def Dev.writePgh (d : Dev) (die off : Nat) (value : BitVec 32) (m : Mem) : Dev :=
  let k := die / 2
  let each := fun (d : Dev) (f : Bool → Pgh → Pgh) =>
    (List.range 32).foldl (fun (d : Dev) n => d.onHole (32 * k + n) (f (bit value.toNat n))) d
  if die % 2 = 1 then d.badWrite die
  else
    match off with
    | 0x00 => d.doorbell (32 * k + bits value.toNat 4 0) m
    | 0x10 => each d fun (b : Bool) (h : Pgh) => { h with done := h.done && !b }
    | 0x18 => each d fun (b : Bool) (h : Pgh) => { h with irqEn := b }
    | 0x20 => { d with pghPorts := d.pghPorts.modify k fun (x : PghPort) => { x with vector := value.setWidth 11 } }
    | _ => d.badWrite die

/-- SCB block, open to the host in recovery mode (R612). -/
def Dev.writeScb (d : Dev) (die off : Nat) (value : BitVec 32) : Dev :=
  if d.openRegs = false then d.badWrite die
  else
    match off with
    | 0x00 => d.onScb die fun b => { b with sramEn := bit value.toNat 0, dramEn := bit value.toNat 1 }
    | 0x08 => d.onScb die fun b => { b with sramInterval := value.setWidth 16 }
    | 0x10 => d.onScb die fun b => { b with dramInterval := value.setWidth 16 }
    | _ => d.badWrite die

/-- A FLIP field written: ignored while the mask is armed (R613). -/
def Dev.setFlip (d : Dev) (die : Nat) (f : Flip → Flip) : Dev :=
  d.onDie die fun x => if x.flip.armed then x else { x with flip := f x.flip }

/-- FLIP block's 32-bit registers. -/
def Dev.writeFlip (d : Dev) (port die off : Nat) (value : BitVec 32) : Dev :=
  match off with
  | 0x00 => d.setFlip die fun f => { f with target := value &&& 0x000FFFF1 }
  | 0x10 => d.setFlip die fun f => { f with len := value }
  | 0x48 => d.setFlip die fun f => { f with count := value.setWidth 8 }
  | 0x50 => d.armWrite port die value
  | _ => d.badWrite die

/-- FRK_HOST_IGNORED raised (R515). -/
def Dev.frkIgnored (d : Dev) (die : Nat) : Dev := d.onInteg die fun c => { c with frkHostIgnored := c.frkHostIgnored + 1 }

/-- FRK block's 32-bit registers. -/
def Dev.writeFrk (d : Dev) (port die off : Nat) (value : BitVec 32) : Dev :=
  let u := off / 0x80
  if 18 ≤ u then d.frkIgnored die
  else
    match off % 0x80 with
    | 0x08 => d.frkWrite port die u false fun f => { f with expect := value }
    | 0x10 => d.frkCtl port die u value false
    | _ => d.frkIgnored die

/-! ### The access -/

/-- A write of a 32-bit register, or of a reserved offset. -/
def Dev.write32 (d : Dev) (port die block off : Nat) (value : BitVec 32) (m : Mem) : Dev :=
  match block with
  | 0 => d.writeRst port die off value
  | 1 => d.writeBkp port die off value
  | 4 => d.writeFc port die off value
  | 5 => d.writeTick die off value
  | 6 => d.writeMbus port die off value
  | 7 => d.writePgh die off value m
  | 8 => d.writeScb die off value
  | 9 => d.writeFlip port die off value
  | 10 => d.writeFrk port die off value
  | _ => d.badWrite die

/-- Element i of a list of four words replaced. -/
def setWord (l : List (BitVec 64)) (i : Nat) (v : BitVec 64) : List (BitVec 64) := l.set i v

/-- An 8 B write of a 64-bit register (R597). -/
def Dev.write64 (d : Dev) (port die block off : Nat) (value : BitVec 64) : Dev :=
  match block with
  | 4 => if off = 0x58 then (d.onFc die fun c => c.acknowledge value.toNat).drivePins else d.badWrite die
  | 8 =>
    if off = 0x20 ∧ d.openRegs then
      d.onScb die fun b => { b with warnSramUs := value.setWidth 32, warnDramMs := (value >>> 32).setWidth 32 }
    else d.badWrite die
  | 9 =>
    if off = 0x08 then d.setFlip die fun f => { f with addr := value }
    else if off = 0x40 then d.setFlip die fun f => { f with check := value.setWidth 40 }
    else d.setFlip die fun f => { f with data := setWord f.data ((off - 0x20) / 8) value }
  | 10 =>
    if off % 0x80 = 0 then d.frkWrite port die (off / 0x80) false fun f => { f with list := value } else d.frkIgnored die
  | _ => d.badWrite die

/-- A proper host write to a block that answers: 4 B or 8 B, to a 64-bit register only whole, and to two 32-bit registers one after
the other (R597). -/
def Dev.blockWrite (d : Dev) (port die block off size : Nat) (value : BitVec 64) (m : Mem) : Dev :=
  let wide := (d.reg64 die block (off / 8 * 8)).isSome
  if size = 4 then
    if wide then (if block = 10 then d.frkIgnored die else d.badWrite die)
    else d.write32 port die block off (value.setWidth 32) m
  else if wide then d.write64 port die block off value
  else (d.write32 port die block off (value.setWidth 32) m).write32 port die block (off + 4) ((value >>> 32).setWidth 32) m

/-- REGISTER_WRITE: a host write to BAR0. A block whose domain is off, or that lies in a safe die, ignores it (R598). -/
def registerWriteEffect (port offset size : Nat) (value : BitVec 64) (m : Mem) (d : Dev) : Dev :=
  let die := offset / 2 ^ 25
  let block := offset % 2 ^ 25 / 2 ^ 16
  if d.portUp port = false ∨ 2 ^ 28 ≤ offset then d
  else if improper offset size then d.improperAccess port offset true
  else if 5 ≤ block ∧ block ≤ 10 ∧ d.uncOpen die = false then d
  else d.blockWrite port die block (offset % 2 ^ 16) size value m

/-- A register written by the host. -/
def execRegisterWrite (port offset size : Nat) (value : BitVec 64) (s : State) : Host.Outcome State Fault Refusal :=
  .next (s.put (registerWriteEffect port offset size value s.mem s.dev))

end Sys2Proof.Machine
end

