-- ==== Sys2Proof/Machine/Dispatch.lean ====
section
/-! DEFINITION. The dispatch: one arm per command, each one call of its meaning. -/

namespace Sys2Proof.Machine

open Sys2Proof

/-- The effect of a command on everything but the queue. -/
def exec (i : Instr) (s : State) : Host.Outcome State Fault Refusal :=
  match i with
  | .devIdentify p frame => Sys2Proof.Machine.execDevIdentify p frame s
  | .devGetFigures p frame => Sys2Proof.Machine.execDevGetFigures p frame s
  | .devSetTick p frame => Sys2Proof.Machine.execDevSetTick p frame s
  | .devSetMode p frame => Sys2Proof.Machine.execDevSetMode p frame s
  | .devStageConfig p frame => Sys2Proof.Machine.execDevStageConfig p frame s
  | .devCommitConfig p frame => Sys2Proof.Machine.execDevCommitConfig p frame s
  | .devStartComplete p frame => Sys2Proof.Machine.execDevStartComplete p frame s
  | .jobCreate p frame => Sys2Proof.Machine.execJobCreate p frame s
  | .jobBindRanks p frame => Sys2Proof.Machine.execJobBindRanks p frame s
  | .jobStart p frame => Sys2Proof.Machine.execJobStart p frame s
  | .jobSeal p frame => Sys2Proof.Machine.execJobSeal p frame s
  | .jobResume p frame => Sys2Proof.Machine.execJobResume p frame s
  | .jobDestroy p frame => Sys2Proof.Machine.execJobDestroy p frame s
  | .jobQuery p frame => Sys2Proof.Machine.execJobQuery p frame s
  | .dsetOpen p frame => Sys2Proof.Machine.execDsetOpen p frame s
  | .dsetAddManifest p frame => Sys2Proof.Machine.execDsetAddManifest p frame s
  | .dsetClose p frame => Sys2Proof.Machine.execDsetClose p frame s
  | .dsetVerify p frame => Sys2Proof.Machine.execDsetVerify p frame s
  | .dsetDelete p frame => Sys2Proof.Machine.execDsetDelete p frame s
  | .routeLoad p frame => Sys2Proof.Machine.execRouteLoad p frame s
  | .routeValidate p frame => Sys2Proof.Machine.execRouteValidate p frame s
  | .routeUnload p frame => Sys2Proof.Machine.execRouteUnload p frame s
  | .vocabLoad p frame => Sys2Proof.Machine.execVocabLoad p frame s
  | .vocabUnload p frame => Sys2Proof.Machine.execVocabUnload p frame s
  | .grammarUnload p frame => Sys2Proof.Machine.execGrammarUnload p frame s
  | .grammarLoad p frame => Sys2Proof.Machine.execGrammarLoad p frame s
  | .streamOpen p frame => Sys2Proof.Machine.execStreamOpen p frame s
  | .streamClose p frame => Sys2Proof.Machine.execStreamClose p frame s
  | .curRegisterRegion p frame => Sys2Proof.Machine.execCurRegisterRegion p frame s
  | .curRevokeRegion p frame => Sys2Proof.Machine.execCurRevokeRegion p frame s
  | .curConnect p frame => Sys2Proof.Machine.execCurConnect p frame s
  | .curDisconnect p frame => Sys2Proof.Machine.execCurDisconnect p frame s
  | .dspSetNode p frame => Sys2Proof.Machine.execDspSetNode p frame s
  | .dspSetMeter p frame => Sys2Proof.Machine.execDspSetMeter p frame s
  | .dspSetGates p frame => Sys2Proof.Machine.execDspSetGates p frame s
  | .stoFormat p frame => Sys2Proof.Machine.execStoFormat p frame s
  | .stoSledPrepareRemove p frame => Sys2Proof.Machine.execStoSledPrepareRemove p frame s
  | .stoSledAdmit p frame => Sys2Proof.Machine.execStoSledAdmit p frame s
  | .stoStandin p frame => Sys2Proof.Machine.execStoStandin p frame s
  | .stoSetEccStrength p frame => Sys2Proof.Machine.execStoSetEccStrength p frame s
  | .fltReadLog p frame => Sys2Proof.Machine.execFltReadLog p frame s
  | .fltClearSticky p frame => Sys2Proof.Machine.execFltClearSticky p frame s
  | .fltSetSeverity p frame => Sys2Proof.Machine.execFltSetSeverity p frame s
  | .fltGetDump p frame => Sys2Proof.Machine.execFltGetDump p frame s
  | .pwrSetCap p frame => Sys2Proof.Machine.execPwrSetCap p frame s
  | .pwrDomainCtl p frame => Sys2Proof.Machine.execPwrDomainCtl p frame s
  | .pwrReadMargins p frame => Sys2Proof.Machine.execPwrReadMargins p frame s
  | .fwStageImage p frame => Sys2Proof.Machine.execFwStageImage p frame s
  | .fwActivate p frame => Sys2Proof.Machine.execFwActivate p frame s
  | .lbxCreate p frame => Sys2Proof.Machine.execLbxCreate p frame s
  | .lbxErrorLog p frame => Sys2Proof.Machine.execLbxErrorLog p frame s
  | .lbxRestart p frame => Sys2Proof.Machine.execLbxRestart p frame s
  | .lbxReset p frame => Sys2Proof.Machine.execLbxReset p frame s
  | .doorbellWrite port offset size value => Sys2Proof.Machine.execDoorbellWrite port offset size value s
  | .get queue tag => Sys2Proof.Machine.execGet queue tag s
  | .put queue tag => Sys2Proof.Machine.execPut queue tag s
  | .discard queue tag => Sys2Proof.Machine.execDiscard queue tag s
  | .secureDiscard queue tag => Sys2Proof.Machine.execSecureDiscard queue tag s
  | .stat queue tag => Sys2Proof.Machine.execStat queue tag s
  | .list queue tag => Sys2Proof.Machine.execList queue tag s
  | .flush queue tag => Sys2Proof.Machine.execFlush queue tag s
  | .intDelayExpiry queue => Sys2Proof.Machine.execIntDelayExpiry queue s
  | .pkgReset port die value => Sys2Proof.Machine.execPkgReset port die value s
  | .bkpClear port die value => Sys2Proof.Machine.execBkpClear port die value s
  | .recoveryReq port die value => Sys2Proof.Machine.execRecoveryReq port die value s
  | .fcAlertAck port die value => Sys2Proof.Machine.execFcAlertAck port die value s
  | .kick port die value byRoist => Sys2Proof.Machine.execKick port die value byRoist s
  | .arm port die value => Sys2Proof.Machine.execArm port die value s
  | .disarm port die value => Sys2Proof.Machine.execDisarm port die value s
  | .frkStart port die unit value byRoist => Sys2Proof.Machine.execFrkStart port die unit value byRoist s
  | .frkAbort port die unit value byRoist => Sys2Proof.Machine.execFrkAbort port die unit value byRoist s
  | .mbusClear port die bus value byRoist goodAttempt sda scl => Sys2Proof.Machine.execMbusClear port die bus value byRoist goodAttempt sda scl s
  | .isolate port die bus value byRoist => Sys2Proof.Machine.execIsolate port die bus value byRoist s
  | .registerWrite port offset size value => Sys2Proof.Machine.execRegisterWrite port offset size value s
  | .badAccess port offset size write => Sys2Proof.Machine.execBadAccess port offset size write s
  | .lowHalfRead port offset => Sys2Proof.Machine.execLowHalfRead port offset s
  | .coldReset => Sys2Proof.Machine.execColdReset s
  | .brownout rail => Sys2Proof.Machine.execBrownout rail s
  | .pinReset => Sys2Proof.Machine.execPinReset s
  | .softReset => Sys2Proof.Machine.execSoftReset s
  | .startTimeout => Sys2Proof.Machine.execStartTimeout s
  | .fatalRestart => Sys2Proof.Machine.execFatalRestart s
  | .glitchRestart => Sys2Proof.Machine.execGlitchRestart s
  | .dieReset die => Sys2Proof.Machine.execDieReset die s
  | .portReset port => Sys2Proof.Machine.execPortReset port s
  | .startUp => Sys2Proof.Machine.execStartUp s
  | .startReady => Sys2Proof.Machine.execStartReady s
  | .partitionReady partition => Sys2Proof.Machine.execPartitionReady partition s
  | .powerFail => Sys2Proof.Machine.execPowerFail s
  | .serviceButtonPress => Sys2Proof.Machine.execServiceButtonPress s
  | .serviceButtonRelease => Sys2Proof.Machine.execServiceButtonRelease s
  | .serviceButtonHold => Sys2Proof.Machine.execServiceButtonHold s
  | .attentionButton slot => Sys2Proof.Machine.execAttentionButton slot s
  | .surpriseRemoval slot => Sys2Proof.Machine.execSurpriseRemoval slot s
  | .ptpLockLoss port => Sys2Proof.Machine.execPtpLockLoss port s
  | .tickBoundary die => Sys2Proof.Machine.execTickBoundary die s
  | .deliveryTick die => Sys2Proof.Machine.execDeliveryTick die s
  | .expressCutoff die => Sys2Proof.Machine.execExpressCutoff die s
  | .configCommit job => Sys2Proof.Machine.execConfigCommit job s
  | .tickChange => Sys2Proof.Machine.execTickChange s
  | .gateScheduleChange port => Sys2Proof.Machine.execGateScheduleChange port s
  | .gateEntry port entry => Sys2Proof.Machine.execGateEntry port entry s
  | .spareEntry die => Sys2Proof.Machine.execSpareEntry die s
  | .formationPoint die => Sys2Proof.Machine.execFormationPoint die s
  | .spillDeadline die => Sys2Proof.Machine.execSpillDeadline die s
  | .sealCutoff job => Sys2Proof.Machine.execSealCutoff job s
  | .prepareReport job unit ok => Sys2Proof.Machine.execPrepareReport job unit ok s
  | .prepareTimeout job => Sys2Proof.Machine.execPrepareTimeout job s
  | .localReadIssue die => Sys2Proof.Machine.execLocalReadIssue die s
  | .storeReadComplete item ok status => Sys2Proof.Machine.execStoreReadComplete item ok status s
  | .fetchRequestSend die peer segment => Sys2Proof.Machine.execFetchRequestSend die peer segment s
  | .fetchRequest qpn payload => Sys2Proof.Machine.execFetchRequest qpn payload s
  | .stagingComplete request => Sys2Proof.Machine.execStagingComplete request s
  | .fetchReply qpn payload => Sys2Proof.Machine.execFetchReply qpn payload s
  | .homeBusyRetry item => Sys2Proof.Machine.execHomeBusyRetry item s
  | .releaseOnlySend die peer => Sys2Proof.Machine.execReleaseOnlySend die peer s
  | .primaryRetry item => Sys2Proof.Machine.execPrimaryRetry item s
  | .stagingLeaseEnd handle => Sys2Proof.Machine.execStagingLeaseEnd handle s
  | .fetchDeadline item => Sys2Proof.Machine.execFetchDeadline item s
  | .bufferGrant stack => Sys2Proof.Machine.execBufferGrant stack s
  | .itemStart core => Sys2Proof.Machine.execItemStart core s
  | .inflateRaw core item => Sys2Proof.Machine.execInflateRaw core item s
  | .inflateZlib core item => Sys2Proof.Machine.execInflateZlib core item s
  | .inflateGzip core item => Sys2Proof.Machine.execInflateGzip core item s
  | .decodeZstd core item => Sys2Proof.Machine.execDecodeZstd core item s
  | .decodeAuto core item => Sys2Proof.Machine.execDecodeAuto core item s
  | .deflateRaw core item => Sys2Proof.Machine.execDeflateRaw core item s
  | .deflateZlib core item => Sys2Proof.Machine.execDeflateZlib core item s
  | .deflateGzip core item => Sys2Proof.Machine.execDeflateGzip core item s
  | .encodeZstd core item => Sys2Proof.Machine.execEncodeZstd core item s
  | .decodeJpeg core item => Sys2Proof.Machine.execDecodeJpeg core item s
  | .decodePng core item => Sys2Proof.Machine.execDecodePng core item s
  | .decodeImage core item => Sys2Proof.Machine.execDecodeImage core item s
  | .decodeSequence core item => Sys2Proof.Machine.execDecodeSequence core item s
  | .decodeTensor core item => Sys2Proof.Machine.execDecodeTensor core item s
  | .decodeWav core item => Sys2Proof.Machine.execDecodeWav core item s
  | .decodeFlac core item => Sys2Proof.Machine.execDecodeFlac core item s
  | .decodeAudio core item => Sys2Proof.Machine.execDecodeAudio core item s
  | .crop core item => Sys2Proof.Machine.execCrop core item s
  | .flipRotate core item => Sys2Proof.Machine.execFlipRotate core item s
  | .resize core item => Sys2Proof.Machine.execResize core item s
  | .colour core item => Sys2Proof.Machine.execColour core item s
  | .normalise core item => Sys2Proof.Machine.execNormalise core item s
  | .layout core item => Sys2Proof.Machine.execLayout core item s
  | .cutout core item => Sys2Proof.Machine.execCutout core item s
  | .mix core item => Sys2Proof.Machine.execMix core item s
  | .convert core item => Sys2Proof.Machine.execConvert core item s
  | .spectrum core item => Sys2Proof.Machine.execSpectrum core item s
  | .tokenise core item => Sys2Proof.Machine.execTokenise core item s
  | .detokenise core item => Sys2Proof.Machine.execDetokenise core item s
  | .place core item => Sys2Proof.Machine.execPlace core item s
  | .placeScalar core item => Sys2Proof.Machine.execPlaceScalar core item s
  | .packTokens core item => Sys2Proof.Machine.execPackTokens core item s
  | .copy core item => Sys2Proof.Machine.execCopy core item s
  | .slice core item => Sys2Proof.Machine.execSlice core item s
  | .checkFrank core item => Sys2Proof.Machine.execCheckFrank core item s
  | .fill core item => Sys2Proof.Machine.execFill core item s
  | .stageComplete core item ranNs => Sys2Proof.Machine.execStageComplete core item ranNs s
  | .engineWatchdog core slot => Sys2Proof.Machine.execEngineWatchdog core slot s
  | .settleRequest qpn payload alternateReply => Sys2Proof.Machine.execSettleRequest qpn payload alternateReply s
  | .settleReply qpn payload => Sys2Proof.Machine.execSettleReply qpn payload s
  | .settleTimeout item => Sys2Proof.Machine.execSettleTimeout item s
  | .finalWriteAck job rank step => Sys2Proof.Machine.execFinalWriteAck job rank step s
  | .prHoldExpiry job rank => Sys2Proof.Machine.execPrHoldExpiry job rank s
  | .ingressFrame port len pcp hdr isResponse => Sys2Proof.Machine.execIngressFrame port len pcp hdr isResponse s
  | .pauseFrame port prio quanta => Sys2Proof.Machine.execPauseFrame port prio quanta s
  | .inboundWrite hdr first last imm key addr len payload => Sys2Proof.Machine.execInboundWrite hdr first last imm key addr len payload s
  | .inboundReadRequest hdr key addr len => Sys2Proof.Machine.execInboundReadRequest hdr key addr len s
  | .inboundAtomic hdr compareSwap key addr add => Sys2Proof.Machine.execInboundAtomic hdr compareSwap key addr add s
  | .ackReceived hdr => Sys2Proof.Machine.execAckReceived hdr s
  | .nakReceived hdr kind => Sys2Proof.Machine.execNakReceived hdr kind s
  | .readResponse hdr last payload => Sys2Proof.Machine.execReadResponse hdr last payload s
  | .cnpReceived qpn => Sys2Proof.Machine.execCnpReceived qpn s
  | .ackTimer qpn => Sys2Proof.Machine.execAckTimer qpn s
  | .retransmitTimeout qpn => Sys2Proof.Machine.execRetransmitTimeout qpn s
  | .rnrWaitExpiry qpn => Sys2Proof.Machine.execRnrWaitExpiry qpn s
  | .workRequestLifetime qpn => Sys2Proof.Machine.execWorkRequestLifetime qpn s
  | .workRequestStart qpn => Sys2Proof.Machine.execWorkRequestStart qpn s
  | .revocationComplete die entry => Sys2Proof.Machine.execRevocationComplete die entry s
  | .revocationCut die entry => Sys2Proof.Machine.execRevocationCut die entry s
  | .frameTransmit port => Sys2Proof.Machine.execFrameTransmit port s
  | .streamRequest qpn payload => Sys2Proof.Machine.execStreamRequest qpn payload s
  | .streamTokenise stream => Sys2Proof.Machine.execStreamTokenise stream s
  | .streamDetokenise stream => Sys2Proof.Machine.execStreamDetokenise stream s
  | .streamCommit stream => Sys2Proof.Machine.execStreamCommit stream s
  | .barrierArrive qpn payload => Sys2Proof.Machine.execBarrierArrive qpn payload s
  | .barrierRelease qpn payload => Sys2Proof.Machine.execBarrierRelease qpn payload s
  | .barrierAbort qpn payload => Sys2Proof.Machine.execBarrierAbort qpn payload s
  | .barrierComplete job => Sys2Proof.Machine.execBarrierComplete job s
  | .barrierTimeout job => Sys2Proof.Machine.execBarrierTimeout job s
  | .load core issuer addr => Sys2Proof.Machine.execLoad core issuer addr s
  | .store core issuer addr value => Sys2Proof.Machine.execStore core issuer addr value s
  | .loadTake core issuer addr => Sys2Proof.Machine.execLoadTake core issuer addr s
  | .loadPeek core issuer addr => Sys2Proof.Machine.execLoadPeek core issuer addr s
  | .storeFill core issuer addr value => Sys2Proof.Machine.execStoreFill core issuer addr value s
  | .setEmpty core addr => Sys2Proof.Machine.execSetEmpty core addr s
  | .watch core issuer addr awaitFull tag => Sys2Proof.Machine.execWatch core issuer addr awaitFull tag s
  | .watchRetry core issuer => Sys2Proof.Machine.execWatchRetry core issuer s
  | .journalPageTimer partition => Sys2Proof.Machine.execJournalPageTimer partition s
  | .nandProgramComplete program ok => Sys2Proof.Machine.execNandProgramComplete program ok s
  | .nandReadComplete read outcome => Sys2Proof.Machine.execNandReadComplete read outcome s
  | .nandEraseComplete block ok => Sys2Proof.Machine.execNandEraseComplete block ok s
  | .checkpoint partition => Sys2Proof.Machine.execCheckpoint partition s
  | .fold die => Sys2Proof.Machine.execFold die s
  | .patrolRead cell outcome => Sys2Proof.Machine.execPatrolRead cell outcome s
  | .cellRefresh cell => Sys2Proof.Machine.execCellRefresh cell s
  | .wearLevel lun => Sys2Proof.Machine.execWearLevel lun s
  | .standinTakeover group place => Sys2Proof.Machine.execStandinTakeover group place s
  | .rebuild group => Sys2Proof.Machine.execRebuild group s
  | .partitionTakeover partition => Sys2Proof.Machine.execPartitionTakeover partition s
  | .notReadyTimeout queue tag => Sys2Proof.Machine.execNotReadyTimeout queue tag s
  | .sledAdmissionComplete slot outcome => Sys2Proof.Machine.execSledAdmissionComplete slot outcome s
  | .parkComplete slot => Sys2Proof.Machine.execParkComplete slot s
  | .faultReport status src detail injected => Sys2Proof.Machine.execFaultReport status src detail injected s
  | .faultHandling die => Sys2Proof.Machine.execFaultHandling die s
  | .leaseExpiry die lease => Sys2Proof.Machine.execLeaseExpiry die lease s
  | .watchdogExpiry die => Sys2Proof.Machine.execWatchdogExpiry die s
  | .accountingCheck => Sys2Proof.Machine.execAccountingCheck s
  | .marginMeasurement die margin unit value baseline => Sys2Proof.Machine.execMarginMeasurement die margin unit value baseline s
  | .junctionSensorRead die sensor celsius => Sys2Proof.Machine.execJunctionSensorRead die sensor celsius s
  | .dumpComplete => Sys2Proof.Machine.execDumpComplete s
  | .capUnmet => Sys2Proof.Machine.execCapUnmet s
  | .scrubRead die dram memory addr errors => Sys2Proof.Machine.execScrubRead die dram memory addr errors s
  | .rowRepair die memory row => Sys2Proof.Machine.execRowRepair die memory row s
  | .sclLowTimeout die bus goodAttempt sda scl => Sys2Proof.Machine.execSclLowTimeout die bus goodAttempt sda scl s
  | .isolateRetry die bus goodAttempt sda scl => Sys2Proof.Machine.execIsolateRetry die bus goodAttempt sda scl s
  | .ptpLockGain port => Sys2Proof.Machine.execPtpLockGain port s
  | .garbageCollection die => Sys2Proof.Machine.execGarbageCollection die s
  | .frankingListDone die unit poisoned => Sys2Proof.Machine.execFrankingListDone die unit poisoned s
  | .pauseExpiry port prio => Sys2Proof.Machine.execPauseExpiry port prio s
  | .perstNHigh port => Sys2Proof.Machine.execPerstNHigh port s
  | .ppsInEdge => Sys2Proof.Machine.execPpsInEdge s

end Sys2Proof.Machine
end

