-- ==== Sys2Proof/Machine/Step.lean ====
section
/-! DEFINITION. One step: the command at the front of the queue, or one nanosecond of idling on an empty queue. -/

namespace Sys2Proof.Machine

open Sys2Proof

/-- An idle nanosecond: only the PTP time moves (log entry 2). -/
def State.idle (s : State) : State :=
  { s with dev := { s.dev with clk := { s.dev.clk with now := s.dev.clk.now + 1 } } }

/-- Take the command at the front of the queue and run it with the queue's rest; idle on an empty queue. -/
def step (s : State) : Host.Outcome State Fault Refusal :=
  match s.pending with
  | [] => .next s.idle
  | c :: rest => exec c { s with pending := rest }

/-- The state with the command a word spells at the front of its queue; unchanged where the word spells none. -/
def State.withFetchWord (s : State) (nbits w : Nat) : State :=
  match decodeTableWord nbits w with
  | some c => { s with pending := c :: s.pending }
  | none => s

end Sys2Proof.Machine
end

