-- ==== Sys2Proof/Safety.lean ====
section
/-! DEFINITION. What counts as a sound state and an accepted command, in the terms the statements use. -/

namespace Sys2Proof.Machine

open Sys2Proof

/-- Sound states: the memories are canonical, and no write of an ended command is left over. -/
def Sound (s : State) : Prop := memWf s.mem = true ∧ s.dev.dma = []

/-! ### Pigeonhole requests -/

/-- The device once host software has written a request frame into pigeonhole p and its doorbell was accepted: BUSY set, DONE cleared
(R576, R611). -/
def Dev.rung (d : Dev) (p : Nat) (frame : Bytes) : Dev := (d.requestWritten p frame).holeTaken p

/-- The request as it then stands in the area. -/
def Dev.requestAt (d : Dev) (p : Nat) (frame : Bytes) : Bytes := ((d.rung p frame).hole p).request

/-- Body of the request. -/
def PghOp.bodyOf (op : PghOp) (p : Nat) (frame : Bytes) (d : Dev) : Bytes := cut (d.requestAt p frame) 32 op.size

/-- A frame reaches its command's own work: the pigeonhole can be rung and is free, the frame is the command's and correct, its SEQ is
new, the start state admits the command, reserved fields are 0 and handles are held (R576, R580 checks 1 to 5, R581). -/
def PghOp.Accepts (op : PghOp) (p : Nat) (frame : Bytes) (d : Dev) : Prop :=
  d.holeReachable p = true ∧ fld frame 6 2 = op.opcode ∧ (d.hole p).busy = false ∧
  op.framed (d.requestAt p frame) = true ∧
  ((d.rung p frame).hole p).verdict (fld (d.requestAt p frame) 8 4) (fld (d.requestAt p frame) 16 4) = .new ∧
  op.refusal (d.requestAt p frame) (d.rung p frame) = none

/-- The pigeonhole commands of a frame, each with its row of Tables 20.4 to 20.7; VOCAB_UNLOAD names a vocabulary or, with KIND 1, a
grammar. -/
def pghRows (p : Nat) (frame : Bytes) : List (Instr × PghOp) :=
  [(.devIdentify p frame, devIdentifyOp), (.devGetFigures p frame, devGetFiguresOp), (.devSetTick p frame, devSetTickOp),
   (.devSetMode p frame, devSetModeOp), (.devStageConfig p frame, devStageConfigOp), (.devCommitConfig p frame, devCommitConfigOp),
   (.devStartComplete p frame, devStartCompleteOp), (.jobCreate p frame, jobCreateOp), (.jobBindRanks p frame, jobBindRanksOp),
   (.jobStart p frame, jobStartOp), (.jobSeal p frame, jobSealOp), (.jobResume p frame, jobResumeOp),
   (.jobDestroy p frame, jobDestroyOp), (.jobQuery p frame, jobQueryOp), (.dsetOpen p frame, dsetOpenOp),
   (.dsetAddManifest p frame, dsetAddManifestOp), (.dsetClose p frame, dsetCloseOp), (.dsetVerify p frame, dsetVerifyOp),
   (.dsetDelete p frame, dsetDeleteOp), (.routeLoad p frame, routeLoadOp), (.routeValidate p frame, routeValidateOp),
   (.routeUnload p frame, routeUnloadOp), (.vocabLoad p frame, vocabLoadOp), (.grammarLoad p frame, grammarLoadOp),
   (.streamOpen p frame, streamOpenOp), (.streamClose p frame, streamCloseOp), (.curRegisterRegion p frame, curRegisterRegionOp),
   (.curRevokeRegion p frame, curRevokeRegionOp), (.curConnect p frame, curConnectOp), (.curDisconnect p frame, curDisconnectOp),
   (.dspSetNode p frame, dspSetNodeOp), (.dspSetMeter p frame, dspSetMeterOp), (.dspSetGates p frame, dspSetGatesOp),
   (.stoFormat p frame, stoFormatOp), (.stoSledPrepareRemove p frame, stoSledPrepareRemoveOp),
   (.stoSledAdmit p frame, stoSledAdmitOp), (.stoStandin p frame, stoStandinOp), (.stoSetEccStrength p frame, stoSetEccStrengthOp),
   (.fltReadLog p frame, fltReadLogOp), (.fltClearSticky p frame, fltClearStickyOp), (.fltSetSeverity p frame, fltSetSeverityOp),
   (.fltGetDump p frame, fltGetDumpOp), (.pwrSetCap p frame, pwrSetCapOp), (.pwrDomainCtl p frame, pwrDomainCtlOp),
   (.pwrReadMargins p frame, pwrReadMarginsOp), (.fwStageImage p frame, fwStageImageOp), (.fwActivate p frame, fwActivateOp),
   (.lbxCreate p frame, lbxCreateOp), (.lbxErrorLog p frame, lbxErrorLogOp), (.lbxRestart p frame, lbxRestartOp),
   (.lbxReset p frame, lbxResetOp)] ++
  (if unloadKind frame = 1 then [(.grammarUnload p frame, grammarUnloadOp)] else [(.vocabUnload p frame, vocabUnloadOp)])

/-! ### Courier packets -/

/-- An inbound request is the next one of a connection in service, without a CE mark (R326, R327, R333, R340). -/
def Dev.Expects (d : Dev) (h : RoceHdr) (c : Conn) : Prop :=
  d.accept h = .ok c ∧ (c.state = .connected ∨ c.state = .disconnecting) ∧ h.ce = false ∧
  (d.leaveIngress c.port h.qpn h.psn).2 = false ∧ c.place h.psn = .expected

/-- The device as its request is acted on: its frame has left the ingress buffer, its context is loaded, no gap is open (R331, R333,
R369). -/
def Dev.inTurn (d : Dev) (h : RoceHdr) (c : Conn) : Dev :=
  ((d.leaveIngress c.port h.qpn h.psn).1.ctxTouch h.qpn).onConn h.qpn fun c => { c with gapNaked := false }

/-- A response packet of a connection in service, without a CE mark. -/
def Dev.Answers (d : Dev) (h : RoceHdr) (c : Conn) : Prop :=
  d.accept h = .ok c ∧ (c.state = .connected ∨ c.state = .disconnecting) ∧ h.ce = false

/-! ### Cores -/

/-- The device has its eight dies, each with nine clusters of nine cores, and every scratch lists its words in order. -/
def Dev.Shaped (d : Dev) : Prop :=
  d.dies.length = 8 ∧ ∀ x ∈ d.dies, x.clusters.length = 9 ∧ ∀ y ∈ x.clusters, y.cores.length = 9 ∧
    ∀ z ∈ y.cores, z.scratch.Pairwise fun a b => a.addr < b.addr

/-! ### Memory -/

/-- Package DRAM holds bytes at an address, and is as before elsewhere; the other memories are as before. -/
def DramHolds (m m' : Mem) (addr : Nat) (b : Bytes) : Prop :=
  (∀ i, (h : i < b.length) → cellsGet m'.dram (addr + i) = b[i]) ∧
  (∀ a, (a < addr ∨ addr + b.length ≤ a) → cellsGet m'.dram a = cellsGet m.dram a) ∧ m'.host = m.host ∧ m'.frame = m.frame

end Sys2Proof.Machine
end

