-- ==== Sys2Proof/Certificates/Slice0/Obligations.lean ====
section
/-! DEFINITION. The statements for the provers: one definition each, every free name a name of the model. -/

open Sys2Proof Sys2Proof.Machine

/-- DEV_IDENTIFY, DEV_GET_FIGURES, DEV_SET_TICK, DEV_SET_MODE and DEV_START_COMPLETE complete with the effects of R588 (Table 20.4), R24
and R551. -/
def Obligations.DeviceCommandsComplete : Prop :=
  (∀ (p : Nat) (frame : Bytes) (s : State), devIdentifyOp.Accepts p frame s.dev →
    let d := s.dev.rung p frame
    let identity := layout 64
      [(0, ascii "L880"), (4, le 2 (d.die 0).fuse.stepping.toNat), (6, le 1 d.start.code), (7, le 1 d.diesMask), (8, le 4 d.semantics),
        (12, le 1 d.cfg.activeImage), (13, le 1 (if d.nor.imageA.staged then 0 else if d.nor.imageB.staged then 1 else 0xFF)),
        (14, le 2 (d.rst.source.toNat + 16 * d.rst.softKind.toNat + 256 * d.rst.status.toNat)),
        (16, fit 32 d.runningImage.digest), (48, fit 16 d.serial)]
    exec (.devIdentify p frame) s = .next (s.put (d.answer p { body := identity }))) ∧
  (∀ (p : Nat) (frame : Bytes) (s : State), devGetFiguresOp.Accepts p frame s.dev →
    let d := s.dev.rung p frame
    let b := devGetFiguresOp.bodyOf p frame s.dev
    let dies := if fld b 0 1 = 0xFF then List.range 8 else [fld b 0 1]
    let block := d.counterBlock dies
    (fld b 0 1 < 8 ∨ fld b 0 1 = 0xFF) → block.length ≤ fld b 16 8 → d.hostRefused (p / 32) (fld b 8 8) block.length true = none →
    exec (.devGetFigures p frame) s =
      .next (s.put ((d.hostPut (p / 32) (fld b 8 8) block).answer p { body := d.figures dies block.length }))) ∧
  (∀ (p : Nat) (frame : Bytes) (s : State), devSetTickOp.Accepts p frame s.dev →
    let d := s.dev.rung p frame
    let b := devSetTickOp.bodyOf p frame s.dev
    2000 ≤ fld b 0 4 → fld b 0 4 ≤ 100000000 → s.dev.clk.tick + 2 ≤ fld b 16 8 →
    fld b 24 1 ≤ 15 → (fld b 25 1 ≤ 15 ∨ fld b 25 1 = 0xFF) → fld b 24 1 ≠ fld b 25 1 →
    exec (.devSetTick p frame) s = .next (s.put (({ d with
      clk := { d.clk with pending := some (fld b 16 8, fld b 0 4, fld b 8 8, fld b 24 1, fld b 25 1) }
      pins := { d.pins with tickOutLive := true } } : Dev).answer p { body := le 8 s.dev.clk.tick }))) ∧
  (∀ (p : Nat) (frame : Bytes) (s : State), devSetModeOp.Accepts p frame s.dev →
    let d := s.dev.rung p frame
    let b := devSetModeOp.bodyOf p frame s.dev
    800 ≤ fld b 0 2 → fld b 0 2 ≤ 1800 → fld b 0 2 % 25 = 0 → 128 ≤ fld b 2 2 → fld b 2 2 ≤ 256 →
    exec (.devSetMode p frame) s = .next (s.put (({ d with pwr := { d.pwr with
      profileMhz := fld b 0 2
      nextMhz := some (if d.sortNext < d.pwr.profileMhz then min d.sortNext (fld b 0 2) else fld b 0 2)
      admitFill := fld b 2 2 } } : Dev).answer p {}))) ∧
  (∀ (p : Nat) (frame : Bytes) (s : State), devStartCompleteOp.Accepts p frame s.dev → s.dev.start = .ready →
    let d := s.dev.rung p frame
    exec (.devStartComplete p frame) s = .next (s.put (d.beginService.answer p {})) ∧
    d.beginService.start = .normal ∧ d.beginService.bkp.failedStarts = 0)

/-- FLT_READ_LOG, FLT_CLEAR_STICKY, FLT_SET_SEVERITY, FLT_GET_DUMP, PWR_SET_CAP, PWR_DOMAIN_CTL and PWR_READ_MARGINS complete with the
effects of R591 (Table 20.7), R522, R527, R542, R562 and R563. -/
def Obligations.FaultAndPowerCommandsComplete : Prop :=
  (∀ (p : Nat) (frame : Bytes) (s : State), fltReadLogOp.Accepts p frame s.dev →
    let d := s.dev.rung p frame
    let b := fltReadLogOp.bodyOf p frame s.dev
    let log := (d.fc (fld b 0 1)).ring
    let from_ := log.filter fun r => decide (fld b 8 8 ≤ r.seq)
    fld b 0 1 < 8 → fld b 1 1 = 0 → (d.die (fld b 0 1)).retired = false →
    exec (.fltReadLog p frame) s = .next (s.put (d.answer p {
      more := decide (126 < from_.length)
      body := le 8 ((log.head?.map (·.seq)).getD (d.fc (fld b 0 1)).seqNext) ++ le 4 (min 126 from_.length) ++ zeros 4 ++
        (from_.take 126).flatMap FaultRec.bytes }))) ∧
  (∀ (p : Nat) (frame : Bytes) (s : State), fltClearStickyOp.Accepts p frame s.dev →
    let d := s.dev.rung p frame
    let b := fltClearStickyOp.bodyOf p frame s.dev
    fld b 0 1 = 0 → fld b 1 1 < 8 →
    exec (.fltClearSticky p frame) s =
      .next (s.put ((d.onFc (fld b 1 1) fun c => { c with first := none, next := 0 }).answer p {}))) ∧
  (∀ (p : Nat) (frame : Bytes) (s : State), fltSetSeverityOp.Accepts p frame s.dev →
    let d := s.dev.rung p frame
    let b := fltSetSeverityOp.bodyOf p frame s.dev
    let st : Status := BitVec.ofNat 16 (fld b 0 2)
    fld b 3 1 < 8 → fld b 4 1 ≤ 7 → st ∈ St.all → kindDefined (fld b 2 1) = true →
    severityFixed st (fld b 2 1) = false → severityFloor st (fld b 2 1) ≤ fld b 4 1 →
    exec (.fltSetSeverity p frame) s = .next (s.put ((d.onFc (fld b 3 1) fun c => { c with
      severities := (c.severities.filter fun x => !(x.1 == st && x.2.1 == fld b 2 1)) ++ [(st, fld b 2 1, fld b 4 1)] }).answer p {}))) ∧
  (∀ (p : Nat) (frame x : Bytes) (s : State), fltGetDumpOp.Accepts p frame s.dev →
    let d := s.dev.rung p frame
    let b := fltGetDumpOp.bodyOf p frame s.dev
    d.nor.dump = some x → fld b 0 4 % 4096 = 0 → fld b 0 4 < x.length → d.hostRefused (p / 32) (fld b 8 8) 4096 true = none →
    exec (.fltGetDump p frame) s =
      .next (s.put ((d.hostPut (p / 32) (fld b 8 8) (fit 4096 (cut x (fld b 0 4) 4096))).answer p { body := le 4 x.length }))) ∧
  (∀ (p : Nat) (frame : Bytes) (s : State), pwrSetCapOp.Accepts p frame s.dev →
    let d := s.dev.rung p frame
    let w := fld (pwrSetCapOp.bodyOf p frame s.dev) 0 2
    900 ≤ w → w ≤ 1650 → (d.cfgWrite fun c => { c with capW := w }).2 = true →
    let r := (d.cfgWrite fun c => { c with capW := w }).1
    exec (.pwrSetCap p frame) s = .next (s.put (({ r with pwr := { r.pwr with nextCap := some w } } : Dev).answer p {}))) ∧
  (∀ (p : Nat) (frame : Bytes) (s : State), pwrDomainCtlOp.Accepts p frame s.dev →
    let d := s.dev.rung p frame
    let b := pwrDomainCtlOp.bodyOf p frame s.dev
    d.dieUp (fld b 0 1) = true → fld b 1 1 = 13 → fld b 2 1 = 1 → d.ethInUse (fld b 0 1) = false →
    exec (.pwrDomainCtl p frame) s = .next (s.put ((d.setDomain (fld b 0 1) 13 true).answer p {}))) ∧
  (∀ (p : Nat) (frame : Bytes) (s : State), pwrReadMarginsOp.Accepts p frame s.dev →
    let d := s.dev.rung p frame
    let die := fld (pwrReadMarginsOp.bodyOf p frame s.dev) 0 1
    let l := (d.die die).margins.take 169
    let record := fun (x : Margin) => layout 24 [(0, le 2 (marginStatus x.row).toNat), (4, le 4 x.unit),
      (8, le 4 (toBits 32 x.value)), (12, le 4 (toBits 32 x.warn)), (16, le 4 (toBits 32 x.action))]
    die < 8 →
    exec (.pwrReadMargins p frame) s = .next (s.put (d.answer p { body := le 4 l.length ++ zeros 4 ++ l.flatMap record })))

/-- FW_STAGE_IMAGE and FW_ACTIVATE (R591, R592). -/
def Obligations.FirmwareCommandsComplete : Prop :=
  (∀ (p : Nat) (frame x : Bytes) (s : State), fwStageImageOp.Accepts p frame s.dev →
    let d := s.dev.rung p frame
    let b := fwStageImageOp.bodyOf p frame s.dev
    let slot := 1 - d.cfg.activeImage
    let image : Image := { valid := true, digest := cut b 16 32, semantics := (Config.imageSemantics x).toNat, staged := true }
    fld b 8 8 ≤ 16777216 → hostRead s.mem d (p / 32) (fld b 0 8) (fld b 8 8) = some x →
    (sha256 x = cut b 16 32 →
      exec (.fwStageImage p frame) s = .next (s.put (({ d with nor := d.nor.setImage slot image } : Dev).answer p
        { body := le 1 slot ++ zeros 3 ++ le 4 image.semantics }))) ∧
    (sha256 x ≠ cut b 16 32 →
      exec (.fwStageImage p frame) s =
        .next (s.put (({ d with nor := d.nor.setImage slot {} } : Dev).answer p { status := St.PGH_FW_IMAGE })))) ∧
  (∀ (p : Nat) (frame : Bytes) (s : State), fwActivateOp.Accepts p frame s.dev →
    let d := s.dev.rung p frame
    let slot := fld (fwActivateOp.bodyOf p frame s.dev) 0 1
    let r := (d.cfgWrite fun c => { c with activeImage := slot }).1
    slot ≤ 1 →
    ((∃ j ∈ d.jobs, j.state ≠ .sealed_ ∧ j.state ≠ .lost) →
      exec (.fwActivate p frame) s = .next (s.put (d.answer p { status := St.PGH_FW_JOBS_ACTIVE }))) ∧
    ((∀ j ∈ d.jobs, j.state = .sealed_ ∨ j.state = .lost) → (d.nor.image slot).valid = true → (d.nor.image slot).staged = true →
      (d.cfgWrite fun c => { c with activeImage := slot }).2 = true →
      exec (.fwActivate p frame) s = .next (s.put (({ r with
        nor := r.nor.setImage slot { d.nor.image slot with staged := false }
        bkp := { r.bkp with failedStarts := 0 }
        seqs := { r.seqs with softDue := some (2, r.now + 100000000) } } : Dev).answer p {}))))

/-- PKG_RESET, BKP_CLEAR, RECOVERY_REQ and FC_ALERT_ACK (R595, R601, R602, R606). -/
def Obligations.AlwaysOnRegisterWrites : Prop :=
  (∀ (port die : Nat) (value : BitVec 32) (s : State), s.dev.portUp port = true → die < 8 → bit value.toNat 0 = true →
    s.dev.seqs.powerFailAt = none →
    (bits value.toNat 15 8 = 0x5A → s.dev.seqs.softDue = none → exec (.pkgReset port die value) s =
      .next (s.put { s.dev with seqs := { s.dev.seqs with softDue := some (1, s.dev.now + 10000) } })) ∧
    (bits value.toNat 15 8 ≠ 0x5A → exec (.pkgReset port die value) s = .next (s.put (s.dev.onDie die fun x =>
      { x with bad := { x.bad with count := if x.bad.count = 0xFFFFFFFF then x.bad.count else x.bad.count + 1 } })))) ∧
  (∀ (port : Nat) (value : BitVec 32) (s : State), s.dev.portUp port = true → bit value.toNat 8 = true →
    exec (.bkpClear port 0 value) s = .next (s.put { s.dev with bkp := { s.dev.bkp with failedStarts := 0 } })) ∧
  (∀ (port : Nat) (value : BitVec 32) (s : State), s.dev.portUp port = true → bit value.toNat 0 = true →
    exec (.recoveryReq port 0 value) s = .next (s.put { s.dev with bkp := { s.dev.bkp with
      recoveryReq := true
      powerFail := s.dev.bkp.powerFail && !bit value.toNat 1
      backupLost := s.dev.bkp.backupLost && !bit value.toNat 3 } })) ∧
  (∀ (port die : Nat) (value : BitVec 64) (s : State), s.dev.portUp port = true → die < 8 →
    exec (.fcAlertAck port die value) s = .next (s.put (s.dev.onFc die fun c =>
      { c with alertAcked := max c.alertAcked (min value.toNat (c.seqNext - 1)) }).drivePins))

/-- KICK, ARM, DISARM, FRK_START and FRK_ABORT (R511, R530, R613, R614). RESULT after ABORT is a free value. -/
def Obligations.CheckerRegisterWrites : Prop :=
  (∀ (port die : Nat) (value : BitVec 32) (s : State), s.dev.dieUp die = true → bit value.toNat 0 = true →
    exec (.kick port die value true) s = .next (s.put (s.dev.onFc die fun c => { c with lastKick := s.dev.now }))) ∧
  (∀ (port die : Nat) (value : BitVec 32) (s : State), s.dev.portUp port = true → s.dev.uncOpen die = true →
    bit value.toNat 0 = true → bit value.toNat 1 = false →
    ((s.dev.die die).flip.inTarget = true → (s.dev.start = .recovery ∨ (s.dev.die die).flip.inPage = true) →
      exec (.arm port die value) s = .next (s.put (s.dev.onDie die fun x => { x with flip :=
        { (s.dev.die die).flip with armed := true, remaining := (s.dev.die die).flip.count, status := 0 } }))) ∧
    (((s.dev.die die).flip.inTarget = false ∨ (s.dev.start ≠ .recovery ∧ (s.dev.die die).flip.inPage = false)) →
      exec (.arm port die value) s = .next (s.put (s.dev.onDie die fun x => { x with flip :=
        { (s.dev.die die).flip with status := St.INT_FLIP_REFUSED } })))) ∧
  (∀ (port die : Nat) (value : BitVec 32) (s : State), s.dev.portUp port = true → s.dev.uncOpen die = true → bit value.toNat 1 = true →
    exec (.disarm port die value) s = .next (s.put (s.dev.onDie die fun x => { x with flip :=
      { x.flip with armed := false, remaining := 0 } }))) ∧
  (∀ (port die u : Nat) (value : BitVec 32) (s : State), u < 18 → s.dev.uncOpen die = true →
    bit value.toNat 0 = true → bit value.toNat 2 = false → (s.dev.frk die u).state ≠ 1 →
    let f := s.dev.frk die u
    exec (.frkStart port die u value true) s = .next (s.put (({ s.dev with free := s.dev.free + 1 } : Dev).onFrk die u fun _ => { f with
      compare := bit value.toNat 1
      state := 1
      matched := false
      saved := false
      error := 0
      work := some (f.list, if bit value.toNat 1 then some f.expect else none) }))) ∧
  (∀ (port die u : Nat) (value : BitVec 32) (s : State), u < 18 → s.dev.uncOpen die = true →
    bit value.toNat 2 = true → (s.dev.frk die u).state = 1 →
    let f := s.dev.frk die u
    exec (.frkAbort port die u value true) s = .next (s.put (({ s.dev with free := s.dev.free + 1 } : Dev).onFrk die u fun _ => { f with
      compare := bit value.toNat 1
      state := 0
      result := Config.freeWord s.dev.free
      work := none })))

/-- ISOLATE, MBUS_CLEAR, SCL_LOW_TIMEOUT and ISOLATE_RETRY (R608, R609, R627, R628); the places of bus number and levels in DETAIL are the
model's. -/
def Obligations.ManagementBusClears : Prop :=
  (∀ (port die b : Nat) (value : BitVec 32) (s : State), b < 4 → s.dev.uncOpen die = true → bit value.toNat 8 = false →
    exec (.isolate port die b value true) s = .next (s.put (s.dev.onBus die b fun x => x.control b value.toNat))) ∧
  (∀ (port die b good : Nat) (sda scl : Bool) (value : BitVec 32) (s : State), b < 4 → die < 8 → s.dev.uncOpen die = true →
    (s.dev.die die).mbus.length = 4 → s.dev.dies.length = 8 → bit value.toNat 8 = true → bit value.toNat 0 = true →
    let x := (s.dev.bus die b).control b value.toNat
    let d := s.dev.onBus die b fun _ => x
    (1 ≤ good → good ≤ x.tries → exec (.mbusClear port die b value true good sda scl) s = .next (s.put (d.onBus die b fun _ =>
      { x with attempts := BitVec.ofNat 3 good, clears := x.clears + 1, clearDue := false, sda := true, scl := true }))) ∧
    (good = 0 ∨ x.tries < good → exec (.mbusClear port die b value true good sda scl) s =
      .next (s.put ((d.onBus die b fun _ => x.cleared good sda scl s.dev.now).report St.FLT_MBUS_STUCK { kind := 0x10, die := die }
        (BitVec.ofNat 64 (b + 256 * b2n sda + 512 * b2n scl)))) ∧
      (x.cleared good sda scl s.dev.now).stuck = true ∧
      (x.cleared good sda scl s.dev.now).autoIsolated = (x.autoIsolated || x.autoIsolate))) ∧
  (∀ (die b good : Nat) (sda scl : Bool) (s : State), s.dev.busRuns die b = true → s.dev.busIsolated die b = false →
    exec (.sclLowTimeout die b good sda scl) s = .next (s.put ((s.dev.until (s.dev.now + 35000000)).busClear die b good sda scl))) ∧
  (∀ (die b good : Nat) (sda scl : Bool) (s : State), s.dev.busRuns die b = true → (s.dev.bus die b).autoIsolated = true →
    (s.dev.bus die b).isolateTries < 10 → (s.dev.bus die b).clears_ good = true →
    let d := s.dev.until ((s.dev.bus die b).isolatedAt + 60 * second)
    exec (.isolateRetry die b good sda scl) s = .next (s.put ((d.onBus die b fun x =>
      { x.cleared good sda scl d.now with autoIsolated := false, isolateTries := 0 }).report St.FLT_MBUS_RECOVERED
        { kind := 0x10, die := die } (BitVec.ofNat 64 (b + 256 + 512)))))

/-- REGISTER_WRITE, BAD_ACCESS and LOW_HALF_READ (R595 to R598, R607, R610). -/
def Obligations.HostRegisterAccesses : Prop :=
  (∀ (port k : Nat) (value : BitVec 64) (s : State), s.dev.portUp port = true → k < 4 → s.dev.uncOpen (2 * k) = true →
    s.dev.pgh.length = 128 →
    (∃ t, exec (.registerWrite port (2 * k * 2 ^ 25 + 0x70018) 4 value) s = .next t ∧
      (∀ n < 32, t.dev.hole (32 * k + n) = { s.dev.hole (32 * k + n) with irqEn := bit value.toNat n }) ∧
      ∀ p < 128, p / 32 ≠ k → t.dev.hole p = s.dev.hole p) ∧
    (∃ t, exec (.registerWrite port (2 * k * 2 ^ 25 + 0x70010) 4 value) s = .next t ∧
      (∀ n < 32, t.dev.hole (32 * k + n) =
        { s.dev.hole (32 * k + n) with done := (s.dev.hole (32 * k + n)).done && !bit value.toNat n }) ∧
      ∀ p < 128, p / 32 ≠ k → t.dev.hole p = s.dev.hole p) ∧
    exec (.registerWrite port (2 * k * 2 ^ 25 + 0x70020) 4 value) s = .next (s.put { s.dev with
      pghPorts := s.dev.pghPorts.modify k fun x => { x with vector := value.setWidth 11 } })) ∧
  (∀ (port die : Nat) (value : BitVec 64) (s : State), s.dev.portUp port = true → die < 8 →
    exec (.registerWrite port (die * 2 ^ 25 + 0x20) 4 value) s = .next (s.put (s.dev.onDie die fun x =>
      { x with bad := { x.bad with count := satSucc x.bad.count } }))) ∧
  (∀ (port : Nat) (value : BitVec 64) (s : State), s.dev.portUp port = true → s.dev.uncOpen 0 = true →
    exec (.registerWrite port 0x50030 4 value) s = .next (s.put { s.dev with
      clk := { s.dev.clk with nextCtl := some (bit value.toNat 0, bit value.toNat 1) } })) ∧
  (∀ (port offset size : Nat) (write : Bool) (value : BitVec 64) (s : State), s.dev.portUp port = true → offset < 2 ^ 28 →
    improper offset size = true →
    let b := fun (x : Die) => if x.bad.valid then { x.bad with count := satSucc x.bad.count }
      else { x.bad with count := satSucc x.bad.count, offset := BitVec.ofNat 25 (offset % 2 ^ 25), write := write, port := BitVec.ofNat 2 port, valid := true }
    exec (.badAccess port offset size write) s = .next (s.put (s.dev.onDie (offset / 2 ^ 25) fun x => { x with bad := b x })) ∧
    (write = true → exec (.registerWrite port offset size value) s = exec (.badAccess port offset size write) s)) ∧
  (∀ (port offset : Nat) (v : BitVec 64) (s : State), s.dev.portUp port = true → offset < 2 ^ 28 →
    s.dev.reg64 (offset / 2 ^ 25) (offset % 2 ^ 25 / 2 ^ 16) (offset % 2 ^ 16) = some v →
    s.dev.blockOn (offset / 2 ^ 25) (offset % 2 ^ 25 / 2 ^ 16) = true →
    exec (.lowHalfRead port offset) s = .next (s.put { s.dev with
      pghPorts := s.dev.pghPorts.modify port fun x => { x with latch := some (offset, (v >>> 32).setWidth 32) } }))

/-- COLD_RESET, BROWNOUT, PIN_RESET, SOFT_RESET, START_TIMEOUT, FATAL_RESTART and GLITCH_RESTART (R545, R549, R553, R554, R571, R600,
R618). -/
def Obligations.ResetSources : Prop :=
  (∀ s : State, exec .coldReset s = .next (s.put (s.dev.packageReset 1 0 0))) ∧
  (∀ (rail : Nat) (s : State), rail = 0 ∨ (rail < 8 ∧ s.dev.seqs.powerFailAt = none) →
    exec (.brownout rail) s = .next (s.put (s.dev.packageReset 1 0 0))) ∧
  (∀ s : State, (s.dev.powerFailing = false → exec .pinReset s = .next (s.put (s.dev.packageReset 2 0 0))) ∧
    (s.dev.powerFailing = true → exec .pinReset s = .next (s.put s.dev))) ∧
  (∀ (kind t : Nat) (s : State), s.dev.seqs.softDue = some (kind, t) → s.dev.seqs.powerFailAt = none →
    exec .softReset s = .next (s.put ((s.dev.until t).flushStore.packageReset 3 kind 0))) ∧
  (∀ (t : Nat) (s : State), s.dev.seqs.startEnds = some t →
    exec .startTimeout s = .next (s.put ((s.dev.until t).packageReset 4 0 0x08))) ∧
  (∀ (t x : Nat) (s : State), s.dev.seqs.fatalAt = some t → s.dev.seqs.pkgSafe = true → s.dev.rst.autoRestart = true →
    (s.dev.seqs.dumpAt = none → exec .fatalRestart s = .next (s.put ((s.dev.until (t + 5000000000)).packageReset 4 0 0))) ∧
    (s.dev.seqs.dumpAt = some x →
      exec .fatalRestart s = .next (s.put ((s.dev.until (min (x + 1000000000) (t + 5000000000))).packageReset 4 0 0)))) ∧
  (∀ (t : Nat) (s : State), s.dev.seqs.powerFailAt = some t →
    exec .glitchRestart s = .next (s.put ((s.dev.until (t + 10000000)).packageReset 4 0 0x0A)))

/-- What every package-wide reset leaves (R55, R521, R522, R545, R602, R606). -/
def Obligations.PackageResetLeaves : Prop :=
  ∀ (source kind status : Nat) (s : State), Sound s →
    let t := s.put (s.dev.packageReset source kind status)
    t.dev.start = .starting ∧ t.dev.seqs.step = 0 ∧ t.dev.bkp = s.dev.bkp ∧
    (∀ a < 2 ^ 39, cellsGet t.mem.dram a = 0) ∧
    (∀ j ∈ t.dev.jobs, (j.state = .sealed_ ∨ j.state = .lost) ∧ j.ranks = []) ∧
    t.dev.jobs.map (·.handle) = s.dev.jobs.map (·.handle) ∧
    (∀ i < s.dev.jobs.length, ((s.dev.jobs[i]?.map (·.state) = some .sealed_) ↔ (t.dev.jobs[i]?.map (·.state) = some .sealed_))) ∧
    t.dev.routes = [] ∧ t.dev.vocabs = [] ∧ t.dev.grammars = [] ∧ t.dev.streams = [] ∧ t.dev.lbx.queues = [] ∧
    (source ≠ 1 → ∀ i < s.dev.dies.length, (t.dev.fc i).seqNext = (s.dev.fc i).seqNext ∧
      (t.dev.fc i).alertAcked = (s.dev.fc i).alertAcked ∧ (t.dev.fc i).first = (s.dev.fc i).first ∧
      (t.dev.fc i).severities = (s.dev.fc i).severities) ∧
    (source = 1 → ∀ i < s.dev.dies.length, (t.dev.fc i).seqNext = 1 ∧ (t.dev.fc i).alertAcked = 0 ∧ (t.dev.fc i).first = none ∧
      (t.dev.fc i).severities = [])

/-- START_UP into recovery mode, PARTITION_READY, START_READY and POWER_FAIL (R434, R550, R551, R552, R570, R602). -/
def Obligations.StartSequence : Prop :=
  (∀ s : State, s.dev.start = .starting → s.dev.seqs.step = 0 → s.dev.seqs.powerFailAt = none → s.dev.env.backupLost = false →
    (s.dev.bkp.recoveryReq = true ∨ s.dev.bkp.recoveryAt ≤ s.dev.bkp.failedStarts) →
    ∃ t, exec .startUp s = .next t ∧ t.dev.start = .recovery ∧ t.dev.rst.recovery = true ∧ t.dev.seqs.startEnds = none ∧
      (∀ k, 1 ≤ k → t.dev.pins.trained.getD k false = false)) ∧
  (∀ s : State, s.dev.start = .starting → s.dev.seqs.step = 0 → s.dev.seqs.powerFailAt = none → s.dev.env.backupLost = false →
    s.dev.bkp.recoveryReq = false → s.dev.bkp.failedStarts < s.dev.bkp.recoveryAt → s.dev.nor.selected.isSome = true →
    s.dev.noImage = false →
    ∃ t, exec .startUp s = .next t ∧ t.dev.start = .starting ∧ t.dev.seqs.step = 9 ∧ t.dev.store.started = true) ∧
  (∀ (p : Nat) (s : State), p < 8 → s.dev.store.started = true → (s.dev.part p).ready = false → (s.dev.part p).unserved = false →
    s.dev.dieUp (s.dev.part p).die = true → (s.dev.part p).broken = false → (∀ y ∈ s.dev.store.secures, partitionOf y.id ≠ p) →
    exec (.partitionReady p) s =
      .next (s.put (s.dev.onPart p fun y => { y with ready := true, broken := false, checkpointAt := s.dev.now }))) ∧
  (∀ s : State, s.dev.start = .starting → s.dev.store.started = true → (∀ x ∈ s.dev.store.parts, x.ready = true ∨ x.unserved = true) →
    let d := ({ s.dev with start := .ready, seqs := { s.dev.seqs with step := 10 } } : Dev).journalCopies
    (d.seqs.startWaiters = [] → exec .startReady s = .next (s.put d)) ∧
    (∀ p, d.seqs.startWaiters = [p] →
      exec .startReady s = .next (s.put (({ d with seqs := { d.seqs with startWaiters := [] } } : Dev).beginService.answer p {})))) ∧
  (∀ s : State, s.dev.seqs.powerFailAt = none →
    ∃ t, exec .powerFail s = .next t ∧ t.dev.bkp = { s.dev.bkp with powerFail := true, pfTime := s.dev.bkpClock } ∧
      t.dev.seqs.powerFailAt = some s.dev.now ∧ t.dev.start = .starting)

/-- DIE_RESET, PORT_RESET and PERST_N_HIGH (R545, R547, R548, R549, R611). -/
def Obligations.DieAndPortResets : Prop :=
  (∀ (die : Nat) (s : State), Sound s → s.dev.dies.length = 8 → die < 8 → (s.dev.die die).safe = true → (s.dev.die die).noRestart = false →
    (s.dev.die die).retired = false → s.dev.rst.dieRestart = true → s.dev.seqs.pkgSafe = false → 6 ≤ s.dev.seqs.step →
    ∃ t, exec (.dieReset die) s = .next t ∧ (t.dev.die die).safe = false ∧ (t.dev.die die).idle = true ∧
      (t.dev.fc die).seqNext = (s.dev.fc die).seqNext ∧ (t.dev.fc die).severities = (s.dev.fc die).severities ∧
      (∀ i, i ≠ die → t.dev.die i = s.dev.die i) ∧
      (∀ a, a / 2 ^ 36 = die → cellsGet t.mem.dram a = 0) ∧
      (∀ a, a / 2 ^ 36 ≠ die → cellsGet t.mem.dram a = cellsGet s.mem.dram a) ∧ t.mem.host = s.mem.host) ∧
  (∀ (port : Nat) (s : State), port < 4 → s.dev.lbx.queues = [] → s.dev.pgh.length = 128 → s.dev.pins.trained.length = 4 →
    ∃ t, exec (.portReset port) s = .next t ∧ t.dev.portUp port = false ∧
      (∀ p < 128, p / 32 = port → t.dev.hole p =
        { s.dev.hole p with done := false, irqEn := false, lost := (s.dev.hole p).lost || (s.dev.hole p).busy }) ∧
      (∀ p < 128, p / 32 ≠ port → t.dev.hole p = s.dev.hole p) ∧ t.dev.pghPorts = s.dev.pghPorts ∧ t.dev.jobs = s.dev.jobs) ∧
  (∀ (port : Nat) (s : State), port < 4 → 3 ≤ s.dev.seqs.step → s.dev.start ≠ .recovery → s.dev.dieUp (2 * port) = true →
    s.dev.pins.trained.length = 4 →
    ∃ t, exec (.perstNHigh port) s = .next t ∧ t.dev.portUp port = true ∧ t.dev.pins.perst = s.dev.pins.perst.set port false)

/-- SERVICE_BUTTON_PRESS, RELEASE and HOLD, PTP_LOCK_LOSS, PTP_LOCK_GAIN and PPS_IN_EDGE (R30, R31, R62, R557, R573, R620). -/
def Obligations.ButtonAndClockEvents : Prop :=
  (∀ s : State, s.dev.seqs.powerFailAt = none → s.dev.seqs.svcPressedAt = none →
    exec .serviceButtonPress s = .next (s.put { s.dev with seqs := { s.dev.seqs with svcPressedAt := some s.dev.now } })) ∧
  (∀ (t : Nat) (s : State), s.dev.seqs.svcPressedAt = some t → s.dev.start = .normal → s.dev.now < t + 5000000000 →
    let d := { s.dev with seqs := { s.dev.seqs with svcPressedAt := none } }
    (∀ j, (d.jobs.filter fun j => j.state == .running) = [j] → exec .serviceButtonRelease s =
      .next (s.put (({ d with free := d.free + 1 } : Dev).beginSeal j 0 (Config.freeNonce d.free).toNat none))) ∧
    ((∀ j ∈ d.jobs, j.state ≠ .running) → exec .serviceButtonRelease s = .next (s.put d))) ∧
  (∀ (t : Nat) (s : State), s.dev.seqs.svcPressedAt = some t →
    let d := s.dev.until (t + 5000000000)
    exec .serviceButtonHold s = .next (s.put { d with
      bkp := { d.bkp with recoveryReq := true }
      seqs := { d.seqs with svcPressedAt := none, softDue := some (3, d.now) } })) ∧
  (∀ (port : Nat) (s : State), port = s.dev.clk.portInUse → s.dev.clk.locked.getD port false = true →
    ({ s.dev.clk with locked := s.dev.clk.locked.set port false } : Clk).otherLocked = true →
    exec (.ptpLockLoss port) s = .next (s.put { s.dev with clk := { s.dev.clk with
      locked := s.dev.clk.locked.set port false
      switchDue := true } })) ∧
  (∀ (port : Nat) (s : State), port < 16 → s.dev.ethUp port = true → port = s.dev.clk.portInUse →
    exec (.ptpLockGain port) s = .next (s.put { s.dev with
      clk := { s.dev.clk with locked := s.dev.clk.locked.set port true, holdover := false, switchDue := false }
      pins := { s.dev.pins with ppsOut := true }
      bkp := { s.dev.bkp with clockValid := true } })) ∧
  (∀ s : State, 3 ≤ s.dev.seqs.step →
    exec .ppsInEdge s = .next (s.put { s.dev with pins := { s.dev.pins with ppsInAt := s.dev.now / 8 * 8 } }))

/-- TICK_BOUNDARY, TICK_CHANGE, FORMATION_POINT and SPILL_DEADLINE (R25 to R31, R125 to R131, R563, R607). -/
def Obligations.TickEvents : Prop :=
  (∀ (die : Nat) (s : State), s.dev.dieUp die = true →
    let after := fun (d : Dev) =>
      let d := ({ d with clk := { d.clk with dieTick := d.clk.dieTick.modify die (· + 1) } } : Dev).dieBoundary die
      d.jobs.foldl (fun (d : Dev) j => d.releaseOlds j.handle) d
    (s.dev.clk.tick ≤ s.dev.clk.dieTick.getD die 0 → exec (.tickBoundary die) s = .next (s.put (after s.dev.newTick))) ∧
    (s.dev.clk.dieTick.getD die 0 < s.dev.clk.tick → exec (.tickBoundary die) s = .next (s.put (after s.dev)))) ∧
  (∀ d : Dev, d.newTick.clk.tick = d.clk.tick + 1 ∧ d.changeTick.clk.tickStart + d.changeTick.tickNs ≤ d.newTick.clk.tickStart ∧
    d.newTick.clk.tickStart ≤ d.newTick.now ∧ d.newTick.clk.nextCtl = none ∧ d.newTick.pwr.nextCap = none ∧ d.newTick.pwr.nextMhz = none ∧
    (∀ w, d.pwr.nextCap = some w → d.newTick.pwr.setCap = w) ∧
    (∀ a b, d.clk.nextCtl = some (a, b) → d.newTick.clk.tickEn = a ∧ d.newTick.clk.ppsEn = b)) ∧
  (∀ (t per ph p1 p2 : Nat) (s : State), s.dev.clk.pending = some (t, per, ph, p1, p2) → t ≤ s.dev.clk.tick →
    exec .tickChange s = .next (s.put (({ s.dev with clk := { s.dev.clk with
      period := per, phase := ph, primary := p1, secondary := p2, onSecondary := false, pending := none, master := p1 / 2 } } : Dev).revertGates
        (per * 10)))) ∧
  (∀ (die : Nat) (s : State), s.dev.dieUp die = true → (s.dev.die die).lastFormation < s.dev.clk.dieTick.getD die 0 + 1 →
    let tick := s.dev.clk.dieTick.getD die 0
    let d := (s.dev.until (s.dev.clk.tickStart + s.dev.tickNs - min (s.dev.tickNs / 4) 100000)).onDie die fun x =>
      { x with lastFormation := tick + 1, spill := [] }
    let d := (d.dieCores die).foldl (fun (d : Dev) c => d.onCore c fun x => { x with budget := d.budgets c }) d
    let d := (d.jobs.filter Job.delivers).foldl (fun (d : Dev) (j : Job) =>
      ((j.ranksOn die).filter Rank.admits).foldl (fun (d : Dev) (r : Rank) => d.bufferRank j r) d) d
    let d := (d.candidates die tick).foldl (fun (d : Dev) x => d.offer die x.item) d
    exec (.formationPoint die) s = .next (s.put (d.onDie die fun x =>
      { x with unusedBudget := ((d.dieCores die).map fun c => (d.core c).budget.sum).sum }))) ∧
  (∀ (die : Nat) (s : State), s.dev.dieUp die = true → (s.dev.die die).lastSpill < (s.dev.die die).lastFormation → die < s.dev.dies.length →
    ∃ t, exec (.spillDeadline die) s = .next t ∧ (t.dev.die die).spill = [] ∧
      (t.dev.die die).lastSpill = (s.dev.die die).lastFormation)

/-- DEV_STAGE_CONFIG, PREPARE_REPORT, PREPARE_TIMEOUT, DEV_COMMIT_CONFIG and CONFIG_COMMIT (R134 to R138, R588). -/
def Obligations.ConfigurationChanges : Prop :=
  (∀ (p : Nat) (frame : Bytes) (j : Job) (s : State), devStageConfigOp.Accepts p frame s.dev →
    let d := s.dev.rung p frame
    let b := devStageConfigOp.bodyOf p frame s.dev
    d.job (fld b 0 4) = some j → d.stageRefusal j b = none →
    let x : Staged := { id := fld b 4 4, mask := fld b 8 4, conf := stagedConf d j b, waiting := d.stageUnits j, ph := some p, at_ := d.now }
    exec (.devStageConfig p frame) s = .next (s.put (d.onJob j.handle fun j' => { j' with staged := some x }))) ∧
  (∀ (job unit p : Nat) (j : Job) (x : Staged) (s : State), s.dev.job job = some j → j.staged = some x → x.ph = some p → unit ∈ x.waiting →
    let withdrawn := s.dev.onJob j.handle fun j => { j with
      staged := none, lastStageStatus := St.RTE_PREPARE_FAILED, lastStageId := x.id }
    (x.commit = none → exec (.prepareReport job unit false) s = .next (s.put (withdrawn.answer p { status := St.RTE_PREPARE_FAILED }))) ∧
    let sizes := if bit x.mask 2 then (s.dev.windows j x.conf.lookahead).getD [] else []
    let prepared : Staged := { x with waiting := [], ph := none, sizes := sizes }
    (s.dev.prepareRefusal j x = none → (∀ u ∈ x.waiting, u = unit) → exec (.prepareReport job unit true) s =
      .next (s.put ((s.dev.onJob j.handle fun j' => { j' with
        staged := some prepared
        lastStageStatus := St.SUCCESS }).answer p { body := le 4 j.stamp })))) ∧
  (∀ (job p : Nat) (j : Job) (x : Staged) (s : State), s.dev.job job = some j → j.staged = some x → x.ph = some p → x.commit = none →
    exec (.prepareTimeout job) s = .next (s.put (((s.dev.until (x.at_ + 500000000)).onJob j.handle fun j => { j with
      staged := none, lastStageStatus := St.RTE_PREPARE_FAILED, lastStageId := x.id }).answer p { status := St.RTE_PREPARE_FAILED }))) ∧
  (∀ (p : Nat) (frame : Bytes) (j : Job) (x : Staged) (s : State), devCommitConfigOp.Accepts p frame s.dev →
    let d := s.dev.rung p frame
    let b := devCommitConfigOp.bodyOf p frame s.dev
    d.job (fld b 0 4) = some j → j.staged = some x → d.commitRefusal j b = none →
    let committing : Staged := { x with commit := some (fld b 8 8, fld b 16 8, p) }
    exec (.devCommitConfig p frame) s = .next (s.put (d.onJob j.handle fun j' => { j' with staged := some committing }))) ∧
  (∀ (job tick cur p : Nat) (j : Job) (x : Staged) (s : State), s.dev.job job = some j → j.staged = some x → x.commit = some (tick, cur, p) →
    tick ≤ s.dev.clk.tick →
    exec (.configCommit job) s = .next (s.put (((s.dev.commit j x cur).releaseOlds job).answer p { body := le 4 (j.stamp + 1) })))

/-- What DEV_STAGE_CONFIG and DEV_COMMIT_CONFIG refuse (R134, R137, R588). -/
def Obligations.StagedChangeRefusals : Prop :=
  (∀ (p : Nat) (frame : Bytes) (j : Job) (s : State), devStageConfigOp.Accepts p frame s.dev →
    let d := s.dev.rung p frame
    let b := devStageConfigOp.bodyOf p frame s.dev
    d.job (fld b 0 4) = some j → j.state = .running → j.stamp ≠ 0xFFFFFFFF → j.staged = none → j.oldLive = false →
    (fld b 8 4 = 0 → exec (.devStageConfig p frame) s = .next (s.put (d.answer p { status := St.PGH_FIELD }))) ∧
    (bits (fld b 8 4) 5 3 ≠ 0 → exec (.devStageConfig p frame) s = .next (s.put (d.answer p { status := St.RTE_STAGE_FIELD }))) ∧
    (bits (fld b 8 4) 5 3 = 0 → bits (fld b 8 4) 11 6 ≠ 0 →
      exec (.devStageConfig p frame) s = .next (s.put (d.answer p { status := St.SRT_SHARD_FIXED })))) ∧
  (∀ (p : Nat) (frame : Bytes) (j : Job) (x : Staged) (s : State), devCommitConfigOp.Accepts p frame s.dev →
    let d := s.dev.rung p frame
    let b := devCommitConfigOp.bodyOf p frame s.dev
    d.job (fld b 0 4) = some j → j.state = .running → (fld b 16 8 ≠ 0 ∨ j.express = true) → (fld b 16 8 = 0 ∨ fld b 16 8 % 2 ^ 48 < j.k) →
    j.staged = some x → x.ph = none → x.commit = none →
    (x.id ≠ fld b 4 4 → exec (.devCommitConfig p frame) s = .next (s.put (d.answer p { status := St.RTE_NO_STAGED }))) ∧
    (x.id = fld b 4 4 → (fld b 8 8 < d.clk.tick + 2 ∨ 10000000000 < (fld b 8 8 - d.clk.tick) * d.clk.period * 10) →
      exec (.devCommitConfig p frame) s = .next (s.put (d.answer p { status := St.RTE_COMMIT_RANGE }))))

/-- DELIVERY_TICK, EXPRESS_CUTOFF, FINAL_WRITE_ACK and PR_HOLD_EXPIRY (R56, R102, R103, R304, R308, R318, R322). -/
def Obligations.DeliveryEvents : Prop :=
  (∀ (die : Nat) (s : State), s.dev.dieUp die = true → (s.dev.die die).lastDelivery < s.dev.clk.dieTick.getD die 0 →
    let tick := s.dev.clk.dieTick.getD die 0
    exec (.deliveryTick die) s = .next (s.put ((s.dev.jobs.filter fun j => j.isDelivery tick).foldl (fun (d : Dev) (j : Job) =>
      (j.ranksOn die).foldl (fun (d : Dev) (r : Rank) => d.deliverRank s.mem j tick r) d)
      (s.dev.onDie die fun x => { x with lastDelivery := tick })))) ∧
  (∀ (d : Dev) (j : Job) (r : Rank) (rank tick : Nat), d.rank j.handle rank = some r → r.nextStep < j.mapEnd → r.dormant = false →
    r.starved = false →
    (r.complete j.b = none → d.deliverNext j rank tick = d.onSort j.handle rank fun c => { c with slips := c.slips + 1 }) ∧
    (∀ es, r.complete j.b = some es → j.epochOpen r.nextStep tick = true → r.held.length < r.prParcels →
      d.deliverNext j rank tick = d.releaseParcel j r es (tick - j.t0))) ∧
  (∀ (die : Nat) (s : State), s.dev.dieUp die = true → (s.dev.die die).lastCutoff < s.dev.clk.dieTick.getD die 0 →
    let tick := s.dev.clk.dieTick.getD die 0
    exec (.expressCutoff die) s = .next (s.put ((s.dev.jobs.filter fun j => j.express && j.isDelivery (tick + 1)).foldl (fun (d : Dev) (j : Job) =>
      (j.ranksOn die).foldl (fun (d : Dev) (r : Rank) => d.onRank j.handle r.rank fun r => r.cutoff j) d)
      (s.dev.onDie die fun x => { x with lastCutoff := tick })))) ∧
  (∀ (job rank step : Nat) (j : Job) (r : Rank) (p : Parcel) (s : State), s.dev.job job = some j → s.dev.rank job rank = some r →
    (r.parcels.find? fun x => x.step == step && x.acked) = some p → step = r.cursor → j.delivers = true → j.stopStep = none →
    exec (.finalWriteAck job rank step) s = .next (s.put ((s.dev.freeUse r.die (.parcel job rank step)).onRank job rank fun r => { r with
      cursor := p.step + 1
      parcels := r.parcels.filter fun x => x.step != p.step
      parcel := { r.parcel with delivered := r.parcel.delivered + 1, slotsFailed := r.parcel.slotsFailed + p.slotsFailed }
      runDepSlots := r.runDepSlots + p.runDep
      parcelCount := r.parcelCount + 1
      parcelSum := r.parcelSum + deliveryTerm "PSUM" r.rank p.step p.crc
      stepLow := some ((r.stepLow.map (min · p.step)).getD p.step)
      stepHigh := max r.stepHigh p.step }))) ∧
  (∀ (job rank t : Nat) (j : Job) (r : Rank) (s : State), s.dev.job job = some j → s.dev.rank job rank = some r →
    (r.held.head?).bind (·.heldSince) = some t →
    ∃ t', exec (.prHoldExpiry job rank) s = .next t' ∧ s.dev.now ≤ t'.dev.now ∧
      ∀ r', t'.dev.rank job rank = some r' → r'.dormant = true ∧ r'.held = [])

/-- R76: the permutation is a bijection of [0, N), and is the walk of R80 over feistel. -/
def Obligations.PermutationIsBijection : Prop :=
  ∀ e seed n : Nat, 1 ≤ n → n ≤ 2 ^ 48 →
    (∀ q < n, permute q e seed n < n) ∧
    (∀ q < n, ∀ r < n, permute q e seed n = permute r e seed n → q = r) ∧
    (∀ i < n, ∃ q < n, permute q e seed n = i) ∧
    (∀ q < n, ∃ k : Nat, permute q e seed n = Nat.repeat (fun y => feistel y e seed (domainBits n)) (k + 1) q ∧
      ∀ j < k, n ≤ Nat.repeat (fun y => feistel y e seed (domainBits n)) (j + 1) q)

/-- Positions and cursors (R69, R71, R72, R75). -/
def Obligations.PositionsAndCursors : Prop :=
  (∀ n w b : Nat, 1 ≤ w → 1 ≤ b →
    batches n w b * b * w ≤ n ∧
    (∀ r < w, ∀ k < batches n w b, ∀ j < b, position w b r k j < batches n w b * b * w) ∧
    (∀ r < w, ∀ r' < w, ∀ k k' j j' : Nat, j < b → j' < b → position w b r k j = position w b r' k' j' → r = r' ∧ k = k' ∧ j = j') ∧
    (∀ q < batches n w b * b * w, ∃ r < w, ∃ k < batches n w b, ∃ j < b, position w b r k j = q)) ∧
  (∀ k step : Nat, 1 ≤ k → k ≤ 2 ^ 48 → step / k < 65536 → stepOf k (cursorOf k step) = step)

/-- R70. -/
def Obligations.EmptyShardCreatesNothing : Prop :=
  ∀ (p : Nat) (frame : Bytes) (x : Dataset) (s : State), Sound s → jobCreateOp.Accepts p frame s.dev →
  let d := s.dev.rung p frame
  let b := jobCreateOp.bodyOf p frame s.dev
  d.dataset (fld b 8 4) = some x → x.closed = true → fld b 12 1 ≤ 1 → (fld b 13 1 ≤ 64 ∨ fld b 13 1 = 0xFF) → fld b 14 2 ≠ 0 →
  1 ≤ fld b 24 4 → fld b 24 4 ≤ 4194304 → 1 ≤ fld b 28 4 → fld b 28 4 ≤ 65536 →
  (x.segs.map (·.1)).sum < fld b 28 4 * fld b 24 4 →
  exec (.jobCreate p frame) s = .next (s.put (d.answer p { status := St.SRT_SHARD_EMPTY })) ∧
  (∀ t, exec (.jobCreate p frame) s = .next t → t.dev.jobs = s.dev.jobs ∧ t.dev.jobGens = s.dev.jobGens ∧ t.dev.datasets = s.dev.datasets ∧
    t.dev.dies = s.dev.dies ∧ t.mem = s.mem)

/-- DSP_SET_NODE, DSP_SET_METER and DSP_SET_GATES complete with the effects of R358, R363 and R366. -/
def Obligations.DispatchSettingsCommands : Prop :=
  (∀ (p : Nat) (frame : Bytes) (s : State), dspSetNodeOp.Accepts p frame s.dev →
    let d := s.dev.rung p frame
    let b := dspSetNodeOp.bodyOf p frame s.dev
    let key := levelKey (fld b 0 1) (fld b 4 4) (fld b 8 4)
    1 ≤ fld b 0 1 → fld b 0 1 ≤ 3 → fld b 1 1 ≤ 15 → 1 ≤ fld b 2 1 → fld b 2 1 ≤ 254 → fld b 12 4 ≤ 800000 → 4325 ≤ fld b 16 4 →
    fld b 16 4 ≤ 16777216 → ((d.port (fld b 1 1)).node key).isSome = true →
    exec (.dspSetNode p frame) s = .next (s.put ((d.onPort (fld b 1 1) fun x =>
      x.onNode key fun n => { n with next := some (fld b 2 1, fld b 12 4, fld b 16 4) }).answer p {}))) ∧
  (∀ (p : Nat) (frame : Bytes) (s : State), dspSetMeterOp.Accepts p frame s.dev →
    let d := s.dev.rung p frame
    let b := dspSetMeterOp.bodyOf p frame s.dev
    ∀ (x : Binding), d.bindingOf b = some x →
    let ms := (d.die x.die).meters
    (∀ i, fld b 0 4 = 0 → meterValuesOk b = true → (∀ m ∈ ms, m.binding ≠ x) → i < 4096 → (∀ m ∈ ms, m.number ≠ i + 1) →
      (∀ k < i, ∃ m ∈ ms, m.number = k + 1) →
      let m : Meter := {
        number := i + 1, byConn := x.byConn, qpn := x.qpn, port := x.port, prio := x.prio, cir := fld b 12 4, pir := fld b 16 4,
        cbs := fld b 20 4, pbs := fld b 24 4, yellowMarks := bit (fld b 7 1) 0, redMarks := bit (fld b 7 1) 1,
        tc := fld b 20 4 * 65536, tp := fld b 24 4 * 65536, refilled := s.dev.now }
      exec (.dspSetMeter p frame) s =
        .next (s.put ((d.onDie x.die fun y => { y with meters := y.meters ++ [m] }).answer p { body := le 4 (i + 1) }))) ∧
    (∀ m, fld b 0 4 = 0xFFFFFFFF → ms.find? (fun m => m.binding == x) = some m →
      exec (.dspSetMeter p frame) s = .next (s.put ((d.onDie x.die fun y =>
        { y with meters := y.meters.filter fun z => z.number != m.number }).answer p { body := le 4 m.number }))) ∧
    (∀ m, 1 ≤ fld b 0 4 → fld b 0 4 ≤ 4096 → meterValuesOk b = true → ms.find? (fun m => m.number == fld b 0 4) = some m →
      m.binding = x → ∃ t y, exec (.dspSetMeter p frame) s = .next (s.put (t.answer p { body := le 4 (fld b 0 4) })) ∧
        t = d.onDie x.die (fun z => { z with meters := updWhere z.meters (fun w => w.number == fld b 0 4) fun _ => y }) ∧
        y.binding = x ∧ y.number = m.number ∧ y.cir = fld b 12 4 ∧ y.pir = fld b 16 4 ∧ y.cbs = fld b 20 4 ∧ y.pbs = fld b 24 4 ∧
        y.tc ≤ fld b 20 4 * 65536 ∧ y.tp ≤ fld b 24 4 * 65536 ∧ y.green = m.green ∧ y.yellow = m.yellow ∧ y.red = m.red)) ∧
  (∀ (p : Nat) (frame : Bytes) (s : State), dspSetGatesOp.Accepts p frame s.dev →
    let d := s.dev.rung p frame
    let b := dspSetGatesOp.bodyOf p frame s.dev
    gatesWellFormed b = true → windowsOk (d.tickLenAt (fld b 8 8)) (gatesOf b) = true → s.dev.clk.tick + 2 ≤ fld b 8 8 →
    exec (.dspSetGates p frame) s =
      .next (s.put ((d.onPort (fld b 0 1) fun x => { x with nextGates := some (fld b 8 8, gatesOf b) }).answer p {})))

/-- FRAME_TRANSMIT, INGRESS_FRAME, PAUSE_FRAME, PAUSE_EXPIRY, GATE_ENTRY and GATE_SCHEDULE_CHANGE (R338, R354, R359, R363, R366,
R369). -/
def Obligations.DispatchEvents : Prop :=
  (∀ (port : Nat) (k : Pkt) (s : State), port < 16 → s.dev.ethUp port = true → port < s.dev.ports.length →
    (s.dev.port port).control.find? (fun k => (s.dev.port port).unpaused k.prio) = some k →
    let d := s.dev.until (s.dev.port port).txUntil
    let d := d.onPort port fun p => { p with nodes := p.nodes.map fun n => n.refill d.now }
    exec (.frameTransmit port) s =
      .next (s.put ((d.onPort port fun p => { p with control := p.control.erase k }).sendFrame s.mem port k))) ∧
  (∀ (port len pcp : Nat) (hdr : RoceHdr) (s : State), port < 16 → s.dev.ethUp port = true → port < s.dev.ports.length →
    (exec (.ingressFrame port len pcp hdr true) s = .next (s.put s.dev)) ∧
    (s.dev.isRespPrio port pcp = false → (s.dev.die (port / 2)).meterOf hdr.qpn port pcp = none →
      len ≤ (s.dev.port port).ingressFree →
      exec (.ingressFrame port len pcp hdr false) s = .next (s.put (s.dev.onPort port fun p =>
        ({ p with ingress := p.ingress ++ [{ qpn := hdr.qpn, psn := hdr.psn, len := len, prio := pcp, ce := hdr.ce }] } : EthPort).pause))) ∧
    (∀ m, s.dev.isRespPrio port pcp = false → (s.dev.die (port / 2)).meterOf hdr.qpn port pcp = some m → m.redMarks = false →
      (m.refill s.dev.now).tp < (s.dev.port port).counted len * 65536 →
      exec (.ingressFrame port len pcp hdr false) s = .next (s.put (s.dev.onDie (port / 2) fun y =>
        { y with meters := updWhere y.meters (fun z => z.number == m.number) fun _ => { m.refill s.dev.now with
          red := m.red + (s.dev.port port).counted len
          dropped := m.dropped + 1 } })))) ∧
  (∀ (port prio quanta : Nat) (s : State), port < 16 → prio < 8 → s.dev.ethUp port = true →
    exec (.pauseFrame port prio quanta) s = .next (s.put (s.dev.onPort port fun p => { p with
      pauseRx := p.pauseRx.modify prio (· + 1)
      paused := p.paused.set prio (if quanta = 0 then none else some (s.dev.now + (quanta * 64 + 99) / 100)) }))) ∧
  (∀ (port prio t : Nat) (s : State), (s.dev.port port).paused[prio]? = some (some t) →
    exec (.pauseExpiry port prio) s =
      .next (s.put ((s.dev.until t).onPort port fun p => { p with paused := p.paused.set prio none }))) ∧
  (∀ (port entry : Nat) (e : Nat × Nat) (s : State), ((s.dev.port port).gates.beyond (s.dev.clk.period * 10))[entry]? = some e →
    exec (.gateEntry port entry) s =
      .next (s.put ((s.dev.until (s.dev.clk.tickStart + e.1 * 10)).onPort port fun p => { p with open_ := e.2 }))) ∧
  (∀ (port t mask : Nat) (g : Gates) (s : State), (s.dev.port port).nextGates = some (t, (0, mask) :: g) →
    s.dev.clk.dieTick[port / 2]? = some t →
    exec (.gateScheduleChange port) s =
      .next (s.put (s.dev.onPort port fun p => { p with gates := (0, mask) :: g, nextGates := none, open_ := mask })))

/-- CUR_REGISTER_REGION, CUR_REVOKE_REGION, CUR_CONNECT and CUR_DISCONNECT (R328, R345, R346, R348, R351). -/
def Obligations.CourierCommands : Prop :=
  (∀ (p : Nat) (frame : Bytes) (sc : Scope) (e g : Nat) (s : State), curRegisterRegionOp.Accepts p frame s.dev →
    let d := s.dev.rung p frame
    let b := curRegisterRegionOp.bodyOf p frame s.dev
    let die := fld b 0 1
    d.scopeOf die (fld b 2 1) (fld b 4 4) = some sc → d.dieUp die = true → 1 ≤ fld b 16 8 → fld b 16 8 ≤ 2 ^ 32 →
    fld b 8 8 + fld b 16 8 ≤ 2 ^ 39 → (d.die die).freeEntry s.dev.now = some (e, g) →
    let r : Region := {
      die := die, entry := e, gen := g, base := fld b 8 8, len := fld b 16 8, read := bit (fld b 1 1) 0, write := bit (fld b 1 1) 1,
      atomic := bit (fld b 1 1) 2, scope := sc, owner := if fld b 2 1 = 1 then fld b 4 4 + 1 else 0 }
    exec (.curRegisterRegion p frame) s = .next (s.put ((d.onDie die fun x => { x with
      regions := x.regions ++ [r]
      nextEntry := if x.nextEntry < 131072 then x.nextEntry + 1 else x.nextEntry
      freedEntries := x.freedEntries.filter fun y => y.1 != e }).answer p { body := le 4 (die * 2 ^ 29 + e * 256 + g) }))) ∧
  (∀ (p : Nat) (frame : Bytes) (r : Region) (s : State), curRevokeRegionOp.Accepts p frame s.dev →
    let d := s.dev.rung p frame
    let key := fld (curRevokeRegionOp.bodyOf p frame s.dev) 0 4
    d.region (bits key 31 29) (bits key 28 8) = some r → r.die = bits key 31 29 → r.gen = bits key 7 0 → r.revoking = none →
    r.staging = none →
    let t := d.onRegion r.die r.entry fun _ => { r with gen := (r.gen + 1) % 256, revoking := some (s.dev.now, some p) }
    (d.unfinished r.die r.entry = true → exec (.curRevokeRegion p frame) s = .next (s.put t)) ∧
    (d.unfinished r.die r.entry = false → ∃ u : Dev, exec (.curRevokeRegion p frame) s = .next (s.put (u.answer p {})) ∧
      u.region r.die r.entry = none ∧ u.dies.map (·.conns) = d.dies.map (·.conns) ∧ u.store = d.store ∧ u.jobs = d.jobs)) ∧
  (∀ (p : Nat) (frame : Bytes) (s : State), curConnectOp.Accepts p frame s.dev →
    let d := s.dev.rung p frame
    let b := curConnectOp.bodyOf p frame s.dev
    let die := fld b 0 1 / 2
    let c := connOf b (d.die die).connOrder
    c.inRange = true → d.groupOk c = true → d.qpnHeld c.localQpn = false → d.dieUp die = true → (d.die die).conns.length < 131072 →
    exec (.curConnect p frame) s = .next (s.put (((d.onDie die fun x => { x with
      conns := x.conns ++ [c]
      connOrder := x.connOrder + 1
      freedQpns := x.freedQpns.filter fun y => y.1 != c.localQpn }).installed c.localQpn).answer p
        { body := le 4 (fld b 4 4 % 2 ^ 21) }))) ∧
  (∀ (p : Nat) (frame : Bytes) (c : Conn) (s : State), curDisconnectOp.Accepts p frame s.dev →
    let d := s.dev.rung p frame
    let b := curDisconnectOp.bodyOf p frame s.dev
    d.conn (fld b 0 4) = some c → c.state ≠ .disconnecting → (bit (fld b 4 4) 1 = true ∨ d.connInUse (fld b 0 4) = false) →
    (bit (fld b 4 4) 0 = true → c.queue ≠ [] → exec (.curDisconnect p frame) s = .next (s.put (d.onConn (fld b 0 4) fun c =>
      { c with state := if c.state = .error then .error else .disconnecting, drain := some p }))) ∧
    ((bit (fld b 4 4) 0 = false ∨ c.queue = []) → ∃ u : Dev, exec (.curDisconnect p frame) s = .next (s.put (u.answer p {})) ∧
      u.conn (fld b 0 4) = none))

/-- INBOUND_WRITE, INBOUND_READ_REQUEST and INBOUND_ATOMIC on the expected PSN (R333, R337, R341, R347, R350). -/
def Obligations.InboundRequests : Prop :=
  (∀ (h : RoceHdr) (c : Conn) (r : Region) (key addr : Nat) (payload : Bytes) (s : State), Sound s → s.dev.Expects h c →
    (s.dev.inTurn h c).checkKey c key addr payload.length .write = .ok r → (s.dev.die (addr / 2 ^ 36)).safe = false →
    ∃ t c', exec (.inboundWrite h true true false key addr payload.length payload) s = .next t ∧
      DramHolds s.mem t.mem addr payload ∧ t.dev.conn h.qpn = some c' ∧ c'.state = c.state ∧
      c'.expPsn = psnAdd c.expPsn 1 ∧ c'.bytesRx = c.bytesRx + payload.length ∧ c'.gapNaked = false) ∧
  (∀ (h : RoceHdr) (c : Conn) (last : Bool) (key addr len : Nat) (payload : Bytes) (s : State), s.dev.Expects h c → c.kind = 1 →
    let d := s.dev.inTurn h c
    (d.checkKey c key addr len .write = .refused → exec (.inboundWrite h true last false key addr len payload) s =
      .next (s.put (((d.onConn h.qpn fun c => { c with keyRefused := c.keyRefused + 1 }).control c (.nakRemoteAccess h.qpn h.psn)).onConn
        h.qpn fun c => { c with expPsn := psnAdd h.psn 1, gapNaked := false }))) ∧
    (d.checkKey c key addr len .write = .stale → exec (.inboundWrite h true last false key addr len payload) s =
      .next (s.put (((d.onCur (qpnDie h.qpn) fun k => { k with keyRefusedGen := k.keyRefusedGen + 1 }).control c
        (.nakRemoteAccess h.qpn h.psn)).onConn h.qpn fun c => { c with expPsn := psnAdd h.psn 1, gapNaked := false })))) ∧
  (∀ (h : RoceHdr) (c : Conn) (r : Region) (key addr len : Nat) (s : State), s.dev.Expects h c →
    let d := s.dev.inTurn h c
    d.checkKey c key addr len .read = .ok r → (c.inbound.filter fun x => !x.write).length < c.ird → len ≤ 2 ^ 31 →
    exec (.inboundReadRequest h key addr len) s =
      .next (s.put ((d.answerRead c h.psn r.entry addr len).onConn h.qpn fun c =>
        { c with expPsn := psnAdd c.expPsn (readPackets c.pmtu len), unacked := 0 }))) ∧
  (∀ (h : RoceHdr) (c : Conn) (r : Region) (key addr : Nat) (add : BitVec 64) (s : State), Sound s → s.dev.Expects h c →
    (s.dev.inTurn h c).checkKey c key addr 8 .atomic = .ok r → (s.dev.die (addr / 2 ^ 36)).safe = false →
    ∃ t c', exec (.inboundAtomic h false key addr add) s = .next t ∧ dramU64 t.mem addr = dramU64 s.mem addr + add ∧
      DramHolds s.mem t.mem addr (le 8 (dramU64 s.mem addr + add).toNat) ∧ t.dev.conn h.qpn = some c' ∧
      c'.expPsn = psnAdd c.expPsn 1 ∧ c'.atomics.getLast? = some (h.psn, dramU64 s.mem addr) ∧
      (t.dev.port c.port).control.map (·.ctl) =
        ((s.dev.port c.port).control.map (·.ctl)) ++ (if c.port < s.dev.ports.length then [some (.atomicResp h.qpn h.psn (dramU64 s.mem addr))] else []))

/-- ACK_RECEIVED, NAK_RECEIVED, READ_RESPONSE and CNP_RECEIVED (R332, R334, R337, R339, R350, R352). -/
def Obligations.ResponsesReceived : Prop :=
  (∀ (h : RoceHdr) (c : Conn) (s : State), s.dev.Answers h c →
    (c.inFlight h.psn = true → c.drain = none → (∀ w ∈ c.queue, w.op ≠ .read ∧ ∀ i k, w.purpose ≠ .readStored i k) →
      psnAdd h.psn 1 ≠ c.unaPsn →
      ∃ t c', exec (.ackReceived h) s = .next t ∧ t.dev.conn h.qpn = some c' ∧ c'.unaPsn = psnAdd h.psn 1 ∧
        c'.completed = c.completed + (splitDone (psnAdd h.psn 1) c.unaPsn c.queue).1.length ∧
        c'.queue = (splitDone (psnAdd h.psn 1) c.unaPsn c.queue).2 ∧ c'.retriesLeft = c.retryCount ∧ c'.rnrCount = 0 ∧
        c'.outstanding = c.outstanding - c.bytesBetween c.unaPsn (psnAdd h.psn 1) ∧ c'.expPsn = c.expPsn) ∧
    (c.inFlight h.psn = false → exec (.ackReceived h) s = .next (s.put ((s.dev.ctxTouch h.qpn).dupCount (qpnDie h.qpn))))) ∧
  (∀ (h : RoceHdr) (c : Conn) (timer : Nat) (s : State), s.dev.Answers h c → c.inFlight h.psn = true → h.psn = c.unaPsn → c.drain = none →
    (1 ≤ c.retriesLeft → ∃ t c', exec (.nakReceived h .sequence) s = .next t ∧ t.dev.conn h.qpn = some c' ∧
      c'.retriesLeft = c.retriesLeft - 1 ∧ c'.deadline = s.dev.now + 4096 * 2 ^ c.ackTimeout ∧ c'.unaPsn = c.unaPsn ∧
      c'.queue = c.queue ∧ c'.state = c.state) ∧
    (c.rnrCount < 6 → exec (.nakReceived h (.rnr timer)) s =
      .next (s.put (((s.dev.ctxTouch h.qpn).unqueue c.port h.qpn).onConn h.qpn fun c =>
        { c with rnrCount := c.rnrCount + 1, rnrUntil := some (s.dev.now + min timer 10240000) }))) ∧
    (exec (.nakReceived h .invalidRequest) s =
      .next (s.put (((s.dev.ctxTouch h.qpn).connError h.qpn St.CUR_REMOTE_INVALID).drainCheck h.qpn)))) ∧
  (∀ (h : RoceHdr) (c : Conn) (w : Wr) (payload : Bytes) (s : State), s.dev.Answers h c → c.wrAt h.psn = some w → w.op = .read →
    psnSub h.psn w.firstPsn = w.got.length / c.pmtu → w.firstPsn = c.unaPsn → w ∈ c.queue →
    ∃ (d : Dev) (c' : Conn), exec (.readResponse h true payload) s =
        .next (s.put ((d.wrDone h.qpn { w with got := w.got ++ payload }).drainCheck h.qpn)) ∧
      d.conn h.qpn = some c' ∧ c'.unaPsn = psnAdd w.lastPsn 1 ∧ c'.completed = c.completed + 1 ∧ c'.readsOut = c.readsOut - 1 ∧
      c'.queue = c.queue.erase w ∧ c'.bytesRx = c.bytesRx + payload.length) ∧
  (∀ (qpn : Nat) (c : Conn) (s : State), s.dev.conn qpn = some c → c.mayCut s.dev.now = true →
    ∃ t c', exec (.cnpReceived qpn) s = .next t ∧ t.dev.conn qpn = some c' ∧ c'.cnpRx = c.cnpRx + 1 ∧
      c'.cwnd = max c.pmtu (c.cwnd - c.cwnd / 4) ∧ c'.acc = 0 ∧ c'.lastCut = some s.dev.now ∧ c'.queue = c.queue)

/-- ACK_TIMER, RETRANSMIT_TIMEOUT, RNR_WAIT_EXPIRY, WORK_REQUEST_LIFETIME and WORK_REQUEST_START (R332 to R335, R339, R344). -/
def Obligations.CourierTimers : Prop :=
  (∀ (qpn : Nat) (c : Conn) (s : State), s.dev.conn qpn = some c → 1 ≤ c.unacked →
    exec (.ackTimer qpn) s = .next (s.put (((s.dev.until (c.unackedSince + 2000)).control c (.ack qpn (psnSub c.expPsn 1))).onConn qpn
      fun c => { c with unacked := 0 }))) ∧
  (∀ (qpn : Nat) (c : Conn) (s : State), s.dev.conn qpn = some c → 1 ≤ c.deadline → c.drain = none →
    (1 ≤ c.retriesLeft → ∃ t c', exec (.retransmitTimeout qpn) s = .next t ∧ t.dev.conn qpn = some c' ∧ c'.cwnd = c.pmtu ∧
      c'.acc = 0 ∧ c'.retriesLeft = c.retriesLeft - 1 ∧ c'.deadline = max s.dev.now c.deadline + 4096 * 2 ^ c.ackTimeout ∧
      t.dev.now = max s.dev.now c.deadline ∧ c'.unaPsn = c.unaPsn ∧ c'.queue = c.queue) ∧
    (c.retriesLeft = 0 →
      let d := ((s.dev.until c.deadline).ctxTouch qpn).onCur (qpnDie qpn) fun k => { k with timeouts := k.timeouts + 1 }
      exec (.retransmitTimeout qpn) s =
        .next (s.put (((d.onTimeout qpn).connError qpn St.CUR_RETRY_EXCEEDED).drainCheck qpn)))) ∧
  (∀ (qpn t : Nat) (c : Conn) (s : State), s.dev.conn qpn = some c → c.rnrUntil = some t →
    exec (.rnrWaitExpiry qpn) s =
      .next (s.put (((s.dev.until t).onConn qpn fun c => { c with rnrUntil := none }).goBack qpn c.unaPsn))) ∧
  (∀ (qpn t : Nat) (c : Conn) (w : Wr) (l : List Wr) (s : State), s.dev.conn qpn = some c → c.queue = w :: l → w.txAt = some t →
    exec (.workRequestLifetime qpn) s =
      .next (s.put (((s.dev.until (t + 300000000)).connError qpn St.CUR_TIMEOUT).drainCheck qpn))) ∧
  (∀ (qpn : Nat) (c : Conn) (w : Wr) (s : State), s.dev.conn qpn = some c →
    (c.state = .connected ∨ c.state = .disconnecting) → s.dev.startable c = some w →
    ∃ t c', exec (.workRequestStart qpn) s = .next t ∧ t.dev.conn qpn = some c' ∧ c'.nextPsn = psnAdd c.nextPsn (w.packets c.pmtu) ∧
      c'.readsOut = c.readsOut + b2n (w.op == .read) ∧
      { w with started := true, firstPsn := c.nextPsn, lastPsn := psnAdd c.nextPsn (w.packets c.pmtu - 1) } ∈ c'.queue ∧
      c'.queue.length = c.queue.length)

/-- REVOCATION_COMPLETE and REVOCATION_CUT (R348, R349). -/
def Obligations.RevocationEnds : Prop :=
  (∀ (die entry t p : Nat) (r : Region) (s : State), s.dev.region die entry = some r → r.die = die → r.entry = entry →
    r.revoking = some (t, some p) → r.staging = none →
    (s.dev.unfinished die entry = false → ∃ d : Dev, exec (.revocationComplete die entry) s = .next (s.put (d.answer p {})) ∧
      d.region die entry = none ∧ d.ports = s.dev.ports) ∧
    (s.dev.unfinished die entry = true → exec (.revocationComplete die entry) s = .next (s.put s.dev) ∧
      ∃ d : Dev, exec (.revocationCut die entry) s = .next (s.put (d.answer p (fail St.CUR_REVOKE_CUT))) ∧
        d.region die entry = none ∧ d.now = max s.dev.now (t + 10000000) ∧ d.unfinished die entry = false ∧
        (∀ x ∈ (d.die die).conns, ∀ y ∈ x.inbound, y.entry = entry → y.write = true)))

/-- JOB_CREATE, JOB_BIND_RANKS, JOB_QUERY and JOB_DESTROY (R44, R49, R52, R54, R84, R587, R589). -/
def Obligations.JobCommands : Prop :=
  (∀ (p slot : Nat) (frame map peerBytes : Bytes) (x : Dataset) (r : Route) (s : State), jobCreateOp.Accepts p frame s.dev →
    let d := s.dev.rung p frame
    let b := jobCreateOp.bodyOf p frame s.dev
    d.dataset (fld b 8 4) = some x →
    (x.closed = false → exec (.jobCreate p frame) s = .next (s.put (d.answer p (fail St.PGH_JOB_INPUT)))) ∧
    (d.createRefusal b x = none → d.route (cut b 48 32) = some r → pghRead s.mem d p (hostBuf b 128) = some map →
      pghRead s.mem d p (hostBuf b 144) = some peerBytes → (routeOf r.binary).cardLen = 0 → peerBytes.length % 4 = 0 →
      let peers := (rowsOf 4 peerBytes).map fun r => fld r 0 4
      nodeMapOk x.segs peers.length map = true → d.peerListOk peers = true → freeSlot 256 (d.jobs.map (·.handle)) = some slot →
      let j := newJob b x r (handleOf slot (d.jobGens.getD slot 0)) map peers
      exec (.jobCreate p frame) s = .next (s.put (({ d with jobs := d.jobs ++ [j] } : Dev).answer p
        { body := le 4 j.handle ++ le 4 1 ++ fit 16 j.postmark ++ le 8 j.k })) ∧ j.state = .created ∧ j.stamp = 1 ∧ j.ranks = [])) ∧
  (∀ (p : Nat) (frame l : Bytes) (j : Job) (cs : List (Nat × Nat)) (d' d2 : Dev) (s : State), jobBindRanksOp.Accepts p frame s.dev →
    let d := s.dev.rung p frame
    let b := jobBindRanksOp.bodyOf p frame s.dev
    let es := rowsOf 56 l
    d.job (fld b 0 4) = some j → (j.state = .created ∨ j.state = .bound) → j.barrier.ph = none → 1 ≤ fld b 4 4 → fld b 4 4 ≤ 65536 →
    1 ≤ fld b 24 4 → fld b 24 4 ≤ 65536 → fld b 20 4 < fld b 24 4 → fld b 32 4 ≤ 63 →
    pghRead s.mem d p (fld b 8 8, 56 * fld b 4 4) = some l → (es.map fun e => fld e 0 4).Nodup →
    (∀ st i, d.firstBindRefusal j ((routeOf j.conf.route).parcelLength j.b) es = some (st, i) →
      exec (.jobBindRanks p frame) s = .next (s.put (d.answer p (fail st i)))) ∧
    (d.firstBindRefusal j ((routeOf j.conf.route).parcelLength j.b) es = none → d.boundRanks + fld b 4 4 ≤ 65536 →
      d.bindAll j.handle es = some (cs, d') → d'.creditBack (portOf p) (fld b 8 8) 0 cs = (d2, true) →
      let d3 := if bit (fld b 16 4) 0 then d2.onJob j.handle fun j => { j with
          state := .bound
          deviceIndex := fld b 20 4
          deviceCount := fld b 24 4
          parentPeer := fld b 28 4
          childPeers := (List.range (fld b 32 4)).map fun i => fld b (36 + 4 * i) 4 } else d2
      exec (.jobBindRanks p frame) s =
        .next (s.put (d3.answer p { body := le 4 (((d3.job j.handle).map fun j => j.ranks.length).getD 0) })))) ∧
  (∀ (p : Nat) (frame : Bytes) (j : Job) (s : State), jobQueryOp.Accepts p frame s.dev →
    let d := s.dev.rung p frame
    let b := jobQueryOp.bodyOf p frame s.dev
    let data := d.queryResult j (fld b 4 4) (fld b 8 4)
    d.job (fld b 0 4) = some j →
    (fld b 24 8 < data.length → exec (.jobQuery p frame) s = .next (s.put (d.answer p (fail St.PGH_BUFFER_SHORT data.length)))) ∧
    (data.length ≤ fld b 24 8 → d.hostRefused (p / 32) (fld b 16 8) data.length true = none →
      exec (.jobQuery p frame) s = .next (s.put ((d.hostPut (p / 32) (fld b 16 8) data).answer p { body := j.queryBody })))) ∧
  (∀ (p : Nat) (frame : Bytes) (j : Job) (s : State), jobDestroyOp.Accepts p frame s.dev →
    let d := s.dev.rung p frame
    let b := jobDestroyOp.bodyOf p frame s.dev
    d.job (fld b 0 4) = some j →
    ((j.state = .sealing ∨ (j.state = .running ∧ bit (fld b 4 4) 0 = false)) →
      exec (.jobDestroy p frame) s = .next (s.put (d.answer p (fail St.PGH_JOB_STATE)))) ∧
    (j.state ≠ .sealing → (j.state = .running → bit (fld b 4 4) 0 = true) →
      let r := (d.endWaits j St.PGH_STAGE_ABANDONED).releaseJob j
      exec (.jobDestroy p frame) s = .next (s.put ((({ r.1 with
        jobs := r.1.jobs.filter fun k => k.handle != j.handle
        jobGens := r.1.jobGens.modify (slotOf j.handle) fun g => (g + 1) % 2 ^ 22 } : Dev)).answerAfter p {} r.2))))

/-- JOB_START, JOB_RESUME, JOB_SEAL and SEAL_CUTOFF (R46, R57, R58, R61, R66, R383). -/
def Obligations.JobRuns : Prop :=
  (∀ (p : Nat) (frame : Bytes) (j : Job) (s : State), jobStartOp.Accepts p frame s.dev →
    let d := s.dev.rung p frame
    let b := jobStartOp.bodyOf p frame s.dev
    d.job (fld b 0 4) = some j →
    ((j.state ≠ .bound ∨ j.barrier.ph ≠ none) → exec (.jobStart p frame) s = .next (s.put (d.answer p (fail St.PGH_JOB_STATE)))) ∧
    (j.state = .bound → j.barrier.ph = none → d.startRefusal j = none →
      exec (.jobStart p frame) s = .next (s.put (d.beginStart p j startFresh))) ∧
    (∀ st, j.state = .bound → j.barrier.ph = none → d.startRefusal j = some st →
      exec (.jobStart p frame) s = .next (s.put (d.answer p (fail st))))) ∧
  (∀ (p : Nat) (frame l : Bytes) (rs : List Bytes) (j : Job) (s : State), jobResumeOp.Accepts p frame s.dev →
    let d := s.dev.rung p frame
    let b := jobResumeOp.bodyOf p frame s.dev
    d.job (fld b 0 4) = some j → j.state = .bound → j.barrier.ph = none → 1 ≤ fld b 4 4 → fld b 4 4 ≤ 65536 →
    pghRead s.mem d p (fld b 8 8, 16 * fld b 4 4) = some l → readRecords s.mem d p l = some rs →
    (∀ st, d.resumeFrom j rs = .error st → exec (.jobResume p frame) s = .next (s.put (d.answer p (fail st)))) ∧
    (∀ x, d.resumeFrom j rs = .ok x → d.startRefusal j = none → exec (.jobResume p frame) s = .next (s.put (d.beginStart p j x)))) ∧
  (∀ (p : Nat) (frame : Bytes) (j : Job) (s : State), jobSealOp.Accepts p frame s.dev →
    let d := s.dev.rung p frame
    let b := jobSealOp.bodyOf p frame s.dev
    d.job (fld b 0 4) = some j →
    (j.state = .running → j.staged = none → j.barrier.opened = false →
      exec (.jobSeal p frame) s = .next (s.put (d.onJob j.handle fun j => { j with
        state := .sealing
        sealRec := some { nonce := fld b 16 8, stop := fld b 8 8, at_ := s.dev.now, waiters := [(p, hostBuf b 24)] }
        ranks := j.ranks.map fun (r : Rank) =>
          { r with stopped := r.stopped || fld b 8 8 == 0 || decide (stepOf j.k (fld b 8 8) ≤ r.cursor) } }))) ∧
    (∀ x, j.state = .sealing → j.sealRec = some x → x.nonce = fld b 16 8 →
      exec (.jobSeal p frame) s = .next (s.put (d.onJob j.handle fun j => { j with
        sealRec := some { x with waiters := x.waiters ++ [(p, hostBuf b 24)] } }))) ∧
    (∀ x, j.state = .sealed_ → j.sealRec = some x → x.nonce = fld b 16 8 → x.bytes.length ≤ fld b 32 8 →
      d.hostRefused (p / 32) (fld b 24 8) x.bytes.length true = none →
      exec (.jobSeal p frame) s = .next (s.put ((d.hostPut (p / 32) (fld b 24 8) x.bytes).answer p
        { body := le 4 x.bytes.length ++ le 4 (fld x.bytes 40 4) }))) ∧
    (∀ x, (j.state = .sealing ∨ j.state = .sealed_) → j.sealRec = some x → x.nonce ≠ fld b 16 8 →
      exec (.jobSeal p frame) s = .next (s.put (d.answer p (fail St.PGH_JOB_STATE))))) ∧
  (∀ (job : Nat) (j : Job) (x : Seal) (s : State), s.dev.job job = some j → j.state = .sealing → j.sealRec = some x →
    let d := if j.ranks.all Rank.drained then s.dev else s.dev.until (x.at_ + 1600000000)
    exec (.sealCutoff job) s = .next (s.put (d.finishSeal j x)) ∧
    (j.ranks = [] → x.waiters = [] → j.ctrs.difference = 0 → ∃ t j', exec (.sealCutoff job) s = .next t ∧ t.dev.job job = some j' ∧
      j'.state = .sealed_ ∧ j'.sealRec.map (·.bytes) = some (s.dev.partialRecord j x) ∧ j'.sealRec.map (·.nonce) = some x.nonce))

/-- DSET_OPEN, DSET_ADD_MANIFEST, DSET_CLOSE, DSET_VERIFY and DSET_DELETE (R39, R42, R43, R53, R405, R406, R590). -/
def Obligations.DatasetCommands : Prop :=
  (∀ (p slot : Nat) (frame : Bytes) (s : State), dsetOpenOp.Accepts p frame s.dev →
    let d := s.dev.rung p frame
    let seg := fld (dsetOpenOp.bodyOf p frame s.dev) 0 4
    (seg < 65536 ∨ seg = 0xFFFFFFFF) → freeSlot 1024 (d.datasets.map (·.handle)) = some slot →
    let h := handleOf slot (d.dsetGens.getD slot 0)
    exec (.dsetOpen p frame) s = .next (s.put (({ d with datasets := d.datasets ++
      [{ handle := h, segment := if seg = 0xFFFFFFFF then none else some seg }] } : Dev).answerAfter p { body := le 4 h }
        [dsetRec h 0 seg 0 0 []]))) ∧
  (∀ (p : Nat) (frame bytes : Bytes) (x : Dataset) (s : State), dsetAddManifestOp.Accepts p frame s.dev →
    let d := s.dev.rung p frame
    let b := dsetAddManifestOp.bodyOf p frame s.dev
    let n := fld b 4 4
    let raw := chunks 48 (n + 1) bytes
    d.dataset (fld b 0 4) = some x → x.closed = false → x.segment ≠ none → fld b 8 8 = x.entries.length →
    x.entries.length + n ≤ 2 ^ 36 → pghRead s.mem d p (fld b 16 8, 48 * n) = some bytes → (∀ e ∈ raw, fld e 38 2 = 0) →
    (∀ st i, d.firstRefused [] 0 (raw.map manifestOf) = some (st, i) →
      exec (.dsetAddManifest p frame) s = .next (s.put (d.answer p (fail st i)))) ∧
    (d.firstRefused [] 0 (raw.map manifestOf) = none →
      let r := (d.onDataset (fld b 0 4) fun x => { x with entries := x.entries ++ raw.map manifestOf }).pinAll Dev.pin
        ((raw.map manifestOf).map (·.id))
      exec (.dsetAddManifest p frame) s = .next (s.put (r.1.answerAfter p { body := le 8 (x.entries.length + n) } r.2)))) ∧
  (∀ (p : Nat) (frame t : Bytes) (x : Dataset) (s : State), dsetCloseOp.Accepts p frame s.dev →
    let d := s.dev.rung p frame
    let b := dsetCloseOp.bodyOf p frame s.dev
    d.dataset (fld b 0 4) = some x → x.closed = false → 56 ≤ fld b 16 8 → fld b 16 8 ≤ 16 + 40 * 65536 →
    pghRead s.mem d p (hostBuf b 8) = some t → segTableOk x t = true →
    (segRowOk x t = false → exec (.dsetClose p frame) s = .next (s.put (d.answer p (fail St.PGH_MANIFEST_MISMATCH)))) ∧
    (x.segment = none → exec (.dsetClose p frame) s = .next (s.put ((d.onDataset (fld b 0 4) fun x => { x with
      closed := true
      segs := segRows t
      digest := sha256 t
      segDigest := segmentDigest x.entries
      dirFranking := x.entries.map (·.franking) }).answerAfter p { body := sha256 t ++ le 8 (fld t 8 8) }
        [dsetRec (fld b 0 4) 1 0xFFFFFFFF 0 0 []]))) ∧
    (segRowOk x t = true → exec (.dsetClose p frame) s = .next (s.put (d.closeDataset p x t)))) ∧
  (∀ (p : Nat) (frame : Bytes) (x : Dataset) (s : State), dsetVerifyOp.Accepts p frame s.dev →
    let d := s.dev.rung p frame
    let b := dsetVerifyOp.bodyOf p frame s.dev
    d.dataset (fld b 0 4) = some x →
    (x.closed = false → exec (.dsetVerify p frame) s = .next (s.put (d.answer p (fail St.PGH_DATASET_STATE)))) ∧
    (x.closed = true → (∀ r, d.verifyAll x.handle x.entries 0 = (r, []) → x.segment = none →
      exec (.dsetVerify p frame) s = .next (s.put (r.answer p
        { body := le 8 x.entries.length ++ le 8 0 ++ le 4 0 ++ le 1 1 })))) ∧
    (x.closed = true → x.entries = [] → x.segment = none → d.verifyAll x.handle x.entries 0 = (d, []))) ∧
  (∀ (p : Nat) (frame : Bytes) (x : Dataset) (s : State), dsetDeleteOp.Accepts p frame s.dev →
    let d := s.dev.rung p frame
    let h := fld (dsetDeleteOp.bodyOf p frame s.dev) 0 4
    d.dataset h = some x →
    ((∃ j ∈ d.jobs, j.dataset = h) → exec (.dsetDelete p frame) s = .next (s.put (d.answer p (fail St.PGH_DATASET_IN_USE)))) ∧
    ((∀ j ∈ d.jobs, j.dataset ≠ h) → ∃ u recs, exec (.dsetDelete p frame) s = .next (s.put (Dev.answerAfter u p {} recs)) ∧
      u.dataset h = none ∧ u.dsetGens = d.dsetGens.modify (slotOf h) (fun g => (g + 1) % 2 ^ 22) ∧ u.jobs = d.jobs ∧
      (∀ k, k ≠ h → u.dataset k = d.dataset k)))

/-- ROUTE_LOAD, ROUTE_VALIDATE, ROUTE_UNLOAD, VOCAB_LOAD, VOCAB_UNLOAD, GRAMMAR_LOAD and its unload (R117, R118, R240 to R242, R268,
R275). -/
def Obligations.RouteVocabularyGrammarCommands : Prop :=
  (∀ (p : Nat) (frame bin : Bytes) (s : State), routeLoadOp.Accepts p frame s.dev →
    let d := s.dev.rung p frame
    d.binaryIn s.mem p (hostBuf (routeLoadOp.bodyOf p frame s.dev) 0) = .ok bin →
    ((d.route (sha256 bin)).isSome = true → exec (.routeLoad p frame) s = .next (s.put (d.answer p { body := sha256 bin }))) ∧
    (d.route (sha256 bin) = none → routeCheck d.semantics (decide (64 ≤ d.routes.length)) bin = none →
      exec (.routeLoad p frame) s =
        .next (s.put (({ d with routes := d.routes ++ [{ digest := sha256 bin, binary := bin }] } : Dev).answer p
          { body := sha256 bin }))) ∧
    (∀ st stage format, d.route (sha256 bin) = none →
      routeCheck d.semantics (decide (64 ≤ d.routes.length)) bin = some (st, stage, format) →
      exec (.routeLoad p frame) s = .next (s.put (d.answer p (fail st (stage + format * 65536)))))) ∧
  (∀ (p : Nat) (frame bin : Bytes) (s : State), routeValidateOp.Accepts p frame s.dev →
    let d := s.dev.rung p frame
    d.binaryIn s.mem p (hostBuf (routeValidateOp.bodyOf p frame s.dev) 0) = .ok bin →
    (routeCheck d.semantics false bin = none →
      exec (.routeValidate p frame) s = .next (s.put (d.answer p { body := sha256 bin }))) ∧
    (∀ st stage format, routeCheck d.semantics false bin = some (st, stage, format) →
      exec (.routeValidate p frame) s = .next (s.put (d.answer p (fail st (stage + format * 65536)))))) ∧
  (∀ (p : Nat) (frame : Bytes) (s : State), routeUnloadOp.Accepts p frame s.dev →
    let d := s.dev.rung p frame
    let dg := cut (routeUnloadOp.bodyOf p frame s.dev) 0 32
    ((∃ j ∈ d.jobs, ∃ c ∈ j.confs, c.routeDigest = dg) →
      exec (.routeUnload p frame) s = .next (s.put (d.answer p (fail St.RTE_ROUTE_IN_USE)))) ∧
    ((∀ j ∈ d.jobs, ∀ c ∈ j.confs, c.routeDigest ≠ dg) →
      exec (.routeUnload p frame) s =
        .next (s.put (({ d with routes := d.routes.filter fun r => r.digest != dg } : Dev).answer p {})))) ∧
  (∀ (p slot : Nat) (frame : Bytes) (s : State), vocabLoadOp.Accepts p frame s.dev →
    let d := s.dev.rung p frame
    let b := vocabLoadOp.bodyOf p frame s.dev
    let image := d.objectBytes (fld b 0 16)
    (sha256 image ≠ cut b 16 32 → exec (.vocabLoad p frame) s = .next (s.put (d.answer p (fail St.TOK_VOCAB_DIGEST)))) ∧
    (sha256 image = cut b 16 32 → d.vocab (sha256 image) = none → vocabRefusal image = none → slot < 16 → d.vocabAt slot = none →
      (∀ k < slot, d.vocabAt k ≠ none) → d.pinRoom (fld b 0 16) = true →
      let r := ({ d with vocabs := d.vocabs ++
        [{ slot := slot, digest := sha256 image, object := fld b 0 16, image := image }] } : Dev).pin (fld b 0 16)
      exec (.vocabLoad p frame) s = .next (s.put (r.1.answerAfter p { body := le 1 slot } r.2)))) ∧
  (∀ (p : Nat) (frame : Bytes) (v : Vocab) (s : State), vocabUnloadOp.Accepts p frame s.dev → unloadKind frame = 0 → 33 ≤ frame.length →
    let d := s.dev.rung p frame
    let b := vocabUnloadOp.bodyOf p frame s.dev
    d.vocabAt (fld b 4 4) = some v →
    (d.vocabUsed v = true → exec (.vocabUnload p frame) s = .next (s.put (d.answer p (fail St.TOK_VOCAB_IN_USE)))) ∧
    (d.vocabUsed v = false →
      let r := d.unpin v.object
      exec (.vocabUnload p frame) s = .next (s.put ((({ r.1 with
        vocabs := r.1.vocabs.filter fun x => x.slot != v.slot } : Dev)).answerAfter p {} r.2)))) ∧
  (∀ (p slot : Nat) (frame : Bytes) (v : Vocab) (s : State), grammarLoadOp.Accepts p frame s.dev →
    let d := s.dev.rung p frame
    let b := grammarLoadOp.bodyOf p frame s.dev
    let image := d.objectBytes (fld b 0 16)
    let g := gramOf image
    (sha256 image ≠ cut b 16 32 → exec (.grammarLoad p frame) s = .next (s.put (d.answer p (fail St.GRM_IMAGE_BAD)))) ∧
    (sha256 image = cut b 16 32 → (∀ x ∈ d.grammars, x.digest ≠ sha256 image) → g.layoutOk image = true → d.vocab g.vocab = some v →
      (vocOf v.image).isSpecial g.endTok = true → g.stepNs (vocOf v.image) ≤ 34000 →
      freeSlot 256 (d.grammars.map (·.handle)) = some slot → d.pinRoom (fld b 0 16) = true →
      let h := handleOf slot (d.gramGens.getD slot 0)
      let ns := g.stepNs (vocOf v.image)
      let r := ({ d with grammars := d.grammars ++
        [{ handle := h, digest := sha256 image, object := fld b 0 16, image := image, stepNs := ns }] } : Dev).pin (fld b 0 16)
      exec (.grammarLoad p frame) s = .next (s.put (r.1.answerAfter p { body := le 4 h ++ le 4 ns } r.2)))) ∧
  (∀ (p : Nat) (frame : Bytes) (g : Grammar) (s : State), grammarUnloadOp.Accepts p frame s.dev → unloadKind frame = 1 →
    let d := s.dev.rung p frame
    let h := fld (grammarUnloadOp.bodyOf p frame s.dev) 4 4
    d.grammar h = some g →
    ((∃ x ∈ d.streams, x.kind = 2 ∧ x.grammar = h) →
      exec (.grammarUnload p frame) s = .next (s.put (d.answer p (fail St.GRM_IN_USE)))) ∧
    ((∀ x ∈ d.streams, x.kind = 2 → x.grammar ≠ h) →
      let r := d.unpin g.object
      exec (.grammarUnload p frame) s = .next (s.put ((({ r.1 with
        grammars := r.1.grammars.filter fun x => x.handle != h
        gramGens := r.1.gramGens.modify (slotOf h) fun n => (n + 1) % 2 ^ 22 } : Dev)).answerAfter p {} r.2))))

/-- STREAM_OPEN, STREAM_REQUEST and STREAM_CLOSE (R258 to R260, R262, R264, R267). -/
def Obligations.StreamsOpenRequestClose : Prop :=
  (∀ (p n : Nat) (c : CoreRef) (frame : Bytes) (s : State), streamOpenOp.Accepts p frame s.dev →
    let d := s.dev.rung p frame
    let b := streamOpenOp.bodyOf p frame s.dev
    fld b 0 1 = 1 → 32 ≤ fld b 28 4 → d.connected (fld b 8 4) = true → d.freeStream = some n → d.placeShared = some c →
    exec (.streamOpen p frame) s = .next (s.put (({ d with streams := d.streams ++ [
      { number := n, kind := 1, qpn := fld b 8 4, respAddr := fld b 16 8, respKey := fld b 24 4, slotSize := fld b 28 4,
        rate := fld b 12 4, bitmap := fld b 2 1 == 1, home := c }] } : Dev).answer p
      { body := le 4 n ++ le 4 0 ++ le 1 c.die ++ le 1 c.cluster ++ le 1 c.core }))) ∧
  (∀ (qpn : Nat) (c : Conn) (payload : Bytes) (s : State), s.dev.dieUp (qpnDie qpn) = true → s.dev.conn qpn = some c →
    c.state = .connected → c.kind ≠ 0 → payload.length ≤ 65568 →
    let d := (s.dev.sendArrived qpn payload).2
    ((payload.length < 32 ∨ d.stream (fld payload 8 4) = none) →
      exec (.streamRequest qpn payload) s =
        .next (s.put (d.onCtrs (qpnDie qpn) fun k => { k with streamForeign := k.streamForeign + 1 }))) ∧
    (∀ x, 32 ≤ payload.length → d.stream (fld payload 8 4) = some x → x.qpn = qpn → x.closing = none →
      (requestOk payload = false → exec (.streamRequest qpn payload) s =
        .next (s.put (d.writeReply x (fld payload 12 4)
          (replyBytes (fld payload 6 2) x.number (fld payload 12 4) { status := St.TOK_REQUEST_BAD, step := x.committed })))) ∧
      (requestOk payload = true → fld payload 12 4 = seqAfter x.lastAccepted → (x.running = none ∨ x.waiting = none) →
        let r := requestOf payload d.now (x.running.isNone && x.waiting.isNone)
        exec (.streamRequest qpn payload) s = .next (s.put (d.onStream x.number fun y => { y with
          lastAccepted := fld payload 12 4
          running := if y.running.isNone then some r else y.running
          waiting := if y.running.isNone then y.waiting else some r }))))) ∧
  (∀ (p : Nat) (frame : Bytes) (x : Stream) (s : State), streamCloseOp.Accepts p frame s.dev →
    let d := s.dev.rung p frame
    let n := fld (streamCloseOp.bodyOf p frame s.dev) 0 4
    d.stream n = some x →
    (∀ r, x.running = some r → exec (.streamClose p frame) s =
      .next (s.put (d.onStream n fun y => { y with waiting := none, closing := some p }))) ∧
    (x.running = none → ∃ u : Dev, exec (.streamClose p frame) s = .next (s.put (u.answer p { body := x.counters })) ∧
      u.stream n = none ∧ (∀ k, k ≠ n → u.stream k = d.stream k) ∧ u.jobs = d.jobs ∧ u.grammars = d.grammars))

/-- STREAM_TOKENISE, STREAM_DETOKENISE and STREAM_COMMIT (R254 to R257, R269, R271, R274). -/
def Obligations.StreamRequestsServed : Prop :=
  (∀ (n : Nat) (x : Stream) (r : StreamReq) (s : State), s.dev.serving n 1 = some (x, r) → x.kind = 1 →
    (s.dev.vocabAt r.vocab = none → exec (.streamTokenise n) s =
      .next (s.put (s.dev.completeReq x r { status := St.TOK_VOCAB_SLOT, step := x.committed }))) ∧
    (∀ v, s.dev.vocabAt r.vocab = some v →
      let parse := bit r.flags 3
      let final := bit r.flags 0
      let o := (vocOf v.image).tokens parse final (x.tokCtx ++ r.payload)
      let ids := ((vocOf v.image).finish (bit r.flags 1 && x.tokCtx.isEmpty) (bit r.flags 2 && final) 0 o.ids).1
      (x.tokCtx ≠ [] → (x.tokSlot ≠ r.vocab ∨ x.tokSpecial ≠ parse) → exec (.streamTokenise n) s =
        .next (s.put (s.dev.completeReq x r { status := St.TOK_REQUEST_BAD, step := x.committed }))) ∧
      ((x.tokCtx = [] ∨ (x.tokSlot = r.vocab ∧ x.tokSpecial = parse)) → (ids.flatMap (le 4)).length ≤ x.slotSize - 32 →
        exec (.streamTokenise n) s = .next (s.put ((s.dev.onStream x.number fun y => { y with
          tokCtx := o.held
          tokSlot := r.vocab
          tokSpecial := parse
          invalidUnits := y.invalidUnits + o.invalid }).completeReq x r
            { flags := b2n (o.invalid != 0) + 2 * b2n (!o.held.isEmpty), body := ids.flatMap (le 4) }))))) ∧
  (∀ (n : Nat) (x : Stream) (r : StreamReq) (v : Vocab) (s : State), s.dev.serving n 2 = some (x, r) → x.kind = 1 →
    s.dev.vocabAt r.vocab = some v →
    let ids := idsOf (r.payload.length + 1) r.payload
    let t := renderText (vocOf v.image).replace (bit r.flags 0) (x.detCtx ++ (vocOf v.image).render (bit r.flags 4) ids)
    ((∃ i ∈ ids, (vocOf v.image).v ≤ i) → exec (.streamDetokenise n) s =
      .next (s.put (s.dev.completeReq x r { status := St.TOK_TOKEN_RANGE, step := x.committed }))) ∧
    ((∀ i ∈ ids, i < (vocOf v.image).v) → t.1.length ≤ x.slotSize - 32 → exec (.streamDetokenise n) s =
      .next (s.put ((s.dev.onStream x.number fun y => { y with
        detCtx := t.2.2
        invalidUnits := y.invalidUnits + t.2.1 }).completeReq x r
          { flags := b2n (t.2.1 != 0) + 2 * b2n (!t.2.2.isEmpty), body := t.1 })))) ∧
  (∀ (n : Nat) (x : Stream) (r : StreamReq) (gr : Grammar) (v : Voc) (y : GramPos) (s : State), s.dev.serving n 3 = some (x, r) →
    (x.kind = 1 → exec (.streamCommit n) s =
      .next (s.put (s.dev.completeReq x r { status := St.TOK_STREAM_KIND, step := x.committed }))) ∧
    (x.kind = 2 → s.dev.grammar x.grammar = some gr → s.dev.vocabOf gr = some v → x.pos.withdraw r.rollback = some y →
      let g := gramOf gr.image
      let ids := idsOf (r.payload.length + 1) r.payload
      (∀ i ∈ ids, i < v.v) → (y.finished = false ∨ ids = []) →
      (∀ i, y.apply g v 0 ids = .error i → exec (.streamCommit n) s =
        .next (s.put ((s.dev.onStream x.number fun z => { z with rejected := z.rejected + 1 }).completeReq x r
          { status := St.GRM_TOKEN_REJECTED, body := le 4 i, step := x.committed }))) ∧
      (∀ z, y.apply g v 0 ids = .ok z → (z.reply g v x.bitmap).body.length ≤ x.slotSize - 32 → x.bounded = false →
        exec (.streamCommit n) s = .next (s.put ((s.dev.onStream x.number fun w => w.committedTo z none).completeReq x r
          (z.reply g v x.bitmap))))))

/-- STO_FORMAT, STO_SLED_PREPARE_REMOVE, STO_SLED_ADMIT, STO_STANDIN and STO_SET_ECC_STRENGTH (R415, R443, R452, R455 to R457, R460). -/
def Obligations.StoreCommands : Prop :=
  (∀ (p : Nat) (frame : Bytes) (s : State), stoFormatOp.Accepts p frame s.dev →
    let d := s.dev.rung p frame
    let b := stoFormatOp.bodyOf p frame s.dev
    let sleds := (List.range 16).filter fun i => (d.store.sled i).allocates
    let left := sleds.map fun i => (i, (d.store.lunsOf i).filter fun l => !d.store.retiredLuns.contains l)
    let groups := formGroups (fld b 0 1) (fld b 1 1) (fld b 2 1) sleds (left.map fun x => x.2.length).sum 0 left
    1 ≤ fld b 4 1 → fld b 4 1 ≤ 16 →
    (d.datasets ≠ [] → exec (.stoFormat p frame) s = .next (s.put (d.answer p (fail St.PGH_DATASET_IN_USE)))) ∧
    (d.datasets = [] → stripeShapeOk (fld b 0 1) (fld b 1 1) (fld b 2 1) = false →
      exec (.stoFormat p frame) s = .next (s.put (d.answer p (fail St.MED_GROUP_LAYOUT)))) ∧
    (d.datasets = [] → stripeShapeOk (fld b 0 1) (fld b 1 1) (fld b 2 1) = true → groups ≠ [] → d.lbx.queues = [] → d.store.waits = [] →
      exec (.stoFormat p frame) s = .next (s.put ((d.onStore fun st =>
        { (st.formatted (fld b 0 1) (fld b 1 1) (fld b 2 1) (fld b 4 1) groups) with waits := [] }).answer p
          { body := le 4 groups.length })))) ∧
  (∀ (p : Nat) (frame : Bytes) (s : State), stoSledPrepareRemoveOp.Accepts p frame s.dev →
    let d := s.dev.rung p frame
    let b := stoSledPrepareRemoveOp.bodyOf p frame s.dev
    let slot := fld b 0 1
    slot ≤ 15 →
    (fld b 1 1 < 4 → (d.store.sled slot).busy = true →
      exec (.stoSledPrepareRemove p frame) s = .next (s.put (d.answer p (fail St.MED_SLED_BUSY)))) ∧
    ((d.store.sled slot).busy = false → (fld b 1 1 = 2 ∨ fld b 1 1 = 3) → exec (.stoSledPrepareRemove p frame) s =
      .next (s.put ((d.onSled slot fun x => { x with ledLocate := decide (fld b 1 1 = 2) }).answer p {}))) ∧
    (fld b 1 1 = 0 → (d.store.sled slot).state = .inService → exec (.stoSledPrepareRemove p frame) s =
      .next (s.put ((d.onSled slot fun x => { x with
        state := .preparing
        prepare := some (false, s.dev.now, some p)
        ledPower := 2 }).onStore fun st => { st with streams := st.streams.map (st.offSled slot) }))) ∧
    (∀ e t w, fld b 1 1 = 4 → (d.store.sled slot).prepare = some (e, t, some w) → exec (.stoSledPrepareRemove p frame) s =
      .next (s.put (((d.onSled slot fun x => { x with state := .inService, prepare := none, ledPower := 1 }).answer w
        (fail St.MED_SLED_BUSY)).answer p {})))) ∧
  (∀ (p : Nat) (frame : Bytes) (s : State), stoSledAdmitOp.Accepts p frame s.dev →
    let d := s.dev.rung p frame
    let b := stoSledAdmitOp.bodyOf p frame s.dev
    fld b 0 1 ≤ 15 → fld b 1 1 ≤ 2 → (d.store.sled (fld b 0 1)).busy = false →
    exec (.stoSledAdmit p frame) s = .next (s.put ((d.onSled (fld b 0 1) fun x => { x with
      state := .admitting
      admission := some (fld b 1 1, bit (fld b 2 1) 0, some p) }).setDomain (fld b 0 1 / 2) (11 + fld b 0 1 % 2) true))) ∧
  (∀ (p : Nat) (frame : Bytes) (s : State), stoStandinOp.Accepts p frame s.dev →
    let d := s.dev.rung p frame
    let b := stoStandinOp.bodyOf p frame s.dev
    (fld b 0 1 = 0 → fld b 12 4 ≤ 86400 → 5 ≤ fld b 16 1 → fld b 16 1 ≤ 100 →
      exec (.stoStandin p frame) s = .next (s.put ((d.onStore fun st =>
        { st with standinDelay := fld b 12 4, rebuildShare := fld b 16 1 }).answer p {}))) ∧
    (∀ g, fld b 0 1 = 2 → d.store.groups.find? (fun g => g.number == fld b 4 4) = some g → g.standin = none →
      fld b 8 4 ∈ d.store.freeLuns → g.onSled (slotSled (fld b 8 4)) + 1 ≤ d.store.m →
      exec (.stoStandin p frame) s = .next (s.put (((d.onStore fun st =>
        { st with freeLuns := st.freeLuns.filter (· != fld b 8 4) }).onGroup g.number fun x =>
          { x with standin := some (fld b 8 4) }).answer p {})))) ∧
  (∀ (p : Nat) (frame : Bytes) (s : State), stoSetEccStrengthOp.Accepts p frame s.dev →
    let d := s.dev.rung p frame
    let b := stoSetEccStrengthOp.bodyOf p frame s.dev
    fld b 0 1 ≤ 15 → fld b 1 1 ≤ 8 → fld b 2 1 ≤ 8 → 1 ≤ fld b 3 1 → fld b 3 1 ≤ 15 →
    (∀ x, d.store.sleds[fld b 0 1]? = some x → x.present = true → 1 ≤ x.codewords (fld b 1 1) ∧ 1 ≤ x.codewords (fld b 2 1)) →
    exec (.stoSetEccStrength p frame) s = .next (s.put ((d.onSled (fld b 0 1) fun x =>
      { x with slcFloor := fld b 1 1, nativeFloor := fld b 2 1, retryDepth := fld b 3 1 }).answer p {})))

/-- LBX_CREATE, LBX_ERROR_LOG, LBX_RESTART and LBX_RESET (R466, R469, R483 to R485). -/
def Obligations.LetterboxCommands : Prop :=
  (∀ (p : Nat) (frame e : Bytes) (s : State), lbxCreateOp.Accepts p frame s.dev →
    let d := s.dev.rung p frame
    let b := lbxCreateOp.bodyOf p frame s.dev
    let q := fld b 0 2
    let port := fld b 2 1
    q < 4096 → port ≤ 3 → fld b 8 8 % 4096 = 0 → d.queue q = none →
    (d.lbx.tableBase.getD port none = none ∨ d.lbx.tableBase.getD port none = some (fld b 8 8)) →
    hostRead s.mem d port (fld b 8 8 + 128 * q) 64 = some e →
    (entryOk q port e = false → exec (.lbxCreate p frame) s = .next (s.put (d.answer p (fail St.LBX_QUEUE_BAD)))) ∧
    (entryOk q port e = true → exec (.lbxCreate p frame) s = .next (s.put ((({ d with
      lbx := ({ d.lbx with
        queues := d.lbx.queues ++ [queueOf q port e [] []]
        tableBase := d.lbx.tableBase.set port (some (fld b 8 8)) } : Lbx).tidy } : Dev).lbxWriteback q).answer p
      { body := le 8 (Config.doorbellBase port + 8 * q) })))) ∧
  (∀ (p : Nat) (frame : Bytes) (x : Queue) (e : ErrPage) (s : State), lbxErrorLogOp.Accepts p frame s.dev →
    let d := s.dev.rung p frame
    let q := fld (lbxErrorLogOp.bodyOf p frame s.dev) 0 2
    q < 4096 → d.queue q = some x → x.state ≠ .resetting → x.errPage = some e →
    exec (.lbxErrorLog p frame) s = .next (s.put (d.answer p { body := x.errorLog e }))) ∧
  (∀ (p : Nat) (frame : Bytes) (x : Queue) (s : State), lbxRestartOp.Accepts p frame s.dev →
    let d := s.dev.rung p frame
    let b := lbxRestartOp.bodyOf p frame s.dev
    let q := fld b 0 2
    q < 4096 → d.queue q = some x → x.state = .frozen →
    (fld b 4 4 ≠ x.freezeCount → exec (.lbxRestart p frame) s = .next (s.put (d.answer p (fail St.LBX_RESTART_STALE)))) ∧
    (fld b 4 4 = x.freezeCount →
      exec (.lbxRestart p frame) s = .next (s.put (Dev.lbxApply s.mem ((d.lbxState q .running).answer p {}) q)))) ∧
  (∀ (p : Nat) (frame : Bytes) (x : Queue) (s : State), lbxResetOp.Accepts p frame s.dev →
    let d := s.dev.rung p frame
    let b := lbxResetOp.bodyOf p frame s.dev
    let q := fld b 0 2
    q < 4096 → fld b 2 1 ≤ 1 → d.queue q = some x →
    (x.state = .resetting → exec (.lbxReset p frame) s = .next (s.put (d.onQueue q fun x => { x with later := x.later ++ [p] }))) ∧
    (x.state ≠ .resetting → exec (.lbxReset p frame) s = .next (s.put (d.lbxResetBegin q (fld b 2 1) (some p)))) ∧
    (x.state ≠ .resetting → fld b 2 1 = 1 → x.cmds = [] → s.dev.store.puts = [] → ∃ u : Dev,
      exec (.lbxReset p frame) s = .next (s.put (u.answer p {})) ∧ u.queue q = none))

/-- DOORBELL_WRITE and INT_DELAY_EXPIRY (R470, R471, R473, R482). -/
def Obligations.DoorbellsAndInterrupts : Prop :=
  (∀ (port k q : Nat) (value : BitVec 64) (x : Queue) (s : State), k < 4 → q < 4096 → s.dev.queue q = some x → x.port = k →
    s.dev.pins.trained.getD port false = true → s.dev.lbxRuns k = true → x.state = .running →
    doorbellPort (Config.doorbellBase k + 8 * q) = some k →
    let at_ := Config.doorbellBase k + 8 * q
    let d := ((s.dev.dramWrite at_ (le 8 value.toNat)).onQueue q fun x => { x with doorbell := value }).lbxTouch x
    (bits value.toNat 15 0 = x.sqHead → bits value.toNat 31 16 = x.cqHead → x.sqHead < x.sqSize → x.cqHead < x.cqSize →
      exec (.doorbellWrite port at_ 8 value) s =
        .next (s.put (d.onQueue q fun y => { y with cqHead := y.newCqHead }))) ∧
    (x.sqSize ≤ bits value.toNat 15 0 → exec (.doorbellWrite port at_ 8 value) s =
      .next (s.put (d.lbxFreeze q { status := St.LBX_DOORBELL, index := 0xFFFF })))) ∧
  (∀ (port k size : Nat) (value : BitVec 64) (s : State), k < 4 → s.dev.pins.trained.getD port false = true → size ≠ 8 →
    doorbellPort (Config.doorbellBase k) = some k →
    exec (.doorbellWrite port (Config.doorbellBase k) size value) s =
      .next (s.put ((s.dev.dramWrite (Config.doorbellBase k) (le size value.toNat)).onCtrs (2 * k) fun c =>
        { c with lbxDoorbellIgnored := c.lbxDoorbellIgnored + 1 }))) ∧
  (∀ (q : Nat) (x : Queue) (s : State), s.dev.queue q = some x → 1 ≤ x.unsignalled → x.intEnabled = true →
    exec (.intDelayExpiry q) s = .next (s.put ((s.dev.until (x.unsignalledAt + x.intDelay * 1000)).lbxInterrupt q)) ∧
    (s.dev.lbxRuns x.port = true → ∃ t, exec (.intDelayExpiry q) s = .next t ∧
      t.dev.pins.msix = s.dev.pins.msix ++ [(x.port, x.vector)] ∧
      ∃ y, t.dev.queue q = some y ∧ y.unsignalled = 0 ∧ y.state = x.state ∧ y.cmds = x.cmds))

/-- GET, STAT and LIST (R401, R404, R475, R477). -/
def Obligations.LetterboxReads : Prop :=
  ∀ (q tag : Nat) (c : Cmd) (s : State),
    let e := s.dev.onCmd q tag fun c => { c with waitSince := none }
    let port := s.dev.queuePort q
    (s.dev.fetchedCmd q tag 1 = some c → 1 ≤ c.sub.len → c.sub.len ≤ 2 ^ 32 → s.dev.gate (partitionOf c.sub.id) = .serve →
      isSystemId c.sub.id = false → s.dev.store.securing c.sub.id = false →
      (s.dev.object c.sub.id = none → exec (.get q tag) s =
        .next (s.put (Dev.lbxSettle s.mem (e.lbxFinish q tag St.STO_NO_OBJECT 0)))) ∧
      (∀ o n, s.dev.object c.sub.id = some o → e.store.objReads o = some n → bit c.sub.flags 0 = false →
        c.sub.offset < o.stored.length → let out := cut o.stored c.sub.offset c.sub.len
        s.dev.hostRefused port c.sub.addr out.length true = none →
        exec (.get q tag) s = .next (s.put (Dev.lbxSettle s.mem ((((e.onCtrs (e.servingDie (partitionOf o.id)) fun k =>
          { k with degradedReads := k.degradedReads + n }).hostPut port c.sub.addr out).lbxFinish q tag St.SUCCESS out.length)))))) ∧
    (∀ o, s.dev.fetchedCmd q tag 5 = some c → 64 ≤ c.sub.len → s.dev.gate (partitionOf c.sub.id) = .serve →
      isSystemId c.sub.id = false → s.dev.object c.sub.id = some o → s.dev.hostRefused port c.sub.addr 64 true = none →
      exec (.stat q tag) s = .next (s.put (Dev.lbxSettle s.mem ((e.hostPut port c.sub.addr (s.dev.store.statRecord o)).lbxFinish q tag
        St.SUCCESS o.stored.length)))) ∧
    (s.dev.fetchedCmd q tag 6 = some c → 16 ≤ c.sub.len → c.sub.len ≤ 2 ^ 20 → c.sub.len % 16 = 0 →
      s.dev.gate c.sub.control = .serve →
      let ids := s.dev.store.idsFrom c.sub.control c.sub.id
      let out := ids.take (c.sub.len / 16)
      out ≠ [] → s.dev.hostRefused port c.sub.addr (16 * out.length) true = none →
      exec (.list q tag) s = .next (s.put (Dev.lbxSettle s.mem ((e.hostPut port c.sub.addr (out.flatMap (le 16))).lbxFinish q tag
        St.SUCCESS (out.length + (if ids.length ≤ c.sub.len / 16 then 2 ^ 47 else 0))))))

/-- PUT, DISCARD, SECURE_DISCARD, FLUSH and NOT_READY_TIMEOUT (R400, R405, R408, R425, R432, R434, R476, R477). -/
def Obligations.LetterboxWrites : Prop :=
  ∀ (q tag : Nat) (c : Cmd) (s : State),
    let e := s.dev.onCmd q tag fun c => { c with waitSince := none }
    let port := s.dev.queuePort q
    let p := partitionOf c.sub.id
    (∀ src, s.dev.fetchedCmd q tag 2 = some c → 1 ≤ c.sub.len → c.sub.len ≤ 2 ^ 32 → s.dev.gate p = .serve →
      s.dev.storeRefusal c.sub.id = none → hostRead s.mem s.dev port c.sub.addr c.sub.len = some src →
      (∀ x, putContent c.sub src = .ok x → exec (.put q tag) s = .next (s.put (Dev.lbxSettle s.mem (e.putBegin q tag c.sub x)))) ∧
      (∀ st r, putContent c.sub src = .error (st, r) →
        exec (.put q tag) s = .next (s.put (Dev.lbxSettle s.mem (e.lbxFinish q tag st r))))) ∧
    (s.dev.fetchedCmd q tag 3 = some c → s.dev.gate p = .serve → isSystemId c.sub.id = false → s.dev.store.securing c.sub.id = false →
      (s.dev.object c.sub.id = none →
        exec (.discard q tag) s = .next (s.put (Dev.lbxSettle s.mem (e.lbxFinish q tag St.STO_NO_OBJECT 0)))) ∧
      (∀ o, s.dev.object c.sub.id = some o → 1 ≤ o.pins →
        exec (.discard q tag) s = .next (s.put (Dev.lbxSettle s.mem (e.lbxFinish q tag St.STO_PINNED 0)))) ∧
      (∀ o, s.dev.object c.sub.id = some o → o.pins = 0 →
        let r := (e.onStore fun st => { st with putSeq := st.putSeq.modify p (· + 1) }).pushSync p
          (.discard c.sub.id (p * 2 ^ 48 + s.dev.store.putSeq.getD p 1))
        exec (.discard q tag) s = .next (s.put (Dev.lbxSettle s.mem (r.2.cmdWaits q tag 0 [r.1]))))) ∧
    (∀ o, s.dev.fetchedCmd q tag 4 = some c → s.dev.gate p = .serve → isSystemId c.sub.id = false →
      s.dev.store.securing c.sub.id = false → s.dev.object c.sub.id = some o → o.pins = 0 →
      let r := e.pushSync p (.secureBegin c.sub.id)
      exec (.secureDiscard q tag) s = .next (s.put (Dev.lbxSettle s.mem (r.2.cmdWaits q tag 0 [r.1])))) ∧
    (s.dev.fetchedCmd q tag 7 = some c → s.dev.store.started = true → (∀ x ∈ s.dev.store.parts, x.lazy_ = []) →
      s.dev.store.lazyInFlight = [] →
      exec (.flush q tag) s = .next (s.put (Dev.lbxSettle s.mem (s.dev.lbxFinish q tag St.SUCCESS 0)))) ∧
    (∀ x t, s.dev.queue q = some x → x.cmd tag = some c → c.waitSince = some t → exec (.notReadyTimeout q tag) s =
      .next (s.put (Dev.lbxSettle s.mem ((s.dev.until (t + 30000000000)).lbxFinish q tag St.STO_NOT_READY 0)))) ∧
    (s.dev.fetchedCmd q tag 3 = some c → s.dev.gate p = .wait → exec (.discard q tag) s =
      .next (s.put (Dev.lbxSettle s.mem (s.dev.onCmd q tag fun c => { c with waitSince := some (c.waitSince.getD s.dev.now) }))))

/-- JOURNAL_PAGE_TIMER, NAND_PROGRAM_COMPLETE, NAND_ERASE_COMPLETE and CHECKPOINT (R422, R424, R433, R449). -/
def Obligations.JournalAndNand : Prop :=
  (∀ (p t : Nat) (s : State), p < s.dev.store.parts.length → (s.dev.part p).syncSince = some t → (s.dev.part p).sync ≠ [] →
    s.dev.seqs.powerFailAt = none →
    exec (.journalPageTimer p) s = .next (s.put (((s.dev.until (t + 20000)).onStore fun st => { st with
      programs := st.programs ++ [{ number := st.nextOp, work := .journal p (s.dev.part p).sync }]
      nextOp := st.nextOp + 1 }).onPart p fun x => { x with sync := [], syncSince := none }))) ∧
  (∀ (n : Nat) (x : Program) (s : State), s.dev.store.programs.find? (fun x => x.number == n) = some x →
    let d := s.dev.onStore fun st => { st with programs := st.programs.filter fun y => y.number != n }
    (∀ p recs, x.work = .journal p recs → s.dev.store.journalBehind x = false →
      (exec (.nandProgramComplete n true) s = .next (s.put (Dev.lbxSettle s.mem (d.journalDone p recs)))) ∧
      (exec (.nandProgramComplete n false) s = .next (s.put (Dev.lbxSettle s.mem
        ((s.dev.onCtrs (s.dev.servingDie p) fun c => { c with blocksRetired := c.blocksRetired + 1 }).report St.MED_BLOCK_RETIRED
          { kind := 0x08, die := s.dev.servingDie p }))))) ∧
    (∀ q tag, x.work = .page q tag →
      exec (.nandProgramComplete n true) s = .next (s.put (Dev.lbxSettle s.mem (d.pageDone q tag))))) ∧
  (∀ (block : Nat) (s : State),
    (s.dev.erasable (blockKey block) = true →
      (exec (.nandEraseComplete block true) s =
        .next (s.put (Dev.lbxSettle s.mem ((s.dev.eraseBlock (blockKey block)).secureBlock (blockKey block) true)))) ∧
      (exec (.nandEraseComplete block false) s =
        .next (s.put (Dev.lbxSettle s.mem ((s.dev.retireBlock (blockKey block)).secureBlock (blockKey block) false))))) ∧
    (s.dev.erasable (blockKey block) = false → ∀ ok, exec (.nandEraseComplete block ok) s = .next (s.put s.dev))) ∧
  (∀ (p : Nat) (s : State), p < 8 → (s.dev.part p).ready = true →
    (2 ^ 30 ≤ (s.dev.part p).bytesSince → exec (.checkpoint p) s = .next (s.put (s.dev.pushSync p (.checkpoint 0)).2)) ∧
    ((s.dev.part p).bytesSince < 2 ^ 30 → exec (.checkpoint p) s =
      .next (s.put ((s.dev.until ((s.dev.part p).checkpointAt + 60000000000)).pushSync p (.checkpoint 0)).2)))

/-- NAND_READ_COMPLETE, PATROL_READ, CELL_REFRESH, WEAR_LEVEL, FOLD and GARBAGE_COLLECTION (R410, R412, R420, R445, R446, R448). -/
def Obligations.MediaCare : Prop :=
  (∀ (n : Nat) (x : NandRead) (c : Cell) (o : ReadOutcome) (s : State), s.dev.store.reads.find? (fun x => x.number == n) = some x →
    x.item = none → s.dev.store.cell x.cell = some c →
    let d := s.dev.onStore fun st => { st with reads := st.reads.filter fun y => y.number != n }
    (o.step ≤ 1 → exec (.nandReadComplete n o) s = .next (s.put d)) ∧
    (o.step = 2 → exec (.nandReadComplete n o) s =
      .next (s.put (d.onCtrs (slotSled c.slot / 2) fun k => { k with retryReads := k.retryReads + 1 }))) ∧
    (o.step = 3 → exec (.nandReadComplete n o) s =
      .next (s.put (((d.onCtrs (slotSled c.slot / 2) fun k => { k with softReads := k.softReads + 1 }).onStore fun st =>
        st.onCell x.cell fun c => { c with refreshBy := some (s.dev.now + 60000000000) }).onStore fun st =>
          st.onBlock (blockKey c.slot) fun b => { b with raise := true })))) ∧
  (∀ (n : Nat) (c : Cell) (o : ReadOutcome) (s : State), s.dev.store.cell n = some c → s.dev.store.slotReads c.slot = true →
    (o.step ≤ 1 → exec (.patrolRead n o) s =
      .next (s.put (s.dev.onStore fun st => st.onCell n fun c => { c with patrolledAt := s.dev.now }))) ∧
    (o.step = 2 → 4 ≤ o.depth → exec (.patrolRead n o) s =
      .next (s.put (((s.dev.onCtrs (slotSled c.slot / 2) fun k => { k with retryReads := k.retryReads + 1 }).onStore fun st =>
        st.onCell n fun c => { c with patrolledAt := s.dev.now }).onStore fun st =>
          st.onCell n fun c => { c with refreshBy := some (c.refreshBy.getD (s.dev.now + 60000000000)) })))) ∧
  (∀ (n t : Nat) (c : Cell) (s : State), s.dev.store.cell n = some c →
    (c.refreshBy = some t → exec (.cellRefresh n) s = .next (s.put (s.dev.relocate n))) ∧
    (c.refreshBy = none → exec (.cellRefresh n) s = .next (s.put s.dev))) ∧
  (∀ (lun : Nat) (e : Nat × Nat) (s : State),
    let x := s.dev.store.sled (slotSled (lunKey lun))
    let all := s.dev.store.lunErases (lunKey lun)
    let hi := all.foldl (fun a e => max a e.2) 0
    let lo := all.foldl (fun a e => min a e.2) hi
    (20 * (hi - lo) ≤ x.endurance → exec (.wearLevel lun) s = .next (s.put s.dev)) ∧
    (x.endurance < 20 * (hi - lo) → (all.filter fun e => decide (x.cellsPerBlock ≤ (s.dev.store.block e.1).used)) = [e] →
      exec (.wearLevel lun) s =
        .next (s.put ((s.dev.store.cells.filter fun c => blockKey c.slot == e.1).foldl (fun d c => d.relocate c.number) s.dev)))) ∧
  (∀ (die : Nat) (g : Group) (o : Obj) (stripes : List (List Nat)) (st : Store) (s : State), s.dev.store.foldGroup die = some g →
    (s.dev.store.objs.filter fun o => o.inSlc && cellDie o.firstCell == die && (s.dev.store.objReads o).isSome) = [o] →
    s.dev.object o.id = some o → 1 ≤ s.dev.store.k → s.dev.dieUp die = true →
    s.dev.store.newStripes g s.dev.now ((objPages o.stored.length + s.dev.store.k * 256 - 1) / (s.dev.store.k * 256)) =
      some (stripes, st) → st.objs = s.dev.store.objs →
    ∃ t o', exec (.fold die) s = .next t ∧ t.dev.object o.id = some o' ∧ o'.inSlc = false ∧ o'.stored = o.stored ∧
      o'.firstCell = (stripes.flatMap fun x => x.take st.k).getD 0 0 ∧ o'.firstPage = 0 ∧ o'.putSeq = o.putSeq ∧
      o'.franking = o.franking) ∧
  (∀ (die : Nat) (s : State), s.dev.dieUp die = true →
    (s.dev.garbageCells die = [] → s.dev.compactCell die = none → exec (.garbageCollection die) s = .next (s.put s.dev)) ∧
    (s.dev.garbageCells die ≠ [] → exec (.garbageCollection die) s =
      .next (s.put ((s.dev.garbageCells die).foldl (fun d n => d.freeCell n) (s.dev.onStore fun st => { st with
        stripes := st.stripes.filter fun x => !(x.cells.all fun n => (s.dev.garbageCells die).contains n) })))))

/-- STANDIN_TAKEOVER, REBUILD and PARTITION_TAKEOVER (R407, R408, R454 to R456). -/
def Obligations.StandinsRebuildPartitions : Prop :=
  (∀ (n place t : Nat) (g : Group) (x : Member) (s : State), s.dev.store.groups.find? (fun g => g.number == n) = some g →
    g.members[place]? = some x → s.dev.memberLostAt x = some t →
    (∀ l, g.standin = some l → exec (.standinTakeover n place) s = .next (s.put ((s.dev.until t).takePlace g place l))) ∧
    (g.standin = none → x.lost = true → exec (.standinTakeover n place) s = .next (s.put (s.dev.until t))) ∧
    (g.standin = none → x.lost = false →
      let d := (s.dev.until t).onGroup n fun y => { y with members := y.members.set place { x with lost := true } }
      exec (.standinTakeover n place) s =
        .next (s.put ((d.report St.MED_NO_STANDIN { kind := 0x08, die := n % 8 } (BitVec.ofNat 64 n)).reportGroups
          s.dev.store.groups s.dev.store)))) ∧
  (∀ (n place c f : Nat) (rest : List (Nat × Nat)) (g : Group) (x : Member) (cell : Cell) (str : Stripe) (st : Store) (s : State),
    s.dev.store.groups.find? (fun g => g.number == n) = some g → g.toRebuild = (place, c) :: rest → s.dev.store.cell c = some cell →
    g.members[place]? = some x → s.dev.store.stripeOf c = some str → s.dev.store.stripeReads str = true →
    s.dev.store.allocOn x.lun true s.dev.now = some (f, st) →
    let d := (s.dev.onStore fun _ => st.takeSlot f c s.dev.now).onGroup n fun y => { y with toRebuild := rest }
    exec (.rebuild n) s = .next (s.put (d.pushLazy (cellDie c) (.cellMove c (((d.store.cell c).map (·.slot)).getD 0))))) ∧
  (∀ (p : Nat) (s : State), p < 8 → s.dev.store.started = true →
    ((s.dev.part p).unserved = false → s.dev.dieUp (s.dev.part p).die = true →
      exec (.partitionTakeover p) s = .next (s.put s.dev)) ∧
    (((s.dev.part p).unserved = true ∨ s.dev.dieUp (s.dev.part p).die = false) →
      (s.dev.dieUp p = true →
        exec (.partitionTakeover p) s = .next (s.put (s.dev.onPart p fun x => { x with die := p, unserved := false }))) ∧
      (s.dev.dieUp p = false → s.dev.dieUp ((p + 4) % 8) = true →
        exec (.partitionTakeover p) s = .next (s.put (s.dev.onPart p fun x => { x with die := (p + 4) % 8, unserved := false }))) ∧
      (s.dev.dieUp p = false → s.dev.dieUp ((p + 4) % 8) = false → (s.dev.part p).unserved = false →
        exec (.partitionTakeover p) s = .next (s.put ((s.dev.onPart p fun x => { x with unserved := true }).report
          St.STO_PARTITION_UNSERVED (storeUnit 0) (BitVec.ofNat 64 p))))))

/-- SLED_ADMISSION_COMPLETE, PARK_COMPLETE, ATTENTION_BUTTON and SURPRISE_REMOVAL (R457 to R461). -/
def Obligations.SledEvents : Prop :=
  (∀ (slot mode p : Nat) (erase : Bool) (s : State), (s.dev.store.sled slot).admission = some (mode, erase, some p) →
    (s.dev.store.sled slot).present = true → s.dev.busIsolated (slot / 2) (slot % 2) = false →
    (s.dev.store.labelRefusal slot mode erase = none →
      exec (.sledAdmissionComplete slot .ok) s = .next (s.put ((s.dev.joinSled slot mode erase).answer p {}))) ∧
    (∀ st, s.dev.store.labelRefusal slot mode erase = some st →
      exec (.sledAdmissionComplete slot .ok) s = .next (s.put (((s.dev.sledOff slot .failed true).journalCopies).answer p (fail st)))) ∧
    (exec (.sledAdmissionComplete slot .badDescriptor) s =
      .next (s.put (((s.dev.sledOff slot .failed true).journalCopies).answer p (fail St.MED_SLED_DESCRIPTOR))))) ∧
  (∀ (slot t p : Nat) (s : State), slot < 16 → s.dev.store.sleds.length = 16 → s.dev.dies.length = 8 →
    (s.dev.store.sled slot).prepare = some (false, t, some p) →
    ∃ u : Dev, exec (.parkComplete slot) s = .next (s.put (u.answer p {})) ∧ (u.store.sled slot).state = .parked ∧
      (u.store.sled slot).prepare = none ∧ (u.store.sled slot).ledPower = 0 ∧
      (u.die (slot / 2)).domains.getLsbD (11 + slot % 2) = false) ∧
  (∀ (slot : Nat) (s : State), slot < 16 → s.dev.seqs.powerFailAt = none → s.dev.store.started = true →
    ((s.dev.store.sled slot).state = .inService → exec (.attentionButton slot) s =
      .next (s.put ((s.dev.onSled slot fun x => { x with
        state := .preparing
        prepare := some (false, s.dev.now, none)
        ledPower := 2 }).onStore fun st => { st with streams := st.streams.map (st.offSled slot) }))) ∧
    (∀ e t, (s.dev.store.sled slot).state = .preparing → (s.dev.store.sled slot).prepare = some (e, t, none) →
      s.dev.now ≤ t + 5000000000 → exec (.attentionButton slot) s =
        .next (s.put (s.dev.onSled slot fun x => { x with state := .inService, prepare := none, ledPower := 1 }))) ∧
    ((s.dev.store.sled slot).state = .parked → (s.dev.store.sled slot).present = true →
      (s.dev.store.sled slot).label = some (s.dev.store.identity, slot) → exec (.attentionButton slot) s =
        .next (s.put ((s.dev.onSled slot fun x => { x with state := .admitting, admission := some (0, false, none) }).setDomain
          (slot / 2) (11 + slot % 2) true)))) ∧
  (∀ (slot : Nat) (s : State), slot < 16 → s.dev.store.sleds.length = 16 → (s.dev.store.sled slot).present = true →
    ((s.dev.store.sled slot).state = .parked → exec (.surpriseRemoval slot) s =
      .next (s.put ((s.dev.onSled slot fun x => { x with present := false }).sledOff slot .empty false))) ∧
    ((s.dev.store.sled slot).state = .inService → s.dev.dies.length = 8 →
      ∃ t, exec (.surpriseRemoval slot) s = .next t ∧ (t.dev.store.sled slot).present = false ∧
        (t.dev.store.sled slot).state = .empty ∧ (t.dev.die (slot / 2)).domains.getLsbD (11 + slot % 2) = false))

/-- LOCAL_READ_ISSUE, STORE_READ_COMPLETE and BUFFER_GRANT (R93, R94, R115, R210, R497). -/
def Obligations.LocalReads : Prop :=
  (∀ (die : Nat) (s : State), s.dev.dieUp die = true →
    (s.dev.nextLocal die = none → exec (.localReadIssue die) s = .next (s.put s.dev)) ∧
    (∀ b x o e d, s.dev.nextLocal die = some (b, x) →
      let f := s.dev.onFetch die fun f => { f with lastBucket := some b }
      f.sampleObject x.item = some o → f.entry x.item = some e → f.storedBuffer x.item e.storedLen = (d, true) →
      exec (.localReadIssue die) s = .next (s.put ((d.onEntry x.item fun e => { e with state := .readIssued }).onStore fun st => { st with
        reads := st.reads ++ [{ number := d.store.nextOp, cell := o.firstCell, item := some x.item, id := o.id, full := e.rereads != 0 }]
        nextOp := st.nextOp + 1 })))) ∧
  (∀ (i : ItemRef) (e : Entry) (st : Status) (s : State), (∃ x ∈ s.dev.store.reads, x.item = some i) → s.dev.entry i = some e →
    e.state = .readIssued →
    let d := s.dev.onStore fun st => { st with reads := st.reads.filter fun x => x.item != some i }
    (exec (.storeReadComplete i false st) s =
      .next (s.put (d.itemFail i { status := St.SRT_LOCAL_READ, detail := st.toNat }))) ∧
    (∀ o, d.sampleObject i = some o → d.store.objReads o = some 0 →
      exec (.storeReadComplete i true st) s = .next (s.put ((d.onCtrs (d.servingDie (partitionOf o.id)) fun c => c).toStored i o.stored))) ∧
    (d.sampleObject i = none → exec (.storeReadComplete i true st) s =
      .next (s.put (d.itemFail i { status := St.SRT_LOCAL_READ, detail := St.STO_NO_OBJECT.toNat })))) ∧
  (∀ (stack : Nat) (s : State),
    (s.dev.nextWaiter stack = none → exec (.bufferGrant stack) s = .next (s.put s.dev)) ∧
    (∀ w, s.dev.nextWaiter stack = some w →
      exec (.bufferGrant stack) s = .next (s.put (w.storedItems.foldl Dev.postRead (s.dev.grantNext stack)))))

/-- FETCH_REQUEST_SEND, RELEASE_ONLY_SEND, FETCH_REQUEST, STAGING_COMPLETE, STAGING_LEASE_END, FETCH_REPLY, HOME_BUSY_RETRY,
PRIMARY_RETRY and FETCH_DEADLINE (R95, R97, R98, R100, R108). -/
def Obligations.RemoteFetches : Prop :=
  (∀ (die peer segment : Nat) (x : Pending) (s : State), s.dev.dieUp die = true → s.dev.connected peer = true →
    firstPending (s.dev.fetchable die peer segment) = some x → x.urgent = true →
    (s.dev.die die).fetch.requestsTo peer < 16 → (s.dev.die die).fetch.outstanding.length + 64 ≤ 65536 →
    let ps := takePending 64 (s.dev.travelWith x (s.dev.fetchable die peer segment))
    x ∈ ps → exec (.fetchRequestSend die peer segment) s = .next (s.put (s.dev.sendFetch die peer segment x ps))) ∧
  (∀ (die peer : Nat) (r : HandleBack) (s : State), s.dev.dieUp die = true → s.dev.connected peer = true →
    (s.dev.die die).fetch.releasesTo peer = [r] →
    exec (.releaseOnlySend die peer) s = .next (s.put (((s.dev.until (r.since + 1000000)).onFetch die fun f =>
      { f with releases := f.releases.filter fun x => !([r].contains x) }).post peer
        { op := .send, bytes := fetchRequestBytes false (zeros 8) 0 [] [r.handle], purpose := .fetchRequest die }))) ∧
  (∀ (qpn : Nat) (c : Conn) (b : Bytes) (s : State), s.dev.dieUp (qpnDie qpn) = true → s.dev.conn qpn = some c →
    c.state = .connected → c.kind ≠ 0 → b.length ≤ 65568 →
    let d := (s.dev.sendArrived qpn b).2
    (fetchFramed b = false → exec (.fetchRequest qpn b) s = .next (s.put d)) ∧
    (fetchFramed b = true → 1 ≤ fld b 4 2 → (∀ l ∈ d.leases, l.qpn = qpn → l.handle ∉ fetchHandles b) →
      let x : Staging := { request := d.nextStaging, qpn := qpn, digest8 := cut b 8 8, segment := fld b 16 4, entries := fetchEntries b }
      exec (.fetchRequest qpn b) s =
        .next (s.put { d with stagings := d.stagings ++ [x], nextStaging := d.nextStaging + fld b 4 2 })) ∧
    (b.take 4 = ascii "FTRP" → b.length = 8 + 56 * fld b 4 2 →
      exec (.fetchReply qpn b) s = .next (s.put (d.replyEntries qpn (rowsOf 56 (b.drop 8))))) ∧
    (b.take 4 ≠ ascii "FTRP" → exec (.fetchReply qpn b) s = .next (s.put d))) ∧
  (∀ (n : Nat) (x : Staging) (s : State), s.dev.stagings.find? (fun x => x.request == n) = some x → s.dev.dieUp (qpnDie x.qpn) = true →
    (∀ e ∈ x.entries, s.dev.stagedManifest x e = none) →
    exec (.stagingComplete n) s = .next (s.put (({ s.dev with
      stagings := s.dev.stagings.filter fun y => y.request != n } : Dev).post x.qpn
      { op := .send, bytes := ascii "FTRP" ++ le 2 x.entries.length ++ zeros 2 ++
          x.entries.flatMap fun e => refusedEntry e.tag St.SRT_FETCH_REFUSED, purpose := .fetchReply n }))) ∧
  (∀ (h : Nat) (l : Lease) (s : State), s.dev.leases.find? (fun l => l.handle == h) = some l →
    exec (.stagingLeaseEnd h) s = .next (s.put (({ s.dev.until l.ends with
      leases := s.dev.leases.filter fun x => x.handle != h } : Dev).revoke l.die l.entry none))) ∧
  (∀ (i : ItemRef) (e : Entry) (t : Nat) (s : State), s.dev.entry i = some e → e.remote.retryAt = some t → e.state = .readIssued →
    (e.remote.busy = true → exec (.homeBusyRetry i) s = .next (s.put ((s.dev.until t).refetch i e.remote.toAlternate)) ∧
      exec (.primaryRetry i) s = .next (s.put s.dev)) ∧
    (e.remote.busy = false → exec (.primaryRetry i) s = .next (s.put ((s.dev.until t).refetch i false)) ∧
      exec (.homeBusyRetry i) s = .next (s.put s.dev))) ∧
  (∀ (i : ItemRef) (j : Job) (e : Entry) (s : State), s.dev.job i.job = some j → s.dev.entry i = some e → e.state = .readIssued →
    s.dev.isLocal j e.index = false → e.remote.staged = false →
    exec (.fetchDeadline i) s = .next (s.put
      (((s.dev.until (e.remote.first + 2000000000)).dropFetch i).itemFail i { status := St.SRT_HOME_UNREACHABLE })))

/-- The 36 engine operations: issued to the free engine of lowest number (R120), running the operation of Table 4.6 on the stage's
operands (R113). -/
def Obligations.EngineStagesIssued : Prop :=
  ∀ (c : CoreRef) (i : ItemRef) (s : State),
  let ops : List (Instr × Nat × Nat × (StageCtx → Run)) := [
    (.inflateRaw c i, 1, 1, runDecode 1), (.inflateZlib c i, 1, 2, runDecode 2), (.inflateGzip c i, 1, 3, runDecode 3),
    (.decodeZstd c i, 1, 4, runDecode 4), (.decodeAuto c i, 1, 5, runDecode 5), (.deflateRaw c i, 1, 0x11, runEncode 0x11),
    (.deflateZlib c i, 1, 0x12, runEncode 0x12), (.deflateGzip c i, 1, 0x13, runEncode 0x13),
    (.encodeZstd c i, 1, 0x14, runEncode 0x14), (.decodeJpeg c i, 2, 1, runJpeg), (.decodePng c i, 2, 2, runPng),
    (.decodeImage c i, 2, 3, runImage), (.decodeSequence c i, 2, 4, runSequence), (.decodeTensor c i, 2, 5, runTensor),
    (.decodeWav c i, 2, 0x11, runWav), (.decodeFlac c i, 2, 0x12, runFlac), (.decodeAudio c i, 2, 0x13, runAudio),
    (.crop c i, 3, 1, runCrop), (.flipRotate c i, 3, 2, runFlipRotate), (.resize c i, 3, 3, runResize),
    (.colour c i, 3, 4, runColour), (.normalise c i, 3, 5, runNormalise), (.layout c i, 3, 6, runLayout),
    (.cutout c i, 3, 7, runCutout), (.mix c i, 3, 8, runMix), (.convert c i, 3, 9, runConvert),
    (.spectrum c i, 3, 0x10, runSpectrum), (.tokenise c i, 4, 1, runTokenise), (.detokenise c i, 4, 2, runDetokenise),
    (.place c i, 5, 1, runPlace), (.placeScalar c i, 5, 2, runPlaceScalar), (.packTokens c i, 5, 3, runPackTokens),
    (.copy c i, 6, 1, runCopy), (.slice c i, 6, 2, runSlice), (.checkFrank c i, 6, 3, runCheckFrank), (.fill c i, 6, 4, runFill)]
  ∀ op ∈ ops,
    (s.dev.readyStage c i = none → exec op.1 s = .next (s.put s.dev)) ∧
    (∀ st, s.dev.readyStage c i = some st → (st.engine ≠ op.2.1 ∨ st.opcode ≠ op.2.2.1) → exec op.1 s = .next (s.put s.dev)) ∧
    (∀ j e st slot, s.dev.job i.job = some j → s.dev.entry i = some e → s.dev.readyStage c i = some st → st.engine = op.2.1 →
      st.opcode = op.2.2.1 → s.dev.firstReady c (kindOf st) i = true → s.dev.freeEngine c (kindOf st) = some slot →
      let ctx : StageCtx := { r := j.routeOfEntry i.rank e, s := st, e := e, seed := j.seed, w := j.w, b := j.b, vocabs := s.dev.vocabs }
      let run := op.2.2.2 ctx
      exec op.1 s = .next (s.put (((s.dev.onCore c fun x =>
        { x with busy := x.busy ++ [{ slot := slot, item := i, stage := e.stage, since := s.dev.now }] }).onEntry i fun e =>
        { e with
          running := true
          result := some run.result
          tokFlags := (run.tok.map (·.flags)).getD e.tokFlags
          placed := e.placed ++ run.placed.toList
          tokens := if run.tokens.isSome then run.tokens else e.tokens }).onJobCtrs i.job (run.count e))))

/-- ITEM_START, STAGE_COMPLETE and ENGINE_WATCHDOG (R115, R119, R121, R122, R152, R633). -/
def Obligations.ItemsStartAndStagesEnd : Prop :=
  (∀ (c : CoreRef) (s : State), s.dev.engineUp c 9 = true →
    ((s.dev.core c).sack = [] → exec (.itemStart c) s = .next (s.put s.dev)) ∧
    (∀ i j e, (s.dev.core c).sack.head? = some i → s.dev.job i.job = some j → s.dev.entry i = some e →
      (64 ≤ (s.dev.core c).flight.length → exec (.itemStart c) s = .next (s.put s.dev)) ∧
      ((s.dev.core c).flight.length < 64 →
        (∀ st, s.dev.startFailure j i e = some st →
          exec (.itemStart c) s = .next (s.put ((s.dev.itemFail i { status := st }).releaseOlds i.job))) ∧
        (s.dev.startFailure j i e = none →
          let small := j.placed i e 0
          let w : BufWait := { requester := 4 + i.job, parts := (j.placed i e 1).map fun b => (Use.item i b.1, b.2),
                               cluster := (s.dev.physical c).map (·.1), owner := s.dev.seqUnit c }
          let wait := fun (d : Dev) => if e.waitCounted then d
            else (d.onEntry i fun e => { e with waitCounted := true }).onCtrs c.die fun k => { k with startWaits := k.startWaits + 1 }
          ((s.dev.core c).placeAll i small = none → exec (.itemStart c) s = .next (s.put (wait s.dev))) ∧
          (∀ x d, (s.dev.core c).placeAll i small = some x → s.dev.allocate c.die w = (d, false) →
            exec (.itemStart c) s = .next (s.put (wait d))) ∧
          (∀ x d, (s.dev.core c).placeAll i small = some x → s.dev.allocate c.die w = (d, true) →
            exec (.itemStart c) s = .next (s.put (((d.onCore c fun y =>
              let y := (y.placeAll i small).getD y
              { y with sack := y.sack.filter (· != i), flight := y.flight ++ [i] }).bufShare (d.postDie i) (.stored i)).onEntry i fun e =>
                { e with started := true, stage := 0 })))))))  ∧
  (∀ (c : CoreRef) (i : ItemRef) (ranNs : Nat) (j : Job) (e : Entry) (st : Stage) (b : Busy) (s : State),
    s.dev.job i.job = some j → s.dev.entry i = some e → s.dev.stageAt i = some st →
    (s.dev.core c).busy.find? (fun b => b.item == i) = some b → e.running = true → e.core = some c →
    let d1 := (s.dev.until (b.since + ranNs)).onCore c fun x => { x with busy := x.busy.filter fun y => y.item != i }
    let d := d1.onEntry i fun e => { e with
      running := false, result := none, ran := e.ran.modify (kindOf st) (· + d1.scaled 1 ranNs) }
    (∀ out, e.result = some (.ok out) → exec (.stageComplete c i ranNs) s = .next (s.put (d.stagePassed c j i e st out))) ∧
    (∀ st' detail crc, e.result = some (.err st' detail crc) → st.doubtsStored st' = false →
      let f : Failure := { status := st', detail := if st' = St.INFL_FRANKING then crc.getD 0 else detail, stage := st.index }
      exec (.stageComplete c i ranNs) s = .next (s.put ((d.itemFail i f).releaseOlds i.job))) ∧
    (∀ st' detail crc, e.result = some (.err st' detail crc) → st.doubtsStored st' = true → e.rereads = 0 →
      exec (.stageComplete c i ranNs) s = .next (s.put (d.reread i st.index crc)))) ∧
  (∀ (c : CoreRef) (slot : Nat) (b : Busy) (s : State), slot < 7 → s.dev.engineUp c slot = true →
    (s.dev.core c).busy.find? (fun b => b.slot == slot) = some b →
    exec (.engineWatchdog c slot) s = .next (s.put (((s.dev.until (b.since + 10000000)).onCtrs c.die fun k =>
      { k with engineWatchdog := k.engineWatchdog + 1 }).report St.FLT_WATCHDOG (s.dev.engineUnit c slot))))

/-- SETTLE_REQUEST, SETTLE_REPLY and SETTLE_TIMEOUT, and what begins a settlement (R153, R516 to R518). -/
def Obligations.Settlement : Prop :=
  (∀ (c : CoreRef) (i : ItemRef) (ranNs : Nat) (j : Job) (e : Entry) (st : Stage) (b : Busy) (crc : Nat) (detail : Nat) (s : State),
    s.dev.job i.job = some j → s.dev.entry i = some e → s.dev.stageAt i = some st →
    (s.dev.core c).busy.find? (fun b => b.item == i) = some b → e.running = true → e.core = some c → st.franks = true →
    e.result = some (.err St.INFL_FRANKING detail (some crc)) → e.rereads ≠ 0 → e.settled = false → e.firstCrc = some crc →
    let d1 := (s.dev.until (b.since + ranNs)).onCore c fun x => { x with busy := x.busy.filter fun y => y.item != i }
    let d := d1.onEntry i fun e => { e with
      running := false, result := none, ran := e.ran.modify (kindOf st) (· + d1.scaled 1 ranNs) }
    exec (.stageComplete c i ranNs) s = .next (s.put (d.settleBegin j i e))) ∧
  (∀ (qpn : Nat) (c : Conn) (b : Bytes) (reply : Option Bytes) (s : State), qpn ≠ ownPost → s.dev.dieUp (qpnDie qpn) = true →
    s.dev.conn qpn = some c → c.state = .connected → c.kind ≠ 0 → b.length ≤ 65568 →
    let d := (s.dev.sendArrived qpn b).2
    (settleFramed "STLQ" b = false → exec (.settleRequest qpn b reply) s = .next (s.put d)) ∧
    (settleFramed "STLQ" b = true → fld b 20 4 = 0 → ∀ x m dir, d.settleEntry b = some (x, m, dir) →
      exec (.settleRequest qpn b reply) s = .next (s.put (d.post qpn
        { op := .send, bytes := settleMsg "STLR" 0 (cut b 8 8) (fld b 16 4) dir (fld b 24 8), purpose := .settle none }))) ∧
    (settleFramed "STLQ" b = true → fld b 20 4 ≠ 0 →
      let answer := fun (st : Status) =>
        ({ op := .send, bytes := settleMsg "STLR" st (cut b 8 8) (fld b 16 4) (fld b 20 4) (fld b 24 8), purpose := .settle none } : Wr)
      (d.settleEntry b = none → exec (.settleRequest qpn b reply) s = .next (s.put
        (((d.onInteg (qpnDie qpn) fun k => { k with settleUndecided := k.settleUndecided + 1 }).report St.INT_SETTLE_UNDECIDED
          (storeUnit (qpnDie qpn))).post qpn (answer St.INT_SETTLE_UNDECIDED)))) ∧
      (∀ x m dir o v r, d.settleEntry b = some (x, m, dir) → d.settleAlternate x (fld b 16 4) = none → d.object m.id = some o →
        d.readObj o = (.ok v, r) → o.franking = dir → dir ≠ fld b 20 4 →
        let die := d.servingDie (partitionOf m.id)
        exec (.settleRequest qpn b reply) s = .next (s.put
          (((r.onInteg die fun k => { k with settleBytes := k.settleBytes + 1 }).report St.INT_SETTLE_BYTES (storeUnit die)).post qpn
            (answer St.INT_SETTLE_BYTES)))))) ∧
  (∀ (qpn : Nat) (c : Conn) (b : Bytes) (s : State), s.dev.dieUp (qpnDie qpn) = true →
    s.dev.conn qpn = some c → c.state = .connected → c.kind ≠ 0 → b.length ≤ 65568 →
    let d := (s.dev.sendArrived qpn b).2
    (settleFramed "STLR" b = false → exec (.settleReply qpn b) s = .next (s.put d)) ∧
    (settleFramed "STLR" b = true → d.settleItems b = [] → exec (.settleReply qpn b) s = .next (s.put d)) ∧
    (∀ i, settleFramed "STLR" b = true → d.settleItems b = [i] →
      (BitVec.ofNat 16 (fld b 4 2) = St.INT_CHECK_REPAIRED → exec (.settleReply qpn b) s = .next (s.put
        ((d.onEntry i fun e => { e with settling := none, settled := true, franking := fld b 20 4 }).itemRestart i (d.stageIndex i) none
          false).1)) ∧
      (BitVec.ofNat 16 (fld b 4 2) ≠ St.INT_CHECK_REPAIRED → ∀ e, d.entry i = some e → exec (.settleReply qpn b) s = .next (s.put
        (d.itemFail i { status := St.INFL_FRANKING, detail := e.firstCrc.getD 0, stage := d.stageIndex i, stored := true }))))) ∧
  (∀ (i : ItemRef) (e : Entry) (t : Nat) (s : State), s.dev.entry i = some e → e.settling = some t →
    let d := s.dev.until (t + 2000000000)
    exec (.settleTimeout i) s = .next (s.put (d.itemFail i
      { status := St.INFL_FRANKING, detail := e.firstCrc.getD 0, stage := d.stageIndex i, fault := true, stored := true })))

/-- BARRIER_ARRIVE, BARRIER_RELEASE and BARRIER_ABORT (R387 to R391, R393, R395). -/
def Obligations.BarrierMessages : Prop :=
  ∀ (qpn : Nat) (c : Conn) (b : Bytes) (s : State), s.dev.dieUp (qpnDie qpn) = true → s.dev.conn qpn = some c → c.state = .connected →
  c.kind ≠ 0 → b.length ≤ 65568 →
  let d := (s.dev.sendArrived qpn b).2
  (barrierFramed b = false → ∀ e ∈ [Instr.barrierArrive qpn b, .barrierRelease qpn b, .barrierAbort qpn b],
    exec e s = .next (s.put (d.onCtrs (qpnDie qpn) fun k => { k with barrierBadMsg := k.barrierBadMsg + 1 }))) ∧
  (barrierFramed b = true → fld b 6 1 = 1 → ∀ j, d.jobOfChild qpn b = some j → d.job j.handle = some j →
    let seen := untimed b ∈ j.barrier.accepted ∨ untimed b ∈ j.barrier.before ∨ ∃ x ∈ j.barrier.early, x.body = untimed b
    (seen → exec (.barrierArrive qpn b) s = .next (s.put (d.onJobCtrs j.handle fun k => { k with dupBarrier := k.dupBarrier + 1 }))) ∧
    (¬seen → j.barrier.held = false → j.barrier.aborted = false → j.barrier.opened = false →
      exec (.barrierArrive qpn b) s = .next (s.put (d.onBarrier j.handle fun x =>
        { x with early := x.early ++ [arrivalOf b d.now] }))) ∧
    (¬seen → j.barrier.held = false → j.barrier.aborted = false → j.barrier.opened = true → fld b 32 4 ≠ j.barrier.number + 1 →
      (∀ st, d.arriveFault j (untimed b) = some st →
        exec (.barrierArrive qpn b) s = .next (s.put ((d.report st { kind := 0x11, die := j.barrier.die }
          (BitVec.ofNat 64 (fld b 36 4))).abortRise j.handle st (fld b 36 4)))) ∧
      (d.arriveFault j (untimed b) = none → (∀ x ∈ j.barrier.arrivals, x.from_ ≠ fld b 36 4) →
        exec (.barrierArrive qpn b) s = .next (s.put ((d.onBarrier j.handle fun x => { x with
          arrivals := x.arrivals ++ [arrivalOf b d.now]
          accepted := x.accepted ++ [untimed b] }).boxCheck j.handle))))) ∧
  (barrierFramed b = true → fld b 6 1 = 2 → ∀ j, d.jobOfParent qpn b = some j → untimed b ∉ j.barrier.accepted → untimed b ∉ j.barrier.before →
    (j.barrier.opened = true → fld b 32 4 = j.barrier.number → j.barrier.release = none → j.barrier.sentAt.isSome = true →
      exec (.barrierRelease qpn b) s = .next (s.put ((((d.onBarrier j.handle fun x => { x with accepted := x.accepted ++ [untimed b] }).offsetTaken j
        (releaseOffset b d.now)).releaseDown j.handle (fld b 96 8)).releaseTaken j.handle (fld b 96 8)))) ∧
    (fld b 32 4 ≠ j.barrier.number → exec (.barrierRelease qpn b) s = .next (s.put d))) ∧
  (barrierFramed b = true → fld b 6 1 = 3 → ∀ j, d.jobOfParent qpn b = some j →
    (fld b 32 4 ≠ j.barrier.number → exec (.barrierAbort qpn b) s = .next (s.put d)) ∧
    (fld b 32 4 = j.barrier.number → j.barrier.held = false → j.barrier.opened = true →
      exec (.barrierAbort qpn b) s = .next (s.put
        ((d.abortDown j.handle (BitVec.ofNat 16 (fld b 108 2)) (fld b 112 4)).abortActed j.handle (BitVec.ofNat 16 (fld b 108 2))
          (fld b 112 4)))))

/-- BARRIER_COMPLETE and BARRIER_TIMEOUT, and the device box (R386, R388, R390, R391, R394). -/
def Obligations.BarriersEnd : Prop :=
  (∀ (job : Nat) (j : Job) (s : State), s.dev.job job = some j →
    (j.barrier.release = none → exec (.barrierComplete job) s = .next (s.put s.dev)) ∧
    (∀ t, j.barrier.release = some t →
      (s.dev.clk.tickStart < t → exec (.barrierComplete job) s = .next (s.put s.dev)) ∧
      (t ≤ s.dev.clk.tickStart →
        let r := s.dev.clk.tick - (s.dev.clk.tickStart - t) / (s.dev.clk.period * 10)
        (j.barrier.number = 0 →
          let d := s.dev.onJob j.handle fun j => { j with state := .running, t0 := r + 1, openFrom := r + 1 }
          let d := j.ranks.foldl (fun (d : Dev) (x : Rank) => d.advance j.handle x.rank) d
          exec (.barrierComplete job) s = .next (s.put
            (((d.answerTo j.barrier.ph { body := le 8 (r + 1) }).onBarrier j.handle fun b => { b with ph := none }).openBarrier j.handle
              (j.openEpoch + 1)))) ∧
        (j.barrier.number ≠ 0 → exec (.barrierComplete job) s = .next (s.put
          ((s.dev.onJob j.handle fun x => { x with openEpoch := j.barrier.number, openFrom := r }).openBarrier j.handle
            (j.barrier.number + 1))))))) ∧
  (∀ (job t : Nat) (j : Job) (s : State), s.dev.job job = some j → j.barrier.opened = true → j.barrier.release = none →
    j.barrier.held = false → (if j.barrier.number = 0 then some j.barrier.begun else j.barrier.sentAt) = some t →
    let d := (s.dev.until (t + j.barrierTimeout * 1000000000)).report St.SYN_BARRIER_TIMEOUT { kind := 0x11, die := j.barrier.die }
      (BitVec.ofNat 64 j.deviceIndex)
    exec (.barrierTimeout job) s = .next (s.put (((d.abortUp job St.SYN_BARRIER_TIMEOUT j.deviceIndex).abortDown job
      St.SYN_BARRIER_TIMEOUT j.deviceIndex).abortActed job St.SYN_BARRIER_TIMEOUT j.deviceIndex))) ∧
  (∀ (job : Nat) (j : Job) (d : Dev), d.job job = some j →
    (j.boxFull = false → d.boxCheck job = d) ∧
    (j.boxFull = true → j.barrier.sentAt = none → j.barrier.aborted = false → j.deviceIndex ≠ 0 →
      d.boxCheck job = (d.onBarrier job fun b => { b with sentAt := some d.now }).sendUp job (d.barrierBytes j
        { kind := 1, barrier := j.barrier.number, from_ := j.deviceIndex, count := j.sums.count, sumR := j.sums.sumR, sumR2 := j.sums.sumR2,
          sealed_ := j.sums.sealed_, recordCrc := if j.barrier.number = 0 then j.barrier.recordCrc else 0 })) ∧
    (j.boxFull = true → j.barrier.sentAt = none → j.barrier.aborted = false → j.deviceIndex = 0 → sumsMatch j.w j.sums = true →
      d.boxCheck job = (d.onBarrier job fun b => { b with sentAt := some d.now }).rootRelease job) ∧
    (∀ st origin, j.barrier.number ≠ 0 → d.abortActed job st origin =
      ((d.onJob job fun j => { j with abortStatus := st, abortOrigin := origin, barrier := { j.barrier with aborted := true } }).onBarrier job
        fun b => { b with held := true, opened := false })))

/-- LOAD, STORE, LOAD_TAKE, LOAD_PEEK, STORE_FILL, SET_EMPTY, WATCH and WATCH_RETRY (R374, R376, R377, R379, R380, R528). -/
def Obligations.ScratchAccesses : Prop :=
  ∀ (c : CoreRef) (i : Issuer) (addr : Nat) (v : BitVec 64) (full : Bool) (tag : BitVec 16) (s : State),
  let d := s.dev
  let a := addr % scratchWords
  let x := d.core c
  d.coreRuns c = true →
  (d.isFenced (d.engineUnit c (issuerSlot i)) = true →
    ∀ e ∈ [Instr.load c i addr, .store c i addr v, .loadTake c i addr, .loadPeek c i addr, .storeFill c i addr v,
        .watch c i addr full tag, .watchRetry c i],
      exec e s = .next (s.put (d.onFc c.die fun k => { k with ctrs := { k.ctrs with fenceDrops := k.ctrs.fenceDrops + 1 } }))) ∧
  (d.isFenced (d.engineUnit c (issuerSlot i)) = false →
    (∀ p ∈ (d.die c.die).scb.planted, p.1 = true ∨ p.2.1 ≠ d.macroOf c a) →
    x.precedent a = none → (∀ acc, x.wokenFor a i acc = none) →
    exec (.load c i addr) s = .next (s.put (d.onCore c fun x => x.gave i (x.word a).value)) ∧
    exec (.store c i addr v) s = .next (s.put ((d.wordWritten c a).onCore c fun x => x.setWord a v (x.word a).full)) ∧
    ((x.word a).full = true →
      exec (.loadTake c i addr) s = .next (s.put ((d.onCore c fun x => x.gave i (x.word a).value).onCore c fun x =>
        (x.setWord a (x.word a).value false).wake a false)) ∧
      exec (.loadPeek c i addr) s = .next (s.put (d.onCore c fun x => x.gave i (x.word a).value))) ∧
    ((x.word a).full = false →
      exec (.storeFill c i addr v) s = .next (s.put ((d.wordWritten c a).onCore c fun x => (x.setWord a v true).wake a true)) ∧
      exec (.loadTake c i addr) s = .next (s.put { (d.onCore c fun x => x.register
        { addr := a, awaitFull := true, waiter := i, tag := Config.freeTag d.free, access := .take, overtaken := 0 }) with
        free := d.free + 1 }) ∧
      exec (.loadPeek c i addr) s = .next (s.put { (d.onCore c fun x => x.register
        { addr := a, awaitFull := true, waiter := i, tag := Config.freeTag d.free, access := .peek, overtaken := 0 }) with
        free := d.free + 1 })) ∧
    ((x.word a).full = true →
      exec (.storeFill c i addr v) s = .next (s.put { (d.onCore c fun x => x.register
        { addr := a, awaitFull := false, waiter := i, tag := Config.freeTag d.free, access := .fill v, overtaken := 0 }) with
        free := d.free + 1 })) ∧
    exec (.watch c i addr full tag) s = .next (s.put (d.onCore c fun x =>
      if (x.word a).full = full then { x with wakes := x.wakes ++ [(i, tag, a)] }
      else x.register { addr := a, awaitFull := full, waiter := i, tag := tag, access := .explicit }))) ∧
  (d.isFenced (d.engineUnit c 9) = false →
    exec (.setEmpty c addr) s = .next (s.put (d.onCore c fun x =>
      if (x.word a).full then (x.setWord a (x.word a).value false).wake a false else x))) ∧
  (d.isFenced (d.engineUnit c (issuerSlot i)) = false → ∀ w, x.slotless.find? (fun w => w.waiter == i) = some w →
    let y := d.onCore c fun x => { x with slotless := x.slotless.erase w }
    ((x.word w.addr).full ≠ w.awaitFull → x.slotsUsed < 256 →
      exec (.watchRetry c i) s = .next (s.put (y.onCore c fun x => { x with watches := x.watches ++ [w] }))) ∧
    ((x.word w.addr).full ≠ w.awaitFull → 256 ≤ x.slotsUsed →
      exec (.watchRetry c i) s = .next (s.put (d.onCore c fun x => { x with slotWaits := x.slotWaits + 1 }))) ∧
    ((x.word w.addr).full = w.awaitFull → w.access = .explicit →
      exec (.watchRetry c i) s = .next (s.put (y.onCore c fun x => { x with wakes := x.wakes ++ [(w.waiter, w.tag, w.addr)] }))) ∧
    ((x.word w.addr).full = w.awaitFull → w.access ≠ .explicit → x.precedent w.addr = none →
      exec (.watchRetry c i) s = .next (s.put (y.scratchDo c i w.addr w.access))))

/-- A scratch word reads as written, and who is woken (R373, R374, R377, R379, R380). -/
def Obligations.ScratchWordsAndWakes : Prop :=
  (∀ (x : Core) (a : Nat) (v : BitVec 64) (f : Bool), x.scratch.Pairwise (fun p q => p.addr < q.addr) →
    ((x.setWord a v f).word a).value = v ∧ ((x.setWord a v f).word a).full = f ∧
    (∀ b, b ≠ a → (x.setWord a v f).word b = x.word b) ∧
    (x.setWord a v f).scratch.Pairwise (fun p q => p.addr < q.addr)) ∧
  (∀ (x : Core) (a : Nat) (full : Bool),
    let hit := fun (w : Watch) => w.addr = a ∧ w.awaitFull = full ∧ w.woken = false
    (x.wake a full).wakes = x.wakes ++ ((x.watches.filter fun w => decide (hit w)).map fun w => (w.waiter, w.tag, w.addr)) ∧
    (∀ w ∈ (x.wake a full).watches, ¬hit w) ∧
    (∀ w ∈ x.watches, ¬hit w → w ∈ (x.wake a full).watches) ∧
    (x.wake a full).slotsUsed + (x.watches.filter fun w => decide (hit w)).length = x.slotsUsed ∧
    (x.wake a full).scratch = x.scratch ∧ (x.wake a full).loaded = x.loaded) ∧
  (∀ (x : Core) (w : Watch), w.woken = false → x.slotsUsed ≤ 256 →
    (x.register w).slotsUsed ≤ 256 ∧
    (x.slotsUsed < 256 → w ∈ (x.register w).watches) ∧
    (x.slotsUsed = 256 → (x.register w).watches = x.watches ∧ (x.register w).slotWaits = x.slotWaits + 1))

/-- FAULT_REPORT, LEASE_EXPIRY, WATCHDOG_EXPIRY and ACCOUNTING_CHECK (R521 to R537). -/
def Obligations.FaultReports : Prop :=
  (∀ (st : Status) (u : UnitRef) (detail : BitVec 64) (inj : Bool) (s : State), (8 ≤ u.die ∨ kindDefined u.kind = false ∨ s.dev.seqs.step < 6) →
    exec (.faultReport st u detail inj) s = .next (s.put s.dev)) ∧
  (∀ (st : Status) (u : UnitRef) (detail : BitVec 64) (inj : Bool) (s : State), Sound s → u.die < 8 → s.dev.dies.length = 8 → kindDefined u.kind = true →
    6 ≤ s.dev.seqs.step →
    let v := s.dev.severityApplied st u
    let c := if u.kind = 0x0F then { s.dev.fc u.die with selfFault := true } else s.dev.fc u.die
    let r : FaultRec := {
      seq := c.seqNext, time := s.dev.now, status := st, severity := v, first := c.first.isNone, injected := inj,
      fixed := severityFixed st u.kind, kind := u.kind, logical := s.dev.logicalField u, physical := physicalField u, detail := detail }
    ∃ t : State, exec (.faultReport st u detail inj) s = .next t ∧ t.mem = s.mem ∧ t.pending = s.pending ∧ t.dev.jobs = s.dev.jobs ∧
      t.dev.store = s.dev.store ∧
      (v = 0 → t.dev.fc u.die = c.seenAt 0) ∧
      (1 ≤ v → v ≤ 4 → t.dev.fc u.die = (c.seenAt v).record r) ∧
      (v = 5 → t.dev.fc u.die = { (c.seenAt v).record r with fenced := if c.fenced.contains u then c.fenced else c.fenced ++ [u] }) ∧
      (v = 6 → (t.dev.die u.die).safe = true ∧ t.dev.fc u.die = (c.seenAt v).record r) ∧
      (v = 7 → t.dev.seqs.pkgSafe = true ∧ ∀ x ∈ t.dev.dies, x.safe = true)) ∧
  (∀ (die lease : Nat) (s : State), die < 8 → 6 ≤ s.dev.seqs.step →
    exec (.leaseExpiry die lease) s = .next (s.put ((s.dev.onFc die fun c => { c with
      ctrs := { c.ctrs with leasesBroken := c.ctrs.leasesBroken + 1 } }).report St.FLT_LEASE_BROKEN
      { kind := 0x0D, die := die, slot := (s.dev.die die).postmaster } (BitVec.ofNat 64 lease)))) ∧
  (∀ (die : Nat) (s : State), die < 8 → 6 ≤ s.dev.seqs.step →
    let now := max s.dev.now ((s.dev.fc die).lastKick + 100000000)
    let d := (s.dev.until ((s.dev.fc die).lastKick + 100000000)).onFc die fun c => { c with
      lastKick := now
      ctrs := { c.ctrs with watchdogExpiries := c.ctrs.watchdogExpiries + 1 } }
    ((s.dev.die die).postmaster = 0 → exec (.watchdogExpiry die) s = .next (s.put (d.report St.FLT_WATCHDOG { kind := 0x0D, die := die }))) ∧
    ((s.dev.die die).postmaster ≠ 0 → exec (.watchdogExpiry die) s = .next (s.put
      (d.reportAt (if die = 0 then 7 else 6) St.FLT_WATCHDOG { kind := 0x0D, die := die, slot := (s.dev.die die).postmaster } 0 false)))) ∧
  (∀ (s : State), 6 ≤ s.dev.seqs.step → s.dev.seqs.pkgSafe = false →
    ((∀ j ∈ s.dev.jobs, j.ctrs.difference = 0) → exec .accountingCheck s = .next (s.put s.dev)) ∧
    (∀ j, s.dev.jobs = [j] → j.ctrs.difference ≠ 0 → exec .accountingCheck s = .next (s.put (s.dev.report St.FLT_ACCOUNTING
      { kind := 0x0D, die := 0, slot := (s.dev.die 0).postmaster } (BitVec.ofInt 64 j.ctrs.difference)))))

/-- FAULT_HANDLING and SPARE_ENTRY (R34, R35, R37, R512, R529, R531, Table 1.5). -/
def Obligations.FaultHandlingAndSpares : Prop :=
  (∀ (die : Nat) (s : State), die < 8 → s.dev.seqs.pkgSafe = false →
    ((s.dev.fc die).todo = [] → exec (.faultHandling die) s = .next (s.put s.dev)) ∧
    (∀ r rest, (s.dev.fc die).todo = r :: rest →
      let d := s.dev.onFc die fun c => { c with todo := rest }
      ((s.dev.fc die).repairs ≠ [] → r.severity < 6 → exec (.faultHandling die) s = .next (s.put s.dev)) ∧
      (r.severity = 6 → exec (.faultHandling die) s = .next (s.put (d.dieLost r.who.die r))) ∧
      ((s.dev.fc die).repairs = [] → d.dieUp r.who.die = true → r.kind ≠ 0x0A →
        (r.severity < 4 → exec (.faultHandling die) s = .next (s.put d)) ∧
        (r.severity = 4 → r.kind ≠ 5 → exec (.faultHandling die) s = .next (s.put
          ((d.itemsOn r.who).foldl (fun (d : Dev) i => (d.itemRestart i (d.stageIndex i) (some r.who) r.injected).1) d))) ∧
        (r.severity = 5 → r.kind ≠ 5 → r.injected = true → exec (.faultHandling die) s = .next (s.put
          (((d.itemsOn r.who).foldl (fun (d : Dev) i => (d.itemRestart i (d.stageIndex i) (some r.who) true).1) d).onFc r.who.die fun c =>
            { c with fenced := c.fenced.erase r.who }))) ∧
        (r.severity = 5 → r.injected = false →
          let x := (d.cluster r.who.die r.who.cluster).cores.getD r.who.core {}
          (r.kind = 1 → r.who.slot ≤ 3 → d.coreNumber r.who ≠ 0xF → r.who.slot ∉ x.deadEngines →
            x.spareFree (if r.who.slot ≤ 1 then 7 else 8) = true →
            exec (.faultHandling die) s = .next (s.put (d.carryOut { who := r.who, number := r.who.slot, wait := 50000 } r))) ∧
          ((r.kind = 2 ∨ r.kind = 3) → d.coreNumber r.who ≠ 0xF → (d.cluster r.who.die r.who.cluster).spareUsed = false →
            exec (.faultHandling die) s = .next (s.put
              (d.carryOut { who := coreOfUnit r.who, number := d.coreNumber r.who, wait := 2000000 } r))) ∧
          (r.kind = 4 → d.clusterNumber r.who ≠ 0xF → (d.die r.who.die).spareCluster = false →
            exec (.faultHandling die) s = .next (s.put
              (d.carryOut { who := clusterOfUnit r.who, number := d.clusterNumber r.who, wait := 40000000 } r))))))) ∧
  (∀ (die : Nat) (s : State), s.dev.dieUp die = true →
    ((s.dev.fc die).repairs = [] → exec (.spareEntry die) s = .next (s.put s.dev)) ∧
    (∀ r rest, (s.dev.fc die).repairs = r :: rest →
      (r.who.kind ≠ 0x0D → s.dev.clk.tickStart < r.due → exec (.spareEntry die) s = .next (s.put s.dev)) ∧
      let d := s.dev.onFc die fun c => { c with repairs := rest }
      (r.who.kind = 1 → r.due ≤ s.dev.clk.tickStart → exec (.spareEntry die) s = .next (s.put
        ((d.onCluster r.who.die r.who.cluster fun x => { x with
          cores := x.cores.modify r.who.core fun c => { c with
            spareEngines := c.spareEngines ++ [(if r.who.slot ≤ 1 then 7 else 8, r.number)]
            deadEngines := c.deadEngines.erase r.number } }).recordRetired r.who r.at_ true))) ∧
      (r.who.kind = 2 → r.due ≤ s.dev.clk.tickStart → exec (.spareEntry die) s = .next (s.put
        ((d.onCluster r.who.die r.who.cluster fun x => { x with map := x.map.set r.number 8, spareUsed := true }).recordRetired r.who r.at_
          true))) ∧
      (r.who.kind = 4 → r.due ≤ s.dev.clk.tickStart → exec (.spareEntry die) s = .next (s.put
        (((d.onDie r.who.die fun x => { x with map := x.map.set r.number 8, spareCluster := true }).setDomain r.who.die 10 true).recordRetired
          r.who r.at_ true)))))

/-- JUNCTION_SENSOR_READ, MARGIN_MEASUREMENT, CAP_UNMET and DUMP_COMPLETE (R540, R541, R564, R625, R638). -/
def Obligations.MarginsAndDumps : Prop :=
  (∀ (die sensor : Nat) (celsius : Int) (s : State), die < 8 → sensor < 24 →
    let d : Dev := { s.dev with pwr := { s.dev.pwr with
      junctions := (s.dev.pwr.junctions.filter fun x => x.1 != 24 * die + sensor) ++ [(24 * die + sensor, celsius)] } }
    (celsius < 118 → exec (.junctionSensorRead die sensor celsius) s = .next (s.put d)) ∧
    (118 ≤ celsius →
      let t : Dev := { d with pins := { d.pins with thermtripN := true } }
      (s.dev.seqs.powerFailAt = none → exec (.junctionSensorRead die sensor celsius) s =
        .next (s.put (t.report St.FLT_THERMTRIP { kind := 0x10, die := die } (BitVec.ofInt 64 celsius)))) ∧
      (s.dev.seqs.powerFailAt ≠ none → exec (.junctionSensorRead die sensor celsius) s = .next (s.put t)))) ∧
  (∀ (die row unit : Nat) (value baseline : Int) (s : State),
    (s.dev.measurable die row = false → exec (.marginMeasurement die row unit value baseline) s = .next (s.put s.dev)) ∧
    (s.dev.measurable die row = true → row ≠ 0 → (∀ x ∈ (s.dev.die die).margins, x.row ≠ row ∨ x.unit ≠ unit) →
      let b := marginBeyond row value baseline
      let x : Margin := {
        row := row, unit := unit, value := value, warn := (marginLevels row baseline).1, action := (marginLevels row baseline).2,
        warned := b.1, acted := b.2, warnClear := if b.1 then none else some s.dev.now, actClear := if b.2 then none else some s.dev.now,
        at_ := s.dev.now }
      let d := s.dev.onDie die fun y => { y with margins := y.margins ++ [x] }
      let u : UnitRef := { kind := marginKind row, die := die }
      (b.1 = false → b.2 = false → exec (.marginMeasurement die row unit value baseline) s = .next (s.put d)) ∧
      (b.1 = true → b.2 = false → exec (.marginMeasurement die row unit value baseline) s =
        .next (s.put (d.reportAt 1 (marginStatus row) u (BitVec.ofNat 64 unit) false))) ∧
      (b.1 = true → b.2 = true → exec (.marginMeasurement die row unit value baseline) s =
        .next (s.put (((d.reportAt 1 (marginStatus row) u (BitVec.ofNat 64 unit) false).marginAction die row unit).report (marginStatus row) u
          (BitVec.ofNat 64 unit)))))) ∧
  (∀ (s : State),
    (s.dev.pwr.sortMhz = 800 → s.dev.pwr.unmetReported = false → exec .capUnmet s = .next (s.put
      (({ s.dev with pwr := { s.dev.pwr with unmetReported := true } } : Dev).report St.RSTP_CAP_UNMET { kind := 0x12, die := 0 }))) ∧
    ((s.dev.pwr.sortMhz ≠ 800 ∨ s.dev.pwr.unmetReported = true) → exec .capUnmet s = .next (s.put s.dev))) ∧
  (∀ (s : State),
    ((s.dev.seqs.fatalAt = none ∨ s.dev.seqs.dumpAt ≠ none ∨ s.dev.seqs.powerFailAt ≠ none) → exec .dumpComplete s = .next (s.put s.dev)) ∧
    (s.dev.seqs.fatalAt ≠ none → s.dev.seqs.dumpAt = none → s.dev.seqs.powerFailAt = none →
      (s.dev.nor.newerDump = some 0 → exec .dumpComplete s = .next (s.put { s.dev with
        nor := { s.dev.nor with dump1 := some s.dev.dumpBytes, dumpSeq := s.dev.nor.dumpSeq + 1 }
        seqs := { s.dev.seqs with dumpAt := some s.dev.now } })) ∧
      (s.dev.nor.newerDump ≠ some 0 → exec .dumpComplete s = .next (s.put { s.dev with
        nor := { s.dev.nor with dump0 := some s.dev.dumpBytes, dumpSeq := s.dev.nor.dumpSeq + 1 }
        seqs := { s.dev.seqs with dumpAt := some s.dev.now } }))))

/-- SCRUB_READ, ROW_REPAIR and FRANKING_LIST_DONE (R504, R506, R507, R513, R514, R614). -/
def Obligations.ScrubbingAndFranking : Prop :=
  (∀ (die : Nat) (dram : Bool) (unit addr wrong : Nat) (s : State),
    let b := (s.dev.die die).scb
    ((if dram then b.dramEn else b.sramEn) = false → exec (.scrubRead die dram unit addr wrong) s = .next (s.put s.dev)) ∧
    (s.dev.memoryOn die dram unit = true → (if dram then b.dramEn else b.sramEn) = true →
      (∀ l ∈ b.laps, l.dram ≠ dram ∨ l.memory ≠ unit) → (∀ p ∈ b.planted, p.1 ≠ dram ∨ p.2.1 ≠ unit) →
      (addr ≠ 0 → exec (.scrubRead die dram unit addr wrong) s = .next (s.put s.dev)) ∧
      exec (.scrubRead die dram unit 0 0) s = .next (s.put (s.dev.onScb die fun b => { b with
        laps := b.laps ++ [{ dram := dram, memory := unit, next := 64, start := s.dev.now, readAt := s.dev.now }] })))) ∧
  (∀ (b : Scb) (unit row round wrong : Nat), (unit, row) ∉ b.toRepair →
    (2 ≤ wrong → b.noteRow unit row round wrong = { b with toRepair := b.toRepair ++ [(unit, row)] }) ∧
    ((∃ r, (unit, row, r) ∈ b.suspect ∧ r ≠ round) → b.noteRow unit row round wrong = { b with toRepair := b.toRepair ++ [(unit, row)] }) ∧
    (wrong < 2 → (∀ x ∈ b.suspect, x.1 ≠ unit ∨ x.2.1 ≠ row) →
      b.noteRow unit row round wrong = { b with suspect := b.suspect ++ [(unit, row, round)] })) ∧
  (∀ (die unit row : Nat) (s : State), s.dev.memoryOn die false unit = true →
    ((unit, row) ∉ (s.dev.die die).scb.toRepair → exec (.rowRepair die unit row) s = .next (s.put s.dev)) ∧
    ((unit, row) ∈ (s.dev.die die).scb.toRepair →
      let d := s.dev.onScb die fun b => { b with
        toRepair := b.toRepair.erase (unit, row)
        suspect := b.suspect.filter fun x => !(x.1 == unit && x.2.1 == row) }
      let used := ((s.dev.die die).scb.repaired.filter fun x => x.1 == unit).length
      (used < 16 → exec (.rowRepair die unit row) s = .next (s.put
        ((d.onScb die fun b => { b with repaired := b.repaired ++ [(unit, row)] }).reportCounted St.INT_ROW_REPAIRED
          (memoryUnit die false unit) (BitVec.ofNat 64 row) false))) ∧
      (16 ≤ used → exec (.rowRepair die unit row) s = .next (s.put
        (d.report St.INT_REDUNDANCY_EXHAUSTED (memoryUnit die false unit) (BitVec.ofNat 64 row)))))) ∧
  (∀ (die u : Nat) (poisoned : Bool) (s : State), u < 18 → s.dev.uncOpen die = true →
    ((s.dev.frk die u).work = none → exec (.frankingListDone die u poisoned) s = .next (s.put s.dev)) ∧
    (∀ list expect, (s.dev.frk die u).work = some (list, expect) →
      let got := s.dev.listFranked s.mem die (u / 2) (dramSpace / 16) list.toNat
      ((poisoned = true ∨ got = .poison) → exec (.frankingListDone die u poisoned) s = .next (s.put (s.dev.onFrk die u fun f =>
        { f with state := 3, work := none, matched := false, error := St.INT_DRAM_UNCORRECTED }))) ∧
      (∀ x, poisoned = false → got = .bytes x → exec (.frankingListDone die u poisoned) s = .next (s.put (s.dev.onFrk die u fun f =>
        { f with state := 2, work := none, result := BitVec.ofNat 32 (crc32c x), matched := expect == some (BitVec.ofNat 32 (crc32c x)) }))) ∧
      (∀ a, poisoned = false → got = .outside a → exec (.frankingListDone die u poisoned) s = .fault (.outsideAddressSpace a)) ∧
      (poisoned = false → got = .badEntry → exec (.frankingListDone die u poisoned) s = .next (s.put
        (({ s.dev with free := s.dev.free + 1 } : Dev).onFrk die u fun f =>
          { f with state := 3, work := none, matched := false, error := (Config.freeWord s.dev.free).setWidth 16 })))))

/-- A step takes the front command and runs it with the queue's rest; on an empty queue one nanosecond passes (the model's choice, log
entry 2). -/
def Obligations.StepRunsFrontCommand : Prop :=
  (∀ (c : Instr) (rest : List Instr) (s : State), s.pending = c :: rest → step s = exec c { s with pending := rest }) ∧
  (∀ s : State, s.pending = [] →
    step s = .next { s with dev := { s.dev with clk := { s.dev.clk with now := s.dev.clk.now + 1 } } })

/-- Soundness is kept by every step, and no step but FRANKING_LIST_DONE's stops. -/
def Obligations.StepKeepsSound : Prop :=
  (∀ s t : State, Sound s → step s = .next t → Sound t ∧ t.pending = s.pending.tail) ∧
  (∀ s : State, (∀ die unit poisoned, s.pending.head? ≠ some (.frankingListDone die unit poisoned)) → ∃ t, step s = .next t)

/-- State.reset: the values the spec gives for reset (R373, R521, R545, R550, R552, R553, R563, R582, R600, R602, R610, R612). -/
def Obligations.ResetState : Prop :=
  let d := State.reset.dev
  Sound State.reset ∧ State.reset.pending = [] ∧ d.start = .starting ∧ d.seqs.step = 0 ∧
  d.rst.source = 1 ∧ d.rst.softKind = 0 ∧ d.rst.status = 0 ∧ d.rst.recovery = false ∧ d.rst.valid = true ∧
  d.pgh.length = 128 ∧ (∀ h ∈ d.pgh, h.busy = false ∧ h.done = false ∧ h.irqEn = false ∧ h.lastSeq = 0) ∧
  d.jobs = [] ∧ d.datasets = [] ∧ d.routes = [] ∧ d.vocabs = [] ∧ d.grammars = [] ∧ d.streams = [] ∧ d.lbx.queues = [] ∧
  d.dies.length = 8 ∧ (∀ x ∈ d.dies, x.safe = false ∧ x.fc.seqNext = 1 ∧ x.fc.first = none ∧ x.fc.ring = [] ∧ x.scb.sramEn = true ∧
    x.scb.dramEn = true ∧ x.scb.sramInterval = 256 ∧ x.scb.dramInterval = 8 ∧ x.flip.armed = false) ∧
  d.bkp.recoveryAt = 3 ∧ d.bkp.startLimit = 600 ∧ d.bkp.failedStarts = 0 ∧ d.pwr.setCap = 1650 ∧ d.pins.safeN = true ∧
  (∀ (c : CoreRef) (a : Nat), ((d.core c).word a).full = false) ∧ (∀ a, cellsGet State.reset.mem.dram a = 0)

/-- The doorbell of a pigeonhole, and checks 1 to 5 of its request, for every pigeonhole command (R576, R578, R580, R581, R586). -/
def Obligations.PigeonholeRequests : Prop :=
  ∀ (p : Nat) (frame : Bytes) (s : State), ∀ r ∈ pghRows p frame, fld frame 6 2 = r.2.opcode →
  (s.dev.holeReachable p = false → exec r.1 s = .next (s.put s.dev)) ∧
  (s.dev.holeReachable p = true → (s.dev.hole p).busy = true → exec r.1 s = .next (s.put { s.dev with
    pghPorts := s.dev.pghPorts.modify (p / 32) fun x => { x with ignored := satSucc x.ignored } })) ∧
  (s.dev.holeReachable p = true → (s.dev.hole p).busy = false →
    let d := s.dev.rung p frame
    let h := d.hole p
    let req := s.dev.requestAt p frame
    let crcOk := 32 + fld req 12 4 ≤ 4096 ∧ fld req 16 4 = crc32c (putAt (fit (32 + fld req 12 4) req) 16 (zeros 4))
    let framed := cut req 0 4 = ascii "PGRQ" ∧ fld req 4 2 = 1 ∧ crcOk ∧ fld req 12 4 = r.2.size
    let next := if h.lastSeq = 0xFFFFFFFF then 1 else h.lastSeq + 1
    let reject := fun (st : Status) => d.respond p (responseBytes (fld req 6 2) (fld req 8 4) h.lastSeq false { status := st })
    (¬framed → exec r.1 s = .next (s.put (reject St.PGH_FRAME))) ∧
    (framed → fld req 8 4 = 0 → exec r.1 s = .next (s.put (reject St.PGH_SEQ))) ∧
    (framed → fld req 8 4 ≠ 0 →
      (fld req 8 4 ≠ next → fld req 8 4 ≠ h.lastSeq → exec r.1 s = .next (s.put (reject St.PGH_SEQ))) ∧
      (fld req 8 4 = h.lastSeq → fld req 16 4 ≠ h.crc → exec r.1 s = .next (s.put (reject St.PGH_SEQ_MISMATCH))) ∧
      (fld req 8 4 = h.lastSeq → fld req 16 4 = h.crc → exec r.1 s = .next (s.put (d.respond p
        (putAt h.stored 18 (le 2 (fld h.stored 18 2 ||| 1)))))) ∧
      (fld req 8 4 = next →
        (∀ st, r.2.refusal req d = some st → exec r.1 s = .next (s.put (d.answer p { status := st }))) ∧
        (r.2.refusal req d = none → exec r.1 s = .next (s.put (r.2.run p (cut req 32 r.2.size) s.mem d))))))

/-- The answer of a pigeonhole command (R576, R578, R581, R548). -/
def Obligations.PigeonholeAnswers : Prop :=
  ∀ (d : Dev) (p : Nat) (a : Answer), p < d.pgh.length →
  let resp := responseBytes (fld (d.hole p).request 6 2) (fld (d.hole p).request 8 4) (fld (d.hole p).request 8 4) false a
  let t := d.answer p a
  let h := t.hole p
  h.lastSeq = fld (d.hole p).request 8 4 ∧ h.crc = fld (d.hole p).request 16 4 ∧ h.stored = resp ∧ h.busy = false ∧
  h.request = (d.hole p).request ∧
  ((d.hole p).lost = false → h.done = true ∧ h.response = resp) ∧
  ((d.hole p).lost = true → h.done = (d.hole p).done ∧ h.response = (d.hole p).response ∧ t.dma = d.dma) ∧
  (∀ q, q ≠ p → t.hole q = d.hole q) ∧ t.jobs = d.jobs ∧ t.store = d.store ∧ t.dies = d.dies ∧
  (a.body.length < 2 ^ 32 → cut resp 0 4 = ascii "PGRS" ∧ fld resp 4 2 = 1 ∧ fld resp 12 4 = a.body.length ∧
    fld resp 16 2 = a.status.toNat ∧ resp.drop 32 = a.body)

/-- R376, for every core, issuer and word. -/
def Obligations.LoadAndStoreNeverWait : Prop :=
  ∀ (c : CoreRef) (i : Issuer) (addr : Nat) (v : BitVec 64) (s : State), s.dev.Shaped →
  (∀ e ∈ [Instr.load c i addr, .store c i addr v], ∃ t, exec e s = .next t ∧
    (∀ a, ((t.dev.core c).word a).full = ((s.dev.core c).word a).full) ∧
    (t.dev.core c).watches = (s.dev.core c).watches ∧ (t.dev.core c).slotless = (s.dev.core c).slotless) ∧
  (s.dev.coreRuns c = true → s.dev.isFenced (s.dev.engineUnit c (issuerSlot i)) = false →
    ∃ t, exec (.store c i addr v) s = .next t ∧ ((t.dev.core c).word (addr % scratchWords)).value = v ∧
      ((t.dev.core c).word (addr % scratchWords)).full = ((s.dev.core c).word (addr % scratchWords)).full ∧
      ∀ a, a ≠ addr % scratchWords → (t.dev.core c).word a = (s.dev.core c).word a)
end

