-- ==== Sys2Proof/Laws/Memory.lean ====
section
/-! SUPPORT. Laws of the memories: reading after writing, and the canonical form kept by every operation. -/

namespace Sys2Proof.Machine

open Sys2Proof

/-! ### The canonical form -/

theorem cellsWfFrom_mono {lo hi : Nat} (h : lo ≤ hi) : ∀ {c : List Host.Cell}, cellsWfFrom hi c = true → cellsWfFrom lo c = true
  | [], _ => rfl
  | (a, b) :: r, w => by
    simp only [cellsWfFrom, Bool.and_eq_true, decide_eq_true_eq] at w ⊢
    exact ⟨⟨by omega, w.1.2⟩, w.2⟩

/-- Writing one byte keeps the form above any bound not above the address. -/
theorem cellsSet_wfFrom {lo : Nat} {x : Nat} {v : Byte} (hx : lo ≤ x) :
    ∀ {c : List Host.Cell}, cellsWfFrom lo c = true → cellsWfFrom lo (cellsSet c x v) = true
  | [], _ => by
    simp only [cellsSet]
    split
    · rfl
    · rename_i h
      simp only [cellsWfFrom, Bool.and_eq_true, decide_eq_true_eq, and_true]
      exact ⟨hx, h⟩
  | (a, b) :: r, w => by
    have w0 := w
    simp only [cellsWfFrom, Bool.and_eq_true, decide_eq_true_eq] at w
    simp only [cellsSet]
    split
    · rename_i hlt
      split
      · exact w0
      · rename_i hv
        simp only [cellsWfFrom, Bool.and_eq_true, decide_eq_true_eq]
        exact ⟨⟨hx, hv⟩, ⟨by omega, w.1.2⟩, w.2⟩
    · split
      · rename_i hxa
        subst hxa
        split
        · exact cellsWfFrom_mono (by omega) w.2
        · rename_i hv
          simp only [cellsWfFrom, Bool.and_eq_true, decide_eq_true_eq]
          exact ⟨⟨hx, hv⟩, w.2⟩
      · simp only [cellsWfFrom, Bool.and_eq_true, decide_eq_true_eq]
        exact ⟨w.1, cellsSet_wfFrom (by omega) w.2⟩

theorem cellsSet_wf {c : List Host.Cell} (x : Nat) (v : Byte) (w : cellsWf c = true) : cellsWf (cellsSet c x v) = true :=
  cellsSet_wfFrom (Nat.zero_le x) w

theorem cellsPut_wf : ∀ (b : Bytes) {c : List Host.Cell} (a : Nat), cellsWf c = true → cellsWf (cellsPut c a b) = true
  | [], _, _, w => w
  | v :: vs, _, a, w => cellsPut_wf vs (a + 1) (cellsSet_wf a v w)

theorem cellsClear_wfFrom (a n : Nat) : ∀ {lo : Nat} {c : List Host.Cell},
    cellsWfFrom lo c = true → cellsWfFrom lo (cellsClear c a n) = true
  | _, [], _ => rfl
  | lo, (x, b) :: r, w => by
    simp only [cellsWfFrom, Bool.and_eq_true, decide_eq_true_eq] at w
    simp only [cellsClear, List.filter_cons]
    split
    · simp only [cellsWfFrom, Bool.and_eq_true, decide_eq_true_eq]
      exact ⟨w.1, cellsClear_wfFrom a n w.2⟩
    · exact cellsWfFrom_mono (by omega) (cellsClear_wfFrom a n w.2)

theorem cellsClear_wf {c : List Host.Cell} (a n : Nat) (w : cellsWf c = true) : cellsWf (cellsClear c a n) = true :=
  cellsClear_wfFrom a n w

/-- One write of a command keeps the form of all three memories. -/
theorem memApply_wf {m : Mem} (w : MemWrite) (h : memWf m = true) : memWf (memApply m w) = true := by
  simp only [memWf, Bool.and_eq_true] at h ⊢
  obtain ⟨⟨hd, hh⟩, hf⟩ := h
  unfold memApply
  split
  · exact ⟨⟨cellsPut_wf _ _ (cellsClear_wf _ _ hd), hh⟩, hf⟩
  · exact ⟨⟨hd, cellsPut_wf _ _ (cellsClear_wf _ _ hh)⟩, hf⟩
  · exact ⟨⟨hd, hh⟩, cellsPut_wf _ _ (cellsClear_wf _ _ hf)⟩

theorem memApplyAll_wf : ∀ (l : List MemWrite) {m : Mem}, memWf m = true → memWf (l.foldl memApply m) = true
  | [], _, h => h
  | w :: r, _, h => memApplyAll_wf r (memApply_wf w h)

theorem put_memWf {s : State} (d : Dev) (h : memWf s.mem = true) : memWf (s.put d).mem = true := memApplyAll_wf d.dma h

/-! ### Reading after writing -/

/-- An address below a canonical list's bound is unlisted. -/
theorem cellsGet_below : ∀ {lo : Nat} {c : List Host.Cell}, cellsWfFrom lo c = true → ∀ {x : Nat}, x < lo → cellsGet c x = 0
  | _, [], _, _, _ => rfl
  | lo, (a, b) :: r, w, x, hx => by
    simp only [cellsWfFrom, Bool.and_eq_true, decide_eq_true_eq] at w
    have : a ≠ x := by omega
    simp only [cellsGet, this, if_false]
    exact cellsGet_below w.2 (by omega)

/-- A byte read after a byte is written: the value written at its address, the old value elsewhere. -/
theorem cellsGet_set {x y : Nat} {v : Byte} : ∀ {lo : Nat} {c : List Host.Cell}, cellsWfFrom lo c = true →
    cellsGet (cellsSet c x v) y = if y = x then v else cellsGet c y
  | _, [], _ => by
    simp only [cellsSet]
    split
    · rename_i hv
      by_cases h : y = x <;> simp [cellsGet, h, hv]
    · by_cases h : y = x
      · simp [cellsGet, h]
      · have : x ≠ y := fun e => h e.symm
        simp [cellsGet, h, this]
  | lo, (a, b) :: r, w => by
    simp only [cellsWfFrom, Bool.and_eq_true, decide_eq_true_eq] at w
    simp only [cellsSet]
    split
    · rename_i hlt
      split
      · rename_i hv
        by_cases h : y = x
        · subst h
          have : a ≠ y := by omega
          simp [cellsGet, this, hv, cellsGet_below w.2 (x := y) (by omega)]
        · simp [h]
      · by_cases h : y = x
        · simp [cellsGet, h]
        · have : x ≠ y := fun e => h e.symm
          simp [cellsGet, h, this]
    · split
      · rename_i hxa
        subst hxa
        split
        · rename_i hv
          by_cases h : y = x
          · subst h
            simp [hv, cellsGet_below w.2 (x := y) (by omega)]
          · have : x ≠ y := fun e => h e.symm
            simp [cellsGet, h, this]
        · by_cases h : y = x
          · simp [cellsGet, h]
          · have : x ≠ y := fun e => h e.symm
            simp [cellsGet, h, this]
      · rename_i hlt hne
        simp only [cellsGet]
        by_cases h : a = y
        · have : y ≠ x := by omega
          simp [h, this]
        · simp only [h, if_false]
          exact cellsGet_set w.2

/-- A byte outside the bytes written reads as before. -/
theorem cellsGet_put_other {y : Nat} : ∀ (b : Bytes) {c : List Host.Cell} {a : Nat}, cellsWf c = true →
    (y < a ∨ a + b.length ≤ y) → cellsGet (cellsPut c a b) y = cellsGet c y
  | [], _, _, _, _ => rfl
  | v :: vs, c, a, w, h => by
    simp only [List.length_cons] at h
    have hne : y ≠ a := by omega
    simp only [cellsPut]
    rw [cellsGet_put_other vs (cellsSet_wf a v w) (by omega), cellsGet_set w]
    simp [hne]

/-- Byte i of the bytes written reads back. -/
theorem cellsGet_put_same : ∀ (b : Bytes) {c : List Host.Cell} {a i : Nat}, cellsWf c = true → (h : i < b.length) →
    cellsGet (cellsPut c a b) (a + i) = b[i]
  | v :: vs, c, a, 0, w, _ => by
    simp only [cellsPut, Nat.add_zero, List.getElem_cons_zero]
    rw [cellsGet_put_other vs (cellsSet_wf a v w) (by omega), cellsGet_set w]
    simp
  | v :: vs, c, a, i + 1, w, h => by
    simp only [cellsPut, List.getElem_cons_succ]
    have := cellsGet_put_same vs (a := a + 1) (i := i) (cellsSet_wf a v w) (by simpa using h)
    rwa [Nat.add_right_comm, Nat.add_assoc] at this

/-- Making bytes 0 reads 0 inside the range and as before outside it. -/
theorem cellsGet_clear (a n y : Nat) : ∀ {lo : Nat} {c : List Host.Cell}, cellsWfFrom lo c = true →
    cellsGet (cellsClear c a n) y = if a ≤ y ∧ y < a + n then 0 else cellsGet c y
  | _, [], _ => by simp [cellsClear, cellsGet]
  | lo, (x, b) :: r, w => by
    simp only [cellsWfFrom, Bool.and_eq_true, decide_eq_true_eq] at w
    simp only [cellsClear, List.filter_cons]
    split
    · rename_i hk
      simp only [Bool.not_eq_true', decide_eq_false_iff_not] at hk
      simp only [cellsGet]
      by_cases h : x = y
      · subst h; simp [hk]
      · simp only [h, if_false]; exact cellsGet_clear a n y w.2
    · rename_i hk
      simp only [Bool.not_eq_true', decide_eq_false_iff_not, Decidable.not_not] at hk
      by_cases h : x = y
      · subst h
        have := cellsGet_clear a n x w.2
        simp only [cellsClear] at this
        rw [this, if_pos hk, if_pos hk]
      · simp only [cellsGet, h, if_false]
        exact cellsGet_clear a n y w.2

end Sys2Proof.Machine
end

