-- ==== Sys2Proof/Laws/Exec.lean ====
section
/-! SUPPORT. What a step can do, said once: a command that answers a next state ends in State.put, and only
FRANKING_LIST_DONE can stop. -/

namespace Sys2Proof.Machine

open Sys2Proof

/-- A next state is the state before with a device put: the queue stays, and the memories take the writes made. -/
theorem exec_next_put {c : Instr} {s t : State} (h : exec c s = .next t) : ∃ d, t = s.put d := by
  cases c with
  | frankingListDone die unit poisoned =>
    simp only [exec, execFrankingListDone] at h
    split at h
    · exact ⟨_, (Host.Outcome.next.inj h).symm⟩
    · cases h
  | _ => exact ⟨_, (Host.Outcome.next.inj h).symm⟩

@[simp] theorem put_pending (s : State) (d : Dev) : (s.put d).pending = s.pending := rfl
@[simp] theorem put_dma (s : State) (d : Dev) : (s.put d).dev.dma = [] := rfl
@[simp] theorem put_dev (s : State) (d : Dev) : (s.put d).dev = { d with dma := [] } := rfl

end Sys2Proof.Machine
end

