-- ==== Sys2Proof/Laws/Pgh.lean ====
section
/-! SUPPORT. What serving a pigeonhole request can do, said once. -/

namespace Sys2Proof.Machine

open Sys2Proof

/-- An accepted frame runs its command's own work on the device with the request in place. -/
theorem ring_accepted {op : PghOp} {p : Nat} {frame : Bytes} {m : Mem} {d : Dev} (h : op.Accepts p frame d) :
    op.ring p frame m d = op.run p (op.bodyOf p frame d) m (d.rung p frame) := by
  obtain ⟨hr, ho, hb, hf, hv, hn⟩ := h
  unfold Dev.requestAt at hf hv hn
  simp [PghOp.ring, hr, ho, hb, PghOp.serve, Dev.rung, PghOp.bodyOf, Dev.requestAt] at *
  rw [hf, hv]
  simp [hn]

/-- A frame for a pigeonhole that cannot be reached changes nothing. -/
theorem ring_unreachable {op : PghOp} {p : Nat} {frame : Bytes} {m : Mem} {d : Dev} (h : d.holeReachable p = false) :
    op.ring p frame m d = d := by
  simp [PghOp.ring, h]

/-- A frame for a busy pigeonhole is ignored and counted (R576). -/
theorem ring_busy {op : PghOp} {p : Nat} {frame : Bytes} {m : Mem} {d : Dev} (hr : d.holeReachable p = true)
    (ho : fld frame 6 2 = op.opcode) (hb : (d.hole p).busy = true) : op.ring p frame m d = d.doorbellIgnored p := by
  simp [PghOp.ring, hr, ho, hb]

/-- An answered command has its response stored with its SEQ and CRC (R581). -/
theorem storeResponse_hole {d : Dev} {p : Nat} {resp : Bytes} (h : p < d.pgh.length) :
    (d.storeResponse p resp).hole p =
      { d.hole p with lastSeq := fld (d.hole p).request 8 4, crc := fld (d.hole p).request 16 4, stored := resp } := by
  simp [Dev.storeResponse, Dev.onHole, Dev.hole, List.getD_eq_getElem?_getD, h]

end Sys2Proof.Machine
end

