-- ==== Sys2Proof/Laws/State.lean ====
section
/-! SUPPORT. What each update of a part of the device leaves alone, field by field; and what is read back from the part it changes. -/

namespace Sys2Proof.Machine

open Sys2Proof

/-! ### onDie -/

@[simp] theorem Dev.onDie_start (d : Dev) (i : Nat) (f : Die → Die) : (d.onDie i f).start = d.start := rfl
@[simp] theorem Dev.onDie_rst (d : Dev) (i : Nat) (f : Die → Die) : (d.onDie i f).rst = d.rst := rfl
@[simp] theorem Dev.onDie_bkp (d : Dev) (i : Nat) (f : Die → Die) : (d.onDie i f).bkp = d.bkp := rfl
@[simp] theorem Dev.onDie_nor (d : Dev) (i : Nat) (f : Die → Die) : (d.onDie i f).nor = d.nor := rfl
@[simp] theorem Dev.onDie_seqs (d : Dev) (i : Nat) (f : Die → Die) : (d.onDie i f).seqs = d.seqs := rfl
@[simp] theorem Dev.onDie_pwr (d : Dev) (i : Nat) (f : Die → Die) : (d.onDie i f).pwr = d.pwr := rfl
@[simp] theorem Dev.onDie_pins (d : Dev) (i : Nat) (f : Die → Die) : (d.onDie i f).pins = d.pins := rfl
@[simp] theorem Dev.onDie_clk (d : Dev) (i : Nat) (f : Die → Die) : (d.onDie i f).clk = d.clk := rfl
@[simp] theorem Dev.onDie_ports (d : Dev) (i : Nat) (f : Die → Die) : (d.onDie i f).ports = d.ports := rfl
@[simp] theorem Dev.onDie_pgh (d : Dev) (i : Nat) (f : Die → Die) : (d.onDie i f).pgh = d.pgh := rfl
@[simp] theorem Dev.onDie_pghPorts (d : Dev) (i : Nat) (f : Die → Die) : (d.onDie i f).pghPorts = d.pghPorts := rfl
@[simp] theorem Dev.onDie_jobs (d : Dev) (i : Nat) (f : Die → Die) : (d.onDie i f).jobs = d.jobs := rfl
@[simp] theorem Dev.onDie_jobGens (d : Dev) (i : Nat) (f : Die → Die) : (d.onDie i f).jobGens = d.jobGens := rfl
@[simp] theorem Dev.onDie_datasets (d : Dev) (i : Nat) (f : Die → Die) : (d.onDie i f).datasets = d.datasets := rfl
@[simp] theorem Dev.onDie_dsetGens (d : Dev) (i : Nat) (f : Die → Die) : (d.onDie i f).dsetGens = d.dsetGens := rfl
@[simp] theorem Dev.onDie_routes (d : Dev) (i : Nat) (f : Die → Die) : (d.onDie i f).routes = d.routes := rfl
@[simp] theorem Dev.onDie_vocabs (d : Dev) (i : Nat) (f : Die → Die) : (d.onDie i f).vocabs = d.vocabs := rfl
@[simp] theorem Dev.onDie_grammars (d : Dev) (i : Nat) (f : Die → Die) : (d.onDie i f).grammars = d.grammars := rfl
@[simp] theorem Dev.onDie_gramGens (d : Dev) (i : Nat) (f : Die → Die) : (d.onDie i f).gramGens = d.gramGens := rfl
@[simp] theorem Dev.onDie_streams (d : Dev) (i : Nat) (f : Die → Die) : (d.onDie i f).streams = d.streams := rfl
@[simp] theorem Dev.onDie_stagings (d : Dev) (i : Nat) (f : Die → Die) : (d.onDie i f).stagings = d.stagings := rfl
@[simp] theorem Dev.onDie_leases (d : Dev) (i : Nat) (f : Die → Die) : (d.onDie i f).leases = d.leases := rfl
@[simp] theorem Dev.onDie_nextStaging (d : Dev) (i : Nat) (f : Die → Die) : (d.onDie i f).nextStaging = d.nextStaging := rfl
@[simp] theorem Dev.onDie_store (d : Dev) (i : Nat) (f : Die → Die) : (d.onDie i f).store = d.store := rfl
@[simp] theorem Dev.onDie_lbx (d : Dev) (i : Nat) (f : Die → Die) : (d.onDie i f).lbx = d.lbx := rfl
@[simp] theorem Dev.onDie_env (d : Dev) (i : Nat) (f : Die → Die) : (d.onDie i f).env = d.env := rfl
@[simp] theorem Dev.onDie_serial (d : Dev) (i : Nat) (f : Die → Die) : (d.onDie i f).serial = d.serial := rfl
@[simp] theorem Dev.onDie_free (d : Dev) (i : Nat) (f : Die → Die) : (d.onDie i f).free = d.free := rfl
@[simp] theorem Dev.onDie_dma (d : Dev) (i : Nat) (f : Die → Die) : (d.onDie i f).dma = d.dma := rfl

/-! ### onFc -/

@[simp] theorem Dev.onFc_start (d : Dev) (i : Nat) (f : Collector → Collector) : (d.onFc i f).start = d.start := rfl
@[simp] theorem Dev.onFc_rst (d : Dev) (i : Nat) (f : Collector → Collector) : (d.onFc i f).rst = d.rst := rfl
@[simp] theorem Dev.onFc_bkp (d : Dev) (i : Nat) (f : Collector → Collector) : (d.onFc i f).bkp = d.bkp := rfl
@[simp] theorem Dev.onFc_nor (d : Dev) (i : Nat) (f : Collector → Collector) : (d.onFc i f).nor = d.nor := rfl
@[simp] theorem Dev.onFc_seqs (d : Dev) (i : Nat) (f : Collector → Collector) : (d.onFc i f).seqs = d.seqs := rfl
@[simp] theorem Dev.onFc_pwr (d : Dev) (i : Nat) (f : Collector → Collector) : (d.onFc i f).pwr = d.pwr := rfl
@[simp] theorem Dev.onFc_pins (d : Dev) (i : Nat) (f : Collector → Collector) : (d.onFc i f).pins = d.pins := rfl
@[simp] theorem Dev.onFc_clk (d : Dev) (i : Nat) (f : Collector → Collector) : (d.onFc i f).clk = d.clk := rfl
@[simp] theorem Dev.onFc_ports (d : Dev) (i : Nat) (f : Collector → Collector) : (d.onFc i f).ports = d.ports := rfl
@[simp] theorem Dev.onFc_pgh (d : Dev) (i : Nat) (f : Collector → Collector) : (d.onFc i f).pgh = d.pgh := rfl
@[simp] theorem Dev.onFc_pghPorts (d : Dev) (i : Nat) (f : Collector → Collector) : (d.onFc i f).pghPorts = d.pghPorts := rfl
@[simp] theorem Dev.onFc_jobs (d : Dev) (i : Nat) (f : Collector → Collector) : (d.onFc i f).jobs = d.jobs := rfl
@[simp] theorem Dev.onFc_jobGens (d : Dev) (i : Nat) (f : Collector → Collector) : (d.onFc i f).jobGens = d.jobGens := rfl
@[simp] theorem Dev.onFc_datasets (d : Dev) (i : Nat) (f : Collector → Collector) : (d.onFc i f).datasets = d.datasets := rfl
@[simp] theorem Dev.onFc_dsetGens (d : Dev) (i : Nat) (f : Collector → Collector) : (d.onFc i f).dsetGens = d.dsetGens := rfl
@[simp] theorem Dev.onFc_routes (d : Dev) (i : Nat) (f : Collector → Collector) : (d.onFc i f).routes = d.routes := rfl
@[simp] theorem Dev.onFc_vocabs (d : Dev) (i : Nat) (f : Collector → Collector) : (d.onFc i f).vocabs = d.vocabs := rfl
@[simp] theorem Dev.onFc_grammars (d : Dev) (i : Nat) (f : Collector → Collector) : (d.onFc i f).grammars = d.grammars := rfl
@[simp] theorem Dev.onFc_gramGens (d : Dev) (i : Nat) (f : Collector → Collector) : (d.onFc i f).gramGens = d.gramGens := rfl
@[simp] theorem Dev.onFc_streams (d : Dev) (i : Nat) (f : Collector → Collector) : (d.onFc i f).streams = d.streams := rfl
@[simp] theorem Dev.onFc_stagings (d : Dev) (i : Nat) (f : Collector → Collector) : (d.onFc i f).stagings = d.stagings := rfl
@[simp] theorem Dev.onFc_leases (d : Dev) (i : Nat) (f : Collector → Collector) : (d.onFc i f).leases = d.leases := rfl
@[simp] theorem Dev.onFc_nextStaging (d : Dev) (i : Nat) (f : Collector → Collector) : (d.onFc i f).nextStaging = d.nextStaging := rfl
@[simp] theorem Dev.onFc_store (d : Dev) (i : Nat) (f : Collector → Collector) : (d.onFc i f).store = d.store := rfl
@[simp] theorem Dev.onFc_lbx (d : Dev) (i : Nat) (f : Collector → Collector) : (d.onFc i f).lbx = d.lbx := rfl
@[simp] theorem Dev.onFc_env (d : Dev) (i : Nat) (f : Collector → Collector) : (d.onFc i f).env = d.env := rfl
@[simp] theorem Dev.onFc_serial (d : Dev) (i : Nat) (f : Collector → Collector) : (d.onFc i f).serial = d.serial := rfl
@[simp] theorem Dev.onFc_free (d : Dev) (i : Nat) (f : Collector → Collector) : (d.onFc i f).free = d.free := rfl
@[simp] theorem Dev.onFc_dma (d : Dev) (i : Nat) (f : Collector → Collector) : (d.onFc i f).dma = d.dma := rfl

/-! ### onCtrs -/

@[simp] theorem Dev.onCtrs_start (d : Dev) (i : Nat) (f : DieCtrs → DieCtrs) : (d.onCtrs i f).start = d.start := rfl
@[simp] theorem Dev.onCtrs_rst (d : Dev) (i : Nat) (f : DieCtrs → DieCtrs) : (d.onCtrs i f).rst = d.rst := rfl
@[simp] theorem Dev.onCtrs_bkp (d : Dev) (i : Nat) (f : DieCtrs → DieCtrs) : (d.onCtrs i f).bkp = d.bkp := rfl
@[simp] theorem Dev.onCtrs_nor (d : Dev) (i : Nat) (f : DieCtrs → DieCtrs) : (d.onCtrs i f).nor = d.nor := rfl
@[simp] theorem Dev.onCtrs_seqs (d : Dev) (i : Nat) (f : DieCtrs → DieCtrs) : (d.onCtrs i f).seqs = d.seqs := rfl
@[simp] theorem Dev.onCtrs_pwr (d : Dev) (i : Nat) (f : DieCtrs → DieCtrs) : (d.onCtrs i f).pwr = d.pwr := rfl
@[simp] theorem Dev.onCtrs_pins (d : Dev) (i : Nat) (f : DieCtrs → DieCtrs) : (d.onCtrs i f).pins = d.pins := rfl
@[simp] theorem Dev.onCtrs_clk (d : Dev) (i : Nat) (f : DieCtrs → DieCtrs) : (d.onCtrs i f).clk = d.clk := rfl
@[simp] theorem Dev.onCtrs_ports (d : Dev) (i : Nat) (f : DieCtrs → DieCtrs) : (d.onCtrs i f).ports = d.ports := rfl
@[simp] theorem Dev.onCtrs_pgh (d : Dev) (i : Nat) (f : DieCtrs → DieCtrs) : (d.onCtrs i f).pgh = d.pgh := rfl
@[simp] theorem Dev.onCtrs_pghPorts (d : Dev) (i : Nat) (f : DieCtrs → DieCtrs) : (d.onCtrs i f).pghPorts = d.pghPorts := rfl
@[simp] theorem Dev.onCtrs_jobs (d : Dev) (i : Nat) (f : DieCtrs → DieCtrs) : (d.onCtrs i f).jobs = d.jobs := rfl
@[simp] theorem Dev.onCtrs_jobGens (d : Dev) (i : Nat) (f : DieCtrs → DieCtrs) : (d.onCtrs i f).jobGens = d.jobGens := rfl
@[simp] theorem Dev.onCtrs_datasets (d : Dev) (i : Nat) (f : DieCtrs → DieCtrs) : (d.onCtrs i f).datasets = d.datasets := rfl
@[simp] theorem Dev.onCtrs_dsetGens (d : Dev) (i : Nat) (f : DieCtrs → DieCtrs) : (d.onCtrs i f).dsetGens = d.dsetGens := rfl
@[simp] theorem Dev.onCtrs_routes (d : Dev) (i : Nat) (f : DieCtrs → DieCtrs) : (d.onCtrs i f).routes = d.routes := rfl
@[simp] theorem Dev.onCtrs_vocabs (d : Dev) (i : Nat) (f : DieCtrs → DieCtrs) : (d.onCtrs i f).vocabs = d.vocabs := rfl
@[simp] theorem Dev.onCtrs_grammars (d : Dev) (i : Nat) (f : DieCtrs → DieCtrs) : (d.onCtrs i f).grammars = d.grammars := rfl
@[simp] theorem Dev.onCtrs_gramGens (d : Dev) (i : Nat) (f : DieCtrs → DieCtrs) : (d.onCtrs i f).gramGens = d.gramGens := rfl
@[simp] theorem Dev.onCtrs_streams (d : Dev) (i : Nat) (f : DieCtrs → DieCtrs) : (d.onCtrs i f).streams = d.streams := rfl
@[simp] theorem Dev.onCtrs_stagings (d : Dev) (i : Nat) (f : DieCtrs → DieCtrs) : (d.onCtrs i f).stagings = d.stagings := rfl
@[simp] theorem Dev.onCtrs_leases (d : Dev) (i : Nat) (f : DieCtrs → DieCtrs) : (d.onCtrs i f).leases = d.leases := rfl
@[simp] theorem Dev.onCtrs_nextStaging (d : Dev) (i : Nat) (f : DieCtrs → DieCtrs) : (d.onCtrs i f).nextStaging = d.nextStaging := rfl
@[simp] theorem Dev.onCtrs_store (d : Dev) (i : Nat) (f : DieCtrs → DieCtrs) : (d.onCtrs i f).store = d.store := rfl
@[simp] theorem Dev.onCtrs_lbx (d : Dev) (i : Nat) (f : DieCtrs → DieCtrs) : (d.onCtrs i f).lbx = d.lbx := rfl
@[simp] theorem Dev.onCtrs_env (d : Dev) (i : Nat) (f : DieCtrs → DieCtrs) : (d.onCtrs i f).env = d.env := rfl
@[simp] theorem Dev.onCtrs_serial (d : Dev) (i : Nat) (f : DieCtrs → DieCtrs) : (d.onCtrs i f).serial = d.serial := rfl
@[simp] theorem Dev.onCtrs_free (d : Dev) (i : Nat) (f : DieCtrs → DieCtrs) : (d.onCtrs i f).free = d.free := rfl
@[simp] theorem Dev.onCtrs_dma (d : Dev) (i : Nat) (f : DieCtrs → DieCtrs) : (d.onCtrs i f).dma = d.dma := rfl

/-! ### onInteg -/

@[simp] theorem Dev.onInteg_start (d : Dev) (i : Nat) (f : IntCtrs → IntCtrs) : (d.onInteg i f).start = d.start := rfl
@[simp] theorem Dev.onInteg_rst (d : Dev) (i : Nat) (f : IntCtrs → IntCtrs) : (d.onInteg i f).rst = d.rst := rfl
@[simp] theorem Dev.onInteg_bkp (d : Dev) (i : Nat) (f : IntCtrs → IntCtrs) : (d.onInteg i f).bkp = d.bkp := rfl
@[simp] theorem Dev.onInteg_nor (d : Dev) (i : Nat) (f : IntCtrs → IntCtrs) : (d.onInteg i f).nor = d.nor := rfl
@[simp] theorem Dev.onInteg_seqs (d : Dev) (i : Nat) (f : IntCtrs → IntCtrs) : (d.onInteg i f).seqs = d.seqs := rfl
@[simp] theorem Dev.onInteg_pwr (d : Dev) (i : Nat) (f : IntCtrs → IntCtrs) : (d.onInteg i f).pwr = d.pwr := rfl
@[simp] theorem Dev.onInteg_pins (d : Dev) (i : Nat) (f : IntCtrs → IntCtrs) : (d.onInteg i f).pins = d.pins := rfl
@[simp] theorem Dev.onInteg_clk (d : Dev) (i : Nat) (f : IntCtrs → IntCtrs) : (d.onInteg i f).clk = d.clk := rfl
@[simp] theorem Dev.onInteg_ports (d : Dev) (i : Nat) (f : IntCtrs → IntCtrs) : (d.onInteg i f).ports = d.ports := rfl
@[simp] theorem Dev.onInteg_pgh (d : Dev) (i : Nat) (f : IntCtrs → IntCtrs) : (d.onInteg i f).pgh = d.pgh := rfl
@[simp] theorem Dev.onInteg_pghPorts (d : Dev) (i : Nat) (f : IntCtrs → IntCtrs) : (d.onInteg i f).pghPorts = d.pghPorts := rfl
@[simp] theorem Dev.onInteg_jobs (d : Dev) (i : Nat) (f : IntCtrs → IntCtrs) : (d.onInteg i f).jobs = d.jobs := rfl
@[simp] theorem Dev.onInteg_jobGens (d : Dev) (i : Nat) (f : IntCtrs → IntCtrs) : (d.onInteg i f).jobGens = d.jobGens := rfl
@[simp] theorem Dev.onInteg_datasets (d : Dev) (i : Nat) (f : IntCtrs → IntCtrs) : (d.onInteg i f).datasets = d.datasets := rfl
@[simp] theorem Dev.onInteg_dsetGens (d : Dev) (i : Nat) (f : IntCtrs → IntCtrs) : (d.onInteg i f).dsetGens = d.dsetGens := rfl
@[simp] theorem Dev.onInteg_routes (d : Dev) (i : Nat) (f : IntCtrs → IntCtrs) : (d.onInteg i f).routes = d.routes := rfl
@[simp] theorem Dev.onInteg_vocabs (d : Dev) (i : Nat) (f : IntCtrs → IntCtrs) : (d.onInteg i f).vocabs = d.vocabs := rfl
@[simp] theorem Dev.onInteg_grammars (d : Dev) (i : Nat) (f : IntCtrs → IntCtrs) : (d.onInteg i f).grammars = d.grammars := rfl
@[simp] theorem Dev.onInteg_gramGens (d : Dev) (i : Nat) (f : IntCtrs → IntCtrs) : (d.onInteg i f).gramGens = d.gramGens := rfl
@[simp] theorem Dev.onInteg_streams (d : Dev) (i : Nat) (f : IntCtrs → IntCtrs) : (d.onInteg i f).streams = d.streams := rfl
@[simp] theorem Dev.onInteg_stagings (d : Dev) (i : Nat) (f : IntCtrs → IntCtrs) : (d.onInteg i f).stagings = d.stagings := rfl
@[simp] theorem Dev.onInteg_leases (d : Dev) (i : Nat) (f : IntCtrs → IntCtrs) : (d.onInteg i f).leases = d.leases := rfl
@[simp] theorem Dev.onInteg_nextStaging (d : Dev) (i : Nat) (f : IntCtrs → IntCtrs) : (d.onInteg i f).nextStaging = d.nextStaging := rfl
@[simp] theorem Dev.onInteg_store (d : Dev) (i : Nat) (f : IntCtrs → IntCtrs) : (d.onInteg i f).store = d.store := rfl
@[simp] theorem Dev.onInteg_lbx (d : Dev) (i : Nat) (f : IntCtrs → IntCtrs) : (d.onInteg i f).lbx = d.lbx := rfl
@[simp] theorem Dev.onInteg_env (d : Dev) (i : Nat) (f : IntCtrs → IntCtrs) : (d.onInteg i f).env = d.env := rfl
@[simp] theorem Dev.onInteg_serial (d : Dev) (i : Nat) (f : IntCtrs → IntCtrs) : (d.onInteg i f).serial = d.serial := rfl
@[simp] theorem Dev.onInteg_free (d : Dev) (i : Nat) (f : IntCtrs → IntCtrs) : (d.onInteg i f).free = d.free := rfl
@[simp] theorem Dev.onInteg_dma (d : Dev) (i : Nat) (f : IntCtrs → IntCtrs) : (d.onInteg i f).dma = d.dma := rfl

/-! ### onCluster -/

@[simp] theorem Dev.onCluster_start (d : Dev) (i c : Nat) (f : Cluster → Cluster) : (d.onCluster i c f).start = d.start := rfl
@[simp] theorem Dev.onCluster_rst (d : Dev) (i c : Nat) (f : Cluster → Cluster) : (d.onCluster i c f).rst = d.rst := rfl
@[simp] theorem Dev.onCluster_bkp (d : Dev) (i c : Nat) (f : Cluster → Cluster) : (d.onCluster i c f).bkp = d.bkp := rfl
@[simp] theorem Dev.onCluster_nor (d : Dev) (i c : Nat) (f : Cluster → Cluster) : (d.onCluster i c f).nor = d.nor := rfl
@[simp] theorem Dev.onCluster_seqs (d : Dev) (i c : Nat) (f : Cluster → Cluster) : (d.onCluster i c f).seqs = d.seqs := rfl
@[simp] theorem Dev.onCluster_pwr (d : Dev) (i c : Nat) (f : Cluster → Cluster) : (d.onCluster i c f).pwr = d.pwr := rfl
@[simp] theorem Dev.onCluster_pins (d : Dev) (i c : Nat) (f : Cluster → Cluster) : (d.onCluster i c f).pins = d.pins := rfl
@[simp] theorem Dev.onCluster_clk (d : Dev) (i c : Nat) (f : Cluster → Cluster) : (d.onCluster i c f).clk = d.clk := rfl
@[simp] theorem Dev.onCluster_ports (d : Dev) (i c : Nat) (f : Cluster → Cluster) : (d.onCluster i c f).ports = d.ports := rfl
@[simp] theorem Dev.onCluster_pgh (d : Dev) (i c : Nat) (f : Cluster → Cluster) : (d.onCluster i c f).pgh = d.pgh := rfl
@[simp] theorem Dev.onCluster_pghPorts (d : Dev) (i c : Nat) (f : Cluster → Cluster) : (d.onCluster i c f).pghPorts = d.pghPorts := rfl
@[simp] theorem Dev.onCluster_jobs (d : Dev) (i c : Nat) (f : Cluster → Cluster) : (d.onCluster i c f).jobs = d.jobs := rfl
@[simp] theorem Dev.onCluster_jobGens (d : Dev) (i c : Nat) (f : Cluster → Cluster) : (d.onCluster i c f).jobGens = d.jobGens := rfl
@[simp] theorem Dev.onCluster_datasets (d : Dev) (i c : Nat) (f : Cluster → Cluster) : (d.onCluster i c f).datasets = d.datasets := rfl
@[simp] theorem Dev.onCluster_dsetGens (d : Dev) (i c : Nat) (f : Cluster → Cluster) : (d.onCluster i c f).dsetGens = d.dsetGens := rfl
@[simp] theorem Dev.onCluster_routes (d : Dev) (i c : Nat) (f : Cluster → Cluster) : (d.onCluster i c f).routes = d.routes := rfl
@[simp] theorem Dev.onCluster_vocabs (d : Dev) (i c : Nat) (f : Cluster → Cluster) : (d.onCluster i c f).vocabs = d.vocabs := rfl
@[simp] theorem Dev.onCluster_grammars (d : Dev) (i c : Nat) (f : Cluster → Cluster) : (d.onCluster i c f).grammars = d.grammars := rfl
@[simp] theorem Dev.onCluster_gramGens (d : Dev) (i c : Nat) (f : Cluster → Cluster) : (d.onCluster i c f).gramGens = d.gramGens := rfl
@[simp] theorem Dev.onCluster_streams (d : Dev) (i c : Nat) (f : Cluster → Cluster) : (d.onCluster i c f).streams = d.streams := rfl
@[simp] theorem Dev.onCluster_stagings (d : Dev) (i c : Nat) (f : Cluster → Cluster) : (d.onCluster i c f).stagings = d.stagings := rfl
@[simp] theorem Dev.onCluster_leases (d : Dev) (i c : Nat) (f : Cluster → Cluster) : (d.onCluster i c f).leases = d.leases := rfl
@[simp] theorem Dev.onCluster_nextStaging (d : Dev) (i c : Nat) (f : Cluster → Cluster) : (d.onCluster i c f).nextStaging = d.nextStaging := rfl
@[simp] theorem Dev.onCluster_store (d : Dev) (i c : Nat) (f : Cluster → Cluster) : (d.onCluster i c f).store = d.store := rfl
@[simp] theorem Dev.onCluster_lbx (d : Dev) (i c : Nat) (f : Cluster → Cluster) : (d.onCluster i c f).lbx = d.lbx := rfl
@[simp] theorem Dev.onCluster_env (d : Dev) (i c : Nat) (f : Cluster → Cluster) : (d.onCluster i c f).env = d.env := rfl
@[simp] theorem Dev.onCluster_serial (d : Dev) (i c : Nat) (f : Cluster → Cluster) : (d.onCluster i c f).serial = d.serial := rfl
@[simp] theorem Dev.onCluster_free (d : Dev) (i c : Nat) (f : Cluster → Cluster) : (d.onCluster i c f).free = d.free := rfl
@[simp] theorem Dev.onCluster_dma (d : Dev) (i c : Nat) (f : Cluster → Cluster) : (d.onCluster i c f).dma = d.dma := rfl

/-! ### onCore -/

@[simp] theorem Dev.onCore_start (d : Dev) (c : CoreRef) (f : Core → Core) : (d.onCore c f).start = d.start := by unfold Dev.onCore; split <;> rfl
@[simp] theorem Dev.onCore_rst (d : Dev) (c : CoreRef) (f : Core → Core) : (d.onCore c f).rst = d.rst := by unfold Dev.onCore; split <;> rfl
@[simp] theorem Dev.onCore_bkp (d : Dev) (c : CoreRef) (f : Core → Core) : (d.onCore c f).bkp = d.bkp := by unfold Dev.onCore; split <;> rfl
@[simp] theorem Dev.onCore_nor (d : Dev) (c : CoreRef) (f : Core → Core) : (d.onCore c f).nor = d.nor := by unfold Dev.onCore; split <;> rfl
@[simp] theorem Dev.onCore_seqs (d : Dev) (c : CoreRef) (f : Core → Core) : (d.onCore c f).seqs = d.seqs := by unfold Dev.onCore; split <;> rfl
@[simp] theorem Dev.onCore_pwr (d : Dev) (c : CoreRef) (f : Core → Core) : (d.onCore c f).pwr = d.pwr := by unfold Dev.onCore; split <;> rfl
@[simp] theorem Dev.onCore_pins (d : Dev) (c : CoreRef) (f : Core → Core) : (d.onCore c f).pins = d.pins := by unfold Dev.onCore; split <;> rfl
@[simp] theorem Dev.onCore_clk (d : Dev) (c : CoreRef) (f : Core → Core) : (d.onCore c f).clk = d.clk := by unfold Dev.onCore; split <;> rfl
@[simp] theorem Dev.onCore_ports (d : Dev) (c : CoreRef) (f : Core → Core) : (d.onCore c f).ports = d.ports := by unfold Dev.onCore; split <;> rfl
@[simp] theorem Dev.onCore_pgh (d : Dev) (c : CoreRef) (f : Core → Core) : (d.onCore c f).pgh = d.pgh := by unfold Dev.onCore; split <;> rfl
@[simp] theorem Dev.onCore_pghPorts (d : Dev) (c : CoreRef) (f : Core → Core) : (d.onCore c f).pghPorts = d.pghPorts := by unfold Dev.onCore; split <;> rfl
@[simp] theorem Dev.onCore_jobs (d : Dev) (c : CoreRef) (f : Core → Core) : (d.onCore c f).jobs = d.jobs := by unfold Dev.onCore; split <;> rfl
@[simp] theorem Dev.onCore_jobGens (d : Dev) (c : CoreRef) (f : Core → Core) : (d.onCore c f).jobGens = d.jobGens := by unfold Dev.onCore; split <;> rfl
@[simp] theorem Dev.onCore_datasets (d : Dev) (c : CoreRef) (f : Core → Core) : (d.onCore c f).datasets = d.datasets := by unfold Dev.onCore; split <;> rfl
@[simp] theorem Dev.onCore_dsetGens (d : Dev) (c : CoreRef) (f : Core → Core) : (d.onCore c f).dsetGens = d.dsetGens := by unfold Dev.onCore; split <;> rfl
@[simp] theorem Dev.onCore_routes (d : Dev) (c : CoreRef) (f : Core → Core) : (d.onCore c f).routes = d.routes := by unfold Dev.onCore; split <;> rfl
@[simp] theorem Dev.onCore_vocabs (d : Dev) (c : CoreRef) (f : Core → Core) : (d.onCore c f).vocabs = d.vocabs := by unfold Dev.onCore; split <;> rfl
@[simp] theorem Dev.onCore_grammars (d : Dev) (c : CoreRef) (f : Core → Core) : (d.onCore c f).grammars = d.grammars := by unfold Dev.onCore; split <;> rfl
@[simp] theorem Dev.onCore_gramGens (d : Dev) (c : CoreRef) (f : Core → Core) : (d.onCore c f).gramGens = d.gramGens := by unfold Dev.onCore; split <;> rfl
@[simp] theorem Dev.onCore_streams (d : Dev) (c : CoreRef) (f : Core → Core) : (d.onCore c f).streams = d.streams := by unfold Dev.onCore; split <;> rfl
@[simp] theorem Dev.onCore_stagings (d : Dev) (c : CoreRef) (f : Core → Core) : (d.onCore c f).stagings = d.stagings := by unfold Dev.onCore; split <;> rfl
@[simp] theorem Dev.onCore_leases (d : Dev) (c : CoreRef) (f : Core → Core) : (d.onCore c f).leases = d.leases := by unfold Dev.onCore; split <;> rfl
@[simp] theorem Dev.onCore_nextStaging (d : Dev) (c : CoreRef) (f : Core → Core) : (d.onCore c f).nextStaging = d.nextStaging := by unfold Dev.onCore; split <;> rfl
@[simp] theorem Dev.onCore_store (d : Dev) (c : CoreRef) (f : Core → Core) : (d.onCore c f).store = d.store := by unfold Dev.onCore; split <;> rfl
@[simp] theorem Dev.onCore_lbx (d : Dev) (c : CoreRef) (f : Core → Core) : (d.onCore c f).lbx = d.lbx := by unfold Dev.onCore; split <;> rfl
@[simp] theorem Dev.onCore_env (d : Dev) (c : CoreRef) (f : Core → Core) : (d.onCore c f).env = d.env := by unfold Dev.onCore; split <;> rfl
@[simp] theorem Dev.onCore_serial (d : Dev) (c : CoreRef) (f : Core → Core) : (d.onCore c f).serial = d.serial := by unfold Dev.onCore; split <;> rfl
@[simp] theorem Dev.onCore_free (d : Dev) (c : CoreRef) (f : Core → Core) : (d.onCore c f).free = d.free := by unfold Dev.onCore; split <;> rfl
@[simp] theorem Dev.onCore_dma (d : Dev) (c : CoreRef) (f : Core → Core) : (d.onCore c f).dma = d.dma := by unfold Dev.onCore; split <;> rfl

/-! ### onConn -/

@[simp] theorem Dev.onConn_start (d : Dev) (q : Nat) (f : Conn → Conn) : (d.onConn q f).start = d.start := rfl
@[simp] theorem Dev.onConn_rst (d : Dev) (q : Nat) (f : Conn → Conn) : (d.onConn q f).rst = d.rst := rfl
@[simp] theorem Dev.onConn_bkp (d : Dev) (q : Nat) (f : Conn → Conn) : (d.onConn q f).bkp = d.bkp := rfl
@[simp] theorem Dev.onConn_nor (d : Dev) (q : Nat) (f : Conn → Conn) : (d.onConn q f).nor = d.nor := rfl
@[simp] theorem Dev.onConn_seqs (d : Dev) (q : Nat) (f : Conn → Conn) : (d.onConn q f).seqs = d.seqs := rfl
@[simp] theorem Dev.onConn_pwr (d : Dev) (q : Nat) (f : Conn → Conn) : (d.onConn q f).pwr = d.pwr := rfl
@[simp] theorem Dev.onConn_pins (d : Dev) (q : Nat) (f : Conn → Conn) : (d.onConn q f).pins = d.pins := rfl
@[simp] theorem Dev.onConn_clk (d : Dev) (q : Nat) (f : Conn → Conn) : (d.onConn q f).clk = d.clk := rfl
@[simp] theorem Dev.onConn_ports (d : Dev) (q : Nat) (f : Conn → Conn) : (d.onConn q f).ports = d.ports := rfl
@[simp] theorem Dev.onConn_pgh (d : Dev) (q : Nat) (f : Conn → Conn) : (d.onConn q f).pgh = d.pgh := rfl
@[simp] theorem Dev.onConn_pghPorts (d : Dev) (q : Nat) (f : Conn → Conn) : (d.onConn q f).pghPorts = d.pghPorts := rfl
@[simp] theorem Dev.onConn_jobs (d : Dev) (q : Nat) (f : Conn → Conn) : (d.onConn q f).jobs = d.jobs := rfl
@[simp] theorem Dev.onConn_jobGens (d : Dev) (q : Nat) (f : Conn → Conn) : (d.onConn q f).jobGens = d.jobGens := rfl
@[simp] theorem Dev.onConn_datasets (d : Dev) (q : Nat) (f : Conn → Conn) : (d.onConn q f).datasets = d.datasets := rfl
@[simp] theorem Dev.onConn_dsetGens (d : Dev) (q : Nat) (f : Conn → Conn) : (d.onConn q f).dsetGens = d.dsetGens := rfl
@[simp] theorem Dev.onConn_routes (d : Dev) (q : Nat) (f : Conn → Conn) : (d.onConn q f).routes = d.routes := rfl
@[simp] theorem Dev.onConn_vocabs (d : Dev) (q : Nat) (f : Conn → Conn) : (d.onConn q f).vocabs = d.vocabs := rfl
@[simp] theorem Dev.onConn_grammars (d : Dev) (q : Nat) (f : Conn → Conn) : (d.onConn q f).grammars = d.grammars := rfl
@[simp] theorem Dev.onConn_gramGens (d : Dev) (q : Nat) (f : Conn → Conn) : (d.onConn q f).gramGens = d.gramGens := rfl
@[simp] theorem Dev.onConn_streams (d : Dev) (q : Nat) (f : Conn → Conn) : (d.onConn q f).streams = d.streams := rfl
@[simp] theorem Dev.onConn_stagings (d : Dev) (q : Nat) (f : Conn → Conn) : (d.onConn q f).stagings = d.stagings := rfl
@[simp] theorem Dev.onConn_leases (d : Dev) (q : Nat) (f : Conn → Conn) : (d.onConn q f).leases = d.leases := rfl
@[simp] theorem Dev.onConn_nextStaging (d : Dev) (q : Nat) (f : Conn → Conn) : (d.onConn q f).nextStaging = d.nextStaging := rfl
@[simp] theorem Dev.onConn_store (d : Dev) (q : Nat) (f : Conn → Conn) : (d.onConn q f).store = d.store := rfl
@[simp] theorem Dev.onConn_lbx (d : Dev) (q : Nat) (f : Conn → Conn) : (d.onConn q f).lbx = d.lbx := rfl
@[simp] theorem Dev.onConn_env (d : Dev) (q : Nat) (f : Conn → Conn) : (d.onConn q f).env = d.env := rfl
@[simp] theorem Dev.onConn_serial (d : Dev) (q : Nat) (f : Conn → Conn) : (d.onConn q f).serial = d.serial := rfl
@[simp] theorem Dev.onConn_free (d : Dev) (q : Nat) (f : Conn → Conn) : (d.onConn q f).free = d.free := rfl
@[simp] theorem Dev.onConn_dma (d : Dev) (q : Nat) (f : Conn → Conn) : (d.onConn q f).dma = d.dma := rfl

/-! ### onPort -/

@[simp] theorem Dev.onPort_start (d : Dev) (p : Nat) (f : EthPort → EthPort) : (d.onPort p f).start = d.start := rfl
@[simp] theorem Dev.onPort_rst (d : Dev) (p : Nat) (f : EthPort → EthPort) : (d.onPort p f).rst = d.rst := rfl
@[simp] theorem Dev.onPort_bkp (d : Dev) (p : Nat) (f : EthPort → EthPort) : (d.onPort p f).bkp = d.bkp := rfl
@[simp] theorem Dev.onPort_nor (d : Dev) (p : Nat) (f : EthPort → EthPort) : (d.onPort p f).nor = d.nor := rfl
@[simp] theorem Dev.onPort_seqs (d : Dev) (p : Nat) (f : EthPort → EthPort) : (d.onPort p f).seqs = d.seqs := rfl
@[simp] theorem Dev.onPort_pwr (d : Dev) (p : Nat) (f : EthPort → EthPort) : (d.onPort p f).pwr = d.pwr := rfl
@[simp] theorem Dev.onPort_pins (d : Dev) (p : Nat) (f : EthPort → EthPort) : (d.onPort p f).pins = d.pins := rfl
@[simp] theorem Dev.onPort_clk (d : Dev) (p : Nat) (f : EthPort → EthPort) : (d.onPort p f).clk = d.clk := rfl
@[simp] theorem Dev.onPort_dies (d : Dev) (p : Nat) (f : EthPort → EthPort) : (d.onPort p f).dies = d.dies := rfl
@[simp] theorem Dev.onPort_pgh (d : Dev) (p : Nat) (f : EthPort → EthPort) : (d.onPort p f).pgh = d.pgh := rfl
@[simp] theorem Dev.onPort_pghPorts (d : Dev) (p : Nat) (f : EthPort → EthPort) : (d.onPort p f).pghPorts = d.pghPorts := rfl
@[simp] theorem Dev.onPort_jobs (d : Dev) (p : Nat) (f : EthPort → EthPort) : (d.onPort p f).jobs = d.jobs := rfl
@[simp] theorem Dev.onPort_jobGens (d : Dev) (p : Nat) (f : EthPort → EthPort) : (d.onPort p f).jobGens = d.jobGens := rfl
@[simp] theorem Dev.onPort_datasets (d : Dev) (p : Nat) (f : EthPort → EthPort) : (d.onPort p f).datasets = d.datasets := rfl
@[simp] theorem Dev.onPort_dsetGens (d : Dev) (p : Nat) (f : EthPort → EthPort) : (d.onPort p f).dsetGens = d.dsetGens := rfl
@[simp] theorem Dev.onPort_routes (d : Dev) (p : Nat) (f : EthPort → EthPort) : (d.onPort p f).routes = d.routes := rfl
@[simp] theorem Dev.onPort_vocabs (d : Dev) (p : Nat) (f : EthPort → EthPort) : (d.onPort p f).vocabs = d.vocabs := rfl
@[simp] theorem Dev.onPort_grammars (d : Dev) (p : Nat) (f : EthPort → EthPort) : (d.onPort p f).grammars = d.grammars := rfl
@[simp] theorem Dev.onPort_gramGens (d : Dev) (p : Nat) (f : EthPort → EthPort) : (d.onPort p f).gramGens = d.gramGens := rfl
@[simp] theorem Dev.onPort_streams (d : Dev) (p : Nat) (f : EthPort → EthPort) : (d.onPort p f).streams = d.streams := rfl
@[simp] theorem Dev.onPort_stagings (d : Dev) (p : Nat) (f : EthPort → EthPort) : (d.onPort p f).stagings = d.stagings := rfl
@[simp] theorem Dev.onPort_leases (d : Dev) (p : Nat) (f : EthPort → EthPort) : (d.onPort p f).leases = d.leases := rfl
@[simp] theorem Dev.onPort_nextStaging (d : Dev) (p : Nat) (f : EthPort → EthPort) : (d.onPort p f).nextStaging = d.nextStaging := rfl
@[simp] theorem Dev.onPort_store (d : Dev) (p : Nat) (f : EthPort → EthPort) : (d.onPort p f).store = d.store := rfl
@[simp] theorem Dev.onPort_lbx (d : Dev) (p : Nat) (f : EthPort → EthPort) : (d.onPort p f).lbx = d.lbx := rfl
@[simp] theorem Dev.onPort_env (d : Dev) (p : Nat) (f : EthPort → EthPort) : (d.onPort p f).env = d.env := rfl
@[simp] theorem Dev.onPort_serial (d : Dev) (p : Nat) (f : EthPort → EthPort) : (d.onPort p f).serial = d.serial := rfl
@[simp] theorem Dev.onPort_free (d : Dev) (p : Nat) (f : EthPort → EthPort) : (d.onPort p f).free = d.free := rfl
@[simp] theorem Dev.onPort_dma (d : Dev) (p : Nat) (f : EthPort → EthPort) : (d.onPort p f).dma = d.dma := rfl

/-! ### onHole -/

@[simp] theorem Dev.onHole_start (d : Dev) (p : Nat) (f : Pgh → Pgh) : (d.onHole p f).start = d.start := rfl
@[simp] theorem Dev.onHole_rst (d : Dev) (p : Nat) (f : Pgh → Pgh) : (d.onHole p f).rst = d.rst := rfl
@[simp] theorem Dev.onHole_bkp (d : Dev) (p : Nat) (f : Pgh → Pgh) : (d.onHole p f).bkp = d.bkp := rfl
@[simp] theorem Dev.onHole_nor (d : Dev) (p : Nat) (f : Pgh → Pgh) : (d.onHole p f).nor = d.nor := rfl
@[simp] theorem Dev.onHole_seqs (d : Dev) (p : Nat) (f : Pgh → Pgh) : (d.onHole p f).seqs = d.seqs := rfl
@[simp] theorem Dev.onHole_pwr (d : Dev) (p : Nat) (f : Pgh → Pgh) : (d.onHole p f).pwr = d.pwr := rfl
@[simp] theorem Dev.onHole_pins (d : Dev) (p : Nat) (f : Pgh → Pgh) : (d.onHole p f).pins = d.pins := rfl
@[simp] theorem Dev.onHole_clk (d : Dev) (p : Nat) (f : Pgh → Pgh) : (d.onHole p f).clk = d.clk := rfl
@[simp] theorem Dev.onHole_dies (d : Dev) (p : Nat) (f : Pgh → Pgh) : (d.onHole p f).dies = d.dies := rfl
@[simp] theorem Dev.onHole_ports (d : Dev) (p : Nat) (f : Pgh → Pgh) : (d.onHole p f).ports = d.ports := rfl
@[simp] theorem Dev.onHole_pghPorts (d : Dev) (p : Nat) (f : Pgh → Pgh) : (d.onHole p f).pghPorts = d.pghPorts := rfl
@[simp] theorem Dev.onHole_jobs (d : Dev) (p : Nat) (f : Pgh → Pgh) : (d.onHole p f).jobs = d.jobs := rfl
@[simp] theorem Dev.onHole_jobGens (d : Dev) (p : Nat) (f : Pgh → Pgh) : (d.onHole p f).jobGens = d.jobGens := rfl
@[simp] theorem Dev.onHole_datasets (d : Dev) (p : Nat) (f : Pgh → Pgh) : (d.onHole p f).datasets = d.datasets := rfl
@[simp] theorem Dev.onHole_dsetGens (d : Dev) (p : Nat) (f : Pgh → Pgh) : (d.onHole p f).dsetGens = d.dsetGens := rfl
@[simp] theorem Dev.onHole_routes (d : Dev) (p : Nat) (f : Pgh → Pgh) : (d.onHole p f).routes = d.routes := rfl
@[simp] theorem Dev.onHole_vocabs (d : Dev) (p : Nat) (f : Pgh → Pgh) : (d.onHole p f).vocabs = d.vocabs := rfl
@[simp] theorem Dev.onHole_grammars (d : Dev) (p : Nat) (f : Pgh → Pgh) : (d.onHole p f).grammars = d.grammars := rfl
@[simp] theorem Dev.onHole_gramGens (d : Dev) (p : Nat) (f : Pgh → Pgh) : (d.onHole p f).gramGens = d.gramGens := rfl
@[simp] theorem Dev.onHole_streams (d : Dev) (p : Nat) (f : Pgh → Pgh) : (d.onHole p f).streams = d.streams := rfl
@[simp] theorem Dev.onHole_stagings (d : Dev) (p : Nat) (f : Pgh → Pgh) : (d.onHole p f).stagings = d.stagings := rfl
@[simp] theorem Dev.onHole_leases (d : Dev) (p : Nat) (f : Pgh → Pgh) : (d.onHole p f).leases = d.leases := rfl
@[simp] theorem Dev.onHole_nextStaging (d : Dev) (p : Nat) (f : Pgh → Pgh) : (d.onHole p f).nextStaging = d.nextStaging := rfl
@[simp] theorem Dev.onHole_store (d : Dev) (p : Nat) (f : Pgh → Pgh) : (d.onHole p f).store = d.store := rfl
@[simp] theorem Dev.onHole_lbx (d : Dev) (p : Nat) (f : Pgh → Pgh) : (d.onHole p f).lbx = d.lbx := rfl
@[simp] theorem Dev.onHole_env (d : Dev) (p : Nat) (f : Pgh → Pgh) : (d.onHole p f).env = d.env := rfl
@[simp] theorem Dev.onHole_serial (d : Dev) (p : Nat) (f : Pgh → Pgh) : (d.onHole p f).serial = d.serial := rfl
@[simp] theorem Dev.onHole_free (d : Dev) (p : Nat) (f : Pgh → Pgh) : (d.onHole p f).free = d.free := rfl
@[simp] theorem Dev.onHole_dma (d : Dev) (p : Nat) (f : Pgh → Pgh) : (d.onHole p f).dma = d.dma := rfl

/-! ### onJob -/

@[simp] theorem Dev.onJob_start (d : Dev) (h : Nat) (f : Job → Job) : (d.onJob h f).start = d.start := rfl
@[simp] theorem Dev.onJob_rst (d : Dev) (h : Nat) (f : Job → Job) : (d.onJob h f).rst = d.rst := rfl
@[simp] theorem Dev.onJob_bkp (d : Dev) (h : Nat) (f : Job → Job) : (d.onJob h f).bkp = d.bkp := rfl
@[simp] theorem Dev.onJob_nor (d : Dev) (h : Nat) (f : Job → Job) : (d.onJob h f).nor = d.nor := rfl
@[simp] theorem Dev.onJob_seqs (d : Dev) (h : Nat) (f : Job → Job) : (d.onJob h f).seqs = d.seqs := rfl
@[simp] theorem Dev.onJob_pwr (d : Dev) (h : Nat) (f : Job → Job) : (d.onJob h f).pwr = d.pwr := rfl
@[simp] theorem Dev.onJob_pins (d : Dev) (h : Nat) (f : Job → Job) : (d.onJob h f).pins = d.pins := rfl
@[simp] theorem Dev.onJob_clk (d : Dev) (h : Nat) (f : Job → Job) : (d.onJob h f).clk = d.clk := rfl
@[simp] theorem Dev.onJob_dies (d : Dev) (h : Nat) (f : Job → Job) : (d.onJob h f).dies = d.dies := rfl
@[simp] theorem Dev.onJob_ports (d : Dev) (h : Nat) (f : Job → Job) : (d.onJob h f).ports = d.ports := rfl
@[simp] theorem Dev.onJob_pgh (d : Dev) (h : Nat) (f : Job → Job) : (d.onJob h f).pgh = d.pgh := rfl
@[simp] theorem Dev.onJob_pghPorts (d : Dev) (h : Nat) (f : Job → Job) : (d.onJob h f).pghPorts = d.pghPorts := rfl
@[simp] theorem Dev.onJob_jobGens (d : Dev) (h : Nat) (f : Job → Job) : (d.onJob h f).jobGens = d.jobGens := rfl
@[simp] theorem Dev.onJob_datasets (d : Dev) (h : Nat) (f : Job → Job) : (d.onJob h f).datasets = d.datasets := rfl
@[simp] theorem Dev.onJob_dsetGens (d : Dev) (h : Nat) (f : Job → Job) : (d.onJob h f).dsetGens = d.dsetGens := rfl
@[simp] theorem Dev.onJob_routes (d : Dev) (h : Nat) (f : Job → Job) : (d.onJob h f).routes = d.routes := rfl
@[simp] theorem Dev.onJob_vocabs (d : Dev) (h : Nat) (f : Job → Job) : (d.onJob h f).vocabs = d.vocabs := rfl
@[simp] theorem Dev.onJob_grammars (d : Dev) (h : Nat) (f : Job → Job) : (d.onJob h f).grammars = d.grammars := rfl
@[simp] theorem Dev.onJob_gramGens (d : Dev) (h : Nat) (f : Job → Job) : (d.onJob h f).gramGens = d.gramGens := rfl
@[simp] theorem Dev.onJob_streams (d : Dev) (h : Nat) (f : Job → Job) : (d.onJob h f).streams = d.streams := rfl
@[simp] theorem Dev.onJob_stagings (d : Dev) (h : Nat) (f : Job → Job) : (d.onJob h f).stagings = d.stagings := rfl
@[simp] theorem Dev.onJob_leases (d : Dev) (h : Nat) (f : Job → Job) : (d.onJob h f).leases = d.leases := rfl
@[simp] theorem Dev.onJob_nextStaging (d : Dev) (h : Nat) (f : Job → Job) : (d.onJob h f).nextStaging = d.nextStaging := rfl
@[simp] theorem Dev.onJob_store (d : Dev) (h : Nat) (f : Job → Job) : (d.onJob h f).store = d.store := rfl
@[simp] theorem Dev.onJob_lbx (d : Dev) (h : Nat) (f : Job → Job) : (d.onJob h f).lbx = d.lbx := rfl
@[simp] theorem Dev.onJob_env (d : Dev) (h : Nat) (f : Job → Job) : (d.onJob h f).env = d.env := rfl
@[simp] theorem Dev.onJob_serial (d : Dev) (h : Nat) (f : Job → Job) : (d.onJob h f).serial = d.serial := rfl
@[simp] theorem Dev.onJob_free (d : Dev) (h : Nat) (f : Job → Job) : (d.onJob h f).free = d.free := rfl
@[simp] theorem Dev.onJob_dma (d : Dev) (h : Nat) (f : Job → Job) : (d.onJob h f).dma = d.dma := rfl

/-! ### onRank -/

@[simp] theorem Dev.onRank_start (d : Dev) (h r : Nat) (f : Rank → Rank) : (d.onRank h r f).start = d.start := rfl
@[simp] theorem Dev.onRank_rst (d : Dev) (h r : Nat) (f : Rank → Rank) : (d.onRank h r f).rst = d.rst := rfl
@[simp] theorem Dev.onRank_bkp (d : Dev) (h r : Nat) (f : Rank → Rank) : (d.onRank h r f).bkp = d.bkp := rfl
@[simp] theorem Dev.onRank_nor (d : Dev) (h r : Nat) (f : Rank → Rank) : (d.onRank h r f).nor = d.nor := rfl
@[simp] theorem Dev.onRank_seqs (d : Dev) (h r : Nat) (f : Rank → Rank) : (d.onRank h r f).seqs = d.seqs := rfl
@[simp] theorem Dev.onRank_pwr (d : Dev) (h r : Nat) (f : Rank → Rank) : (d.onRank h r f).pwr = d.pwr := rfl
@[simp] theorem Dev.onRank_pins (d : Dev) (h r : Nat) (f : Rank → Rank) : (d.onRank h r f).pins = d.pins := rfl
@[simp] theorem Dev.onRank_clk (d : Dev) (h r : Nat) (f : Rank → Rank) : (d.onRank h r f).clk = d.clk := rfl
@[simp] theorem Dev.onRank_dies (d : Dev) (h r : Nat) (f : Rank → Rank) : (d.onRank h r f).dies = d.dies := rfl
@[simp] theorem Dev.onRank_ports (d : Dev) (h r : Nat) (f : Rank → Rank) : (d.onRank h r f).ports = d.ports := rfl
@[simp] theorem Dev.onRank_pgh (d : Dev) (h r : Nat) (f : Rank → Rank) : (d.onRank h r f).pgh = d.pgh := rfl
@[simp] theorem Dev.onRank_pghPorts (d : Dev) (h r : Nat) (f : Rank → Rank) : (d.onRank h r f).pghPorts = d.pghPorts := rfl
@[simp] theorem Dev.onRank_jobGens (d : Dev) (h r : Nat) (f : Rank → Rank) : (d.onRank h r f).jobGens = d.jobGens := rfl
@[simp] theorem Dev.onRank_datasets (d : Dev) (h r : Nat) (f : Rank → Rank) : (d.onRank h r f).datasets = d.datasets := rfl
@[simp] theorem Dev.onRank_dsetGens (d : Dev) (h r : Nat) (f : Rank → Rank) : (d.onRank h r f).dsetGens = d.dsetGens := rfl
@[simp] theorem Dev.onRank_routes (d : Dev) (h r : Nat) (f : Rank → Rank) : (d.onRank h r f).routes = d.routes := rfl
@[simp] theorem Dev.onRank_vocabs (d : Dev) (h r : Nat) (f : Rank → Rank) : (d.onRank h r f).vocabs = d.vocabs := rfl
@[simp] theorem Dev.onRank_grammars (d : Dev) (h r : Nat) (f : Rank → Rank) : (d.onRank h r f).grammars = d.grammars := rfl
@[simp] theorem Dev.onRank_gramGens (d : Dev) (h r : Nat) (f : Rank → Rank) : (d.onRank h r f).gramGens = d.gramGens := rfl
@[simp] theorem Dev.onRank_streams (d : Dev) (h r : Nat) (f : Rank → Rank) : (d.onRank h r f).streams = d.streams := rfl
@[simp] theorem Dev.onRank_stagings (d : Dev) (h r : Nat) (f : Rank → Rank) : (d.onRank h r f).stagings = d.stagings := rfl
@[simp] theorem Dev.onRank_leases (d : Dev) (h r : Nat) (f : Rank → Rank) : (d.onRank h r f).leases = d.leases := rfl
@[simp] theorem Dev.onRank_nextStaging (d : Dev) (h r : Nat) (f : Rank → Rank) : (d.onRank h r f).nextStaging = d.nextStaging := rfl
@[simp] theorem Dev.onRank_store (d : Dev) (h r : Nat) (f : Rank → Rank) : (d.onRank h r f).store = d.store := rfl
@[simp] theorem Dev.onRank_lbx (d : Dev) (h r : Nat) (f : Rank → Rank) : (d.onRank h r f).lbx = d.lbx := rfl
@[simp] theorem Dev.onRank_env (d : Dev) (h r : Nat) (f : Rank → Rank) : (d.onRank h r f).env = d.env := rfl
@[simp] theorem Dev.onRank_serial (d : Dev) (h r : Nat) (f : Rank → Rank) : (d.onRank h r f).serial = d.serial := rfl
@[simp] theorem Dev.onRank_free (d : Dev) (h r : Nat) (f : Rank → Rank) : (d.onRank h r f).free = d.free := rfl
@[simp] theorem Dev.onRank_dma (d : Dev) (h r : Nat) (f : Rank → Rank) : (d.onRank h r f).dma = d.dma := rfl

/-! ### onEntry -/

@[simp] theorem Dev.onEntry_start (d : Dev) (i : ItemRef) (f : Entry → Entry) : (d.onEntry i f).start = d.start := rfl
@[simp] theorem Dev.onEntry_rst (d : Dev) (i : ItemRef) (f : Entry → Entry) : (d.onEntry i f).rst = d.rst := rfl
@[simp] theorem Dev.onEntry_bkp (d : Dev) (i : ItemRef) (f : Entry → Entry) : (d.onEntry i f).bkp = d.bkp := rfl
@[simp] theorem Dev.onEntry_nor (d : Dev) (i : ItemRef) (f : Entry → Entry) : (d.onEntry i f).nor = d.nor := rfl
@[simp] theorem Dev.onEntry_seqs (d : Dev) (i : ItemRef) (f : Entry → Entry) : (d.onEntry i f).seqs = d.seqs := rfl
@[simp] theorem Dev.onEntry_pwr (d : Dev) (i : ItemRef) (f : Entry → Entry) : (d.onEntry i f).pwr = d.pwr := rfl
@[simp] theorem Dev.onEntry_pins (d : Dev) (i : ItemRef) (f : Entry → Entry) : (d.onEntry i f).pins = d.pins := rfl
@[simp] theorem Dev.onEntry_clk (d : Dev) (i : ItemRef) (f : Entry → Entry) : (d.onEntry i f).clk = d.clk := rfl
@[simp] theorem Dev.onEntry_dies (d : Dev) (i : ItemRef) (f : Entry → Entry) : (d.onEntry i f).dies = d.dies := rfl
@[simp] theorem Dev.onEntry_ports (d : Dev) (i : ItemRef) (f : Entry → Entry) : (d.onEntry i f).ports = d.ports := rfl
@[simp] theorem Dev.onEntry_pgh (d : Dev) (i : ItemRef) (f : Entry → Entry) : (d.onEntry i f).pgh = d.pgh := rfl
@[simp] theorem Dev.onEntry_pghPorts (d : Dev) (i : ItemRef) (f : Entry → Entry) : (d.onEntry i f).pghPorts = d.pghPorts := rfl
@[simp] theorem Dev.onEntry_jobGens (d : Dev) (i : ItemRef) (f : Entry → Entry) : (d.onEntry i f).jobGens = d.jobGens := rfl
@[simp] theorem Dev.onEntry_datasets (d : Dev) (i : ItemRef) (f : Entry → Entry) : (d.onEntry i f).datasets = d.datasets := rfl
@[simp] theorem Dev.onEntry_dsetGens (d : Dev) (i : ItemRef) (f : Entry → Entry) : (d.onEntry i f).dsetGens = d.dsetGens := rfl
@[simp] theorem Dev.onEntry_routes (d : Dev) (i : ItemRef) (f : Entry → Entry) : (d.onEntry i f).routes = d.routes := rfl
@[simp] theorem Dev.onEntry_vocabs (d : Dev) (i : ItemRef) (f : Entry → Entry) : (d.onEntry i f).vocabs = d.vocabs := rfl
@[simp] theorem Dev.onEntry_grammars (d : Dev) (i : ItemRef) (f : Entry → Entry) : (d.onEntry i f).grammars = d.grammars := rfl
@[simp] theorem Dev.onEntry_gramGens (d : Dev) (i : ItemRef) (f : Entry → Entry) : (d.onEntry i f).gramGens = d.gramGens := rfl
@[simp] theorem Dev.onEntry_streams (d : Dev) (i : ItemRef) (f : Entry → Entry) : (d.onEntry i f).streams = d.streams := rfl
@[simp] theorem Dev.onEntry_stagings (d : Dev) (i : ItemRef) (f : Entry → Entry) : (d.onEntry i f).stagings = d.stagings := rfl
@[simp] theorem Dev.onEntry_leases (d : Dev) (i : ItemRef) (f : Entry → Entry) : (d.onEntry i f).leases = d.leases := rfl
@[simp] theorem Dev.onEntry_nextStaging (d : Dev) (i : ItemRef) (f : Entry → Entry) : (d.onEntry i f).nextStaging = d.nextStaging := rfl
@[simp] theorem Dev.onEntry_store (d : Dev) (i : ItemRef) (f : Entry → Entry) : (d.onEntry i f).store = d.store := rfl
@[simp] theorem Dev.onEntry_lbx (d : Dev) (i : ItemRef) (f : Entry → Entry) : (d.onEntry i f).lbx = d.lbx := rfl
@[simp] theorem Dev.onEntry_env (d : Dev) (i : ItemRef) (f : Entry → Entry) : (d.onEntry i f).env = d.env := rfl
@[simp] theorem Dev.onEntry_serial (d : Dev) (i : ItemRef) (f : Entry → Entry) : (d.onEntry i f).serial = d.serial := rfl
@[simp] theorem Dev.onEntry_free (d : Dev) (i : ItemRef) (f : Entry → Entry) : (d.onEntry i f).free = d.free := rfl
@[simp] theorem Dev.onEntry_dma (d : Dev) (i : ItemRef) (f : Entry → Entry) : (d.onEntry i f).dma = d.dma := rfl

/-! ### onJobCtrs -/

@[simp] theorem Dev.onJobCtrs_start (d : Dev) (h : Nat) (f : JobCtrs → JobCtrs) : (d.onJobCtrs h f).start = d.start := rfl
@[simp] theorem Dev.onJobCtrs_rst (d : Dev) (h : Nat) (f : JobCtrs → JobCtrs) : (d.onJobCtrs h f).rst = d.rst := rfl
@[simp] theorem Dev.onJobCtrs_bkp (d : Dev) (h : Nat) (f : JobCtrs → JobCtrs) : (d.onJobCtrs h f).bkp = d.bkp := rfl
@[simp] theorem Dev.onJobCtrs_nor (d : Dev) (h : Nat) (f : JobCtrs → JobCtrs) : (d.onJobCtrs h f).nor = d.nor := rfl
@[simp] theorem Dev.onJobCtrs_seqs (d : Dev) (h : Nat) (f : JobCtrs → JobCtrs) : (d.onJobCtrs h f).seqs = d.seqs := rfl
@[simp] theorem Dev.onJobCtrs_pwr (d : Dev) (h : Nat) (f : JobCtrs → JobCtrs) : (d.onJobCtrs h f).pwr = d.pwr := rfl
@[simp] theorem Dev.onJobCtrs_pins (d : Dev) (h : Nat) (f : JobCtrs → JobCtrs) : (d.onJobCtrs h f).pins = d.pins := rfl
@[simp] theorem Dev.onJobCtrs_clk (d : Dev) (h : Nat) (f : JobCtrs → JobCtrs) : (d.onJobCtrs h f).clk = d.clk := rfl
@[simp] theorem Dev.onJobCtrs_dies (d : Dev) (h : Nat) (f : JobCtrs → JobCtrs) : (d.onJobCtrs h f).dies = d.dies := rfl
@[simp] theorem Dev.onJobCtrs_ports (d : Dev) (h : Nat) (f : JobCtrs → JobCtrs) : (d.onJobCtrs h f).ports = d.ports := rfl
@[simp] theorem Dev.onJobCtrs_pgh (d : Dev) (h : Nat) (f : JobCtrs → JobCtrs) : (d.onJobCtrs h f).pgh = d.pgh := rfl
@[simp] theorem Dev.onJobCtrs_pghPorts (d : Dev) (h : Nat) (f : JobCtrs → JobCtrs) : (d.onJobCtrs h f).pghPorts = d.pghPorts := rfl
@[simp] theorem Dev.onJobCtrs_jobGens (d : Dev) (h : Nat) (f : JobCtrs → JobCtrs) : (d.onJobCtrs h f).jobGens = d.jobGens := rfl
@[simp] theorem Dev.onJobCtrs_datasets (d : Dev) (h : Nat) (f : JobCtrs → JobCtrs) : (d.onJobCtrs h f).datasets = d.datasets := rfl
@[simp] theorem Dev.onJobCtrs_dsetGens (d : Dev) (h : Nat) (f : JobCtrs → JobCtrs) : (d.onJobCtrs h f).dsetGens = d.dsetGens := rfl
@[simp] theorem Dev.onJobCtrs_routes (d : Dev) (h : Nat) (f : JobCtrs → JobCtrs) : (d.onJobCtrs h f).routes = d.routes := rfl
@[simp] theorem Dev.onJobCtrs_vocabs (d : Dev) (h : Nat) (f : JobCtrs → JobCtrs) : (d.onJobCtrs h f).vocabs = d.vocabs := rfl
@[simp] theorem Dev.onJobCtrs_grammars (d : Dev) (h : Nat) (f : JobCtrs → JobCtrs) : (d.onJobCtrs h f).grammars = d.grammars := rfl
@[simp] theorem Dev.onJobCtrs_gramGens (d : Dev) (h : Nat) (f : JobCtrs → JobCtrs) : (d.onJobCtrs h f).gramGens = d.gramGens := rfl
@[simp] theorem Dev.onJobCtrs_streams (d : Dev) (h : Nat) (f : JobCtrs → JobCtrs) : (d.onJobCtrs h f).streams = d.streams := rfl
@[simp] theorem Dev.onJobCtrs_stagings (d : Dev) (h : Nat) (f : JobCtrs → JobCtrs) : (d.onJobCtrs h f).stagings = d.stagings := rfl
@[simp] theorem Dev.onJobCtrs_leases (d : Dev) (h : Nat) (f : JobCtrs → JobCtrs) : (d.onJobCtrs h f).leases = d.leases := rfl
@[simp] theorem Dev.onJobCtrs_nextStaging (d : Dev) (h : Nat) (f : JobCtrs → JobCtrs) : (d.onJobCtrs h f).nextStaging = d.nextStaging := rfl
@[simp] theorem Dev.onJobCtrs_store (d : Dev) (h : Nat) (f : JobCtrs → JobCtrs) : (d.onJobCtrs h f).store = d.store := rfl
@[simp] theorem Dev.onJobCtrs_lbx (d : Dev) (h : Nat) (f : JobCtrs → JobCtrs) : (d.onJobCtrs h f).lbx = d.lbx := rfl
@[simp] theorem Dev.onJobCtrs_env (d : Dev) (h : Nat) (f : JobCtrs → JobCtrs) : (d.onJobCtrs h f).env = d.env := rfl
@[simp] theorem Dev.onJobCtrs_serial (d : Dev) (h : Nat) (f : JobCtrs → JobCtrs) : (d.onJobCtrs h f).serial = d.serial := rfl
@[simp] theorem Dev.onJobCtrs_free (d : Dev) (h : Nat) (f : JobCtrs → JobCtrs) : (d.onJobCtrs h f).free = d.free := rfl
@[simp] theorem Dev.onJobCtrs_dma (d : Dev) (h : Nat) (f : JobCtrs → JobCtrs) : (d.onJobCtrs h f).dma = d.dma := rfl

/-! ### onBarrier -/

@[simp] theorem Dev.onBarrier_start (d : Dev) (h : Nat) (f : Barrier → Barrier) : (d.onBarrier h f).start = d.start := rfl
@[simp] theorem Dev.onBarrier_rst (d : Dev) (h : Nat) (f : Barrier → Barrier) : (d.onBarrier h f).rst = d.rst := rfl
@[simp] theorem Dev.onBarrier_bkp (d : Dev) (h : Nat) (f : Barrier → Barrier) : (d.onBarrier h f).bkp = d.bkp := rfl
@[simp] theorem Dev.onBarrier_nor (d : Dev) (h : Nat) (f : Barrier → Barrier) : (d.onBarrier h f).nor = d.nor := rfl
@[simp] theorem Dev.onBarrier_seqs (d : Dev) (h : Nat) (f : Barrier → Barrier) : (d.onBarrier h f).seqs = d.seqs := rfl
@[simp] theorem Dev.onBarrier_pwr (d : Dev) (h : Nat) (f : Barrier → Barrier) : (d.onBarrier h f).pwr = d.pwr := rfl
@[simp] theorem Dev.onBarrier_pins (d : Dev) (h : Nat) (f : Barrier → Barrier) : (d.onBarrier h f).pins = d.pins := rfl
@[simp] theorem Dev.onBarrier_clk (d : Dev) (h : Nat) (f : Barrier → Barrier) : (d.onBarrier h f).clk = d.clk := rfl
@[simp] theorem Dev.onBarrier_dies (d : Dev) (h : Nat) (f : Barrier → Barrier) : (d.onBarrier h f).dies = d.dies := rfl
@[simp] theorem Dev.onBarrier_ports (d : Dev) (h : Nat) (f : Barrier → Barrier) : (d.onBarrier h f).ports = d.ports := rfl
@[simp] theorem Dev.onBarrier_pgh (d : Dev) (h : Nat) (f : Barrier → Barrier) : (d.onBarrier h f).pgh = d.pgh := rfl
@[simp] theorem Dev.onBarrier_pghPorts (d : Dev) (h : Nat) (f : Barrier → Barrier) : (d.onBarrier h f).pghPorts = d.pghPorts := rfl
@[simp] theorem Dev.onBarrier_jobGens (d : Dev) (h : Nat) (f : Barrier → Barrier) : (d.onBarrier h f).jobGens = d.jobGens := rfl
@[simp] theorem Dev.onBarrier_datasets (d : Dev) (h : Nat) (f : Barrier → Barrier) : (d.onBarrier h f).datasets = d.datasets := rfl
@[simp] theorem Dev.onBarrier_dsetGens (d : Dev) (h : Nat) (f : Barrier → Barrier) : (d.onBarrier h f).dsetGens = d.dsetGens := rfl
@[simp] theorem Dev.onBarrier_routes (d : Dev) (h : Nat) (f : Barrier → Barrier) : (d.onBarrier h f).routes = d.routes := rfl
@[simp] theorem Dev.onBarrier_vocabs (d : Dev) (h : Nat) (f : Barrier → Barrier) : (d.onBarrier h f).vocabs = d.vocabs := rfl
@[simp] theorem Dev.onBarrier_grammars (d : Dev) (h : Nat) (f : Barrier → Barrier) : (d.onBarrier h f).grammars = d.grammars := rfl
@[simp] theorem Dev.onBarrier_gramGens (d : Dev) (h : Nat) (f : Barrier → Barrier) : (d.onBarrier h f).gramGens = d.gramGens := rfl
@[simp] theorem Dev.onBarrier_streams (d : Dev) (h : Nat) (f : Barrier → Barrier) : (d.onBarrier h f).streams = d.streams := rfl
@[simp] theorem Dev.onBarrier_stagings (d : Dev) (h : Nat) (f : Barrier → Barrier) : (d.onBarrier h f).stagings = d.stagings := rfl
@[simp] theorem Dev.onBarrier_leases (d : Dev) (h : Nat) (f : Barrier → Barrier) : (d.onBarrier h f).leases = d.leases := rfl
@[simp] theorem Dev.onBarrier_nextStaging (d : Dev) (h : Nat) (f : Barrier → Barrier) : (d.onBarrier h f).nextStaging = d.nextStaging := rfl
@[simp] theorem Dev.onBarrier_store (d : Dev) (h : Nat) (f : Barrier → Barrier) : (d.onBarrier h f).store = d.store := rfl
@[simp] theorem Dev.onBarrier_lbx (d : Dev) (h : Nat) (f : Barrier → Barrier) : (d.onBarrier h f).lbx = d.lbx := rfl
@[simp] theorem Dev.onBarrier_env (d : Dev) (h : Nat) (f : Barrier → Barrier) : (d.onBarrier h f).env = d.env := rfl
@[simp] theorem Dev.onBarrier_serial (d : Dev) (h : Nat) (f : Barrier → Barrier) : (d.onBarrier h f).serial = d.serial := rfl
@[simp] theorem Dev.onBarrier_free (d : Dev) (h : Nat) (f : Barrier → Barrier) : (d.onBarrier h f).free = d.free := rfl
@[simp] theorem Dev.onBarrier_dma (d : Dev) (h : Nat) (f : Barrier → Barrier) : (d.onBarrier h f).dma = d.dma := rfl

/-! ### onStore -/

@[simp] theorem Dev.onStore_start (d : Dev) (f : Store → Store) : (d.onStore f).start = d.start := rfl
@[simp] theorem Dev.onStore_rst (d : Dev) (f : Store → Store) : (d.onStore f).rst = d.rst := rfl
@[simp] theorem Dev.onStore_bkp (d : Dev) (f : Store → Store) : (d.onStore f).bkp = d.bkp := rfl
@[simp] theorem Dev.onStore_nor (d : Dev) (f : Store → Store) : (d.onStore f).nor = d.nor := rfl
@[simp] theorem Dev.onStore_seqs (d : Dev) (f : Store → Store) : (d.onStore f).seqs = d.seqs := rfl
@[simp] theorem Dev.onStore_pwr (d : Dev) (f : Store → Store) : (d.onStore f).pwr = d.pwr := rfl
@[simp] theorem Dev.onStore_pins (d : Dev) (f : Store → Store) : (d.onStore f).pins = d.pins := rfl
@[simp] theorem Dev.onStore_clk (d : Dev) (f : Store → Store) : (d.onStore f).clk = d.clk := rfl
@[simp] theorem Dev.onStore_dies (d : Dev) (f : Store → Store) : (d.onStore f).dies = d.dies := rfl
@[simp] theorem Dev.onStore_ports (d : Dev) (f : Store → Store) : (d.onStore f).ports = d.ports := rfl
@[simp] theorem Dev.onStore_pgh (d : Dev) (f : Store → Store) : (d.onStore f).pgh = d.pgh := rfl
@[simp] theorem Dev.onStore_pghPorts (d : Dev) (f : Store → Store) : (d.onStore f).pghPorts = d.pghPorts := rfl
@[simp] theorem Dev.onStore_jobs (d : Dev) (f : Store → Store) : (d.onStore f).jobs = d.jobs := rfl
@[simp] theorem Dev.onStore_jobGens (d : Dev) (f : Store → Store) : (d.onStore f).jobGens = d.jobGens := rfl
@[simp] theorem Dev.onStore_datasets (d : Dev) (f : Store → Store) : (d.onStore f).datasets = d.datasets := rfl
@[simp] theorem Dev.onStore_dsetGens (d : Dev) (f : Store → Store) : (d.onStore f).dsetGens = d.dsetGens := rfl
@[simp] theorem Dev.onStore_routes (d : Dev) (f : Store → Store) : (d.onStore f).routes = d.routes := rfl
@[simp] theorem Dev.onStore_vocabs (d : Dev) (f : Store → Store) : (d.onStore f).vocabs = d.vocabs := rfl
@[simp] theorem Dev.onStore_grammars (d : Dev) (f : Store → Store) : (d.onStore f).grammars = d.grammars := rfl
@[simp] theorem Dev.onStore_gramGens (d : Dev) (f : Store → Store) : (d.onStore f).gramGens = d.gramGens := rfl
@[simp] theorem Dev.onStore_streams (d : Dev) (f : Store → Store) : (d.onStore f).streams = d.streams := rfl
@[simp] theorem Dev.onStore_stagings (d : Dev) (f : Store → Store) : (d.onStore f).stagings = d.stagings := rfl
@[simp] theorem Dev.onStore_leases (d : Dev) (f : Store → Store) : (d.onStore f).leases = d.leases := rfl
@[simp] theorem Dev.onStore_nextStaging (d : Dev) (f : Store → Store) : (d.onStore f).nextStaging = d.nextStaging := rfl
@[simp] theorem Dev.onStore_lbx (d : Dev) (f : Store → Store) : (d.onStore f).lbx = d.lbx := rfl
@[simp] theorem Dev.onStore_env (d : Dev) (f : Store → Store) : (d.onStore f).env = d.env := rfl
@[simp] theorem Dev.onStore_serial (d : Dev) (f : Store → Store) : (d.onStore f).serial = d.serial := rfl
@[simp] theorem Dev.onStore_free (d : Dev) (f : Store → Store) : (d.onStore f).free = d.free := rfl
@[simp] theorem Dev.onStore_dma (d : Dev) (f : Store → Store) : (d.onStore f).dma = d.dma := rfl

/-! ### onPart -/

@[simp] theorem Dev.onPart_start (d : Dev) (p : Nat) (f : Partition → Partition) : (d.onPart p f).start = d.start := rfl
@[simp] theorem Dev.onPart_rst (d : Dev) (p : Nat) (f : Partition → Partition) : (d.onPart p f).rst = d.rst := rfl
@[simp] theorem Dev.onPart_bkp (d : Dev) (p : Nat) (f : Partition → Partition) : (d.onPart p f).bkp = d.bkp := rfl
@[simp] theorem Dev.onPart_nor (d : Dev) (p : Nat) (f : Partition → Partition) : (d.onPart p f).nor = d.nor := rfl
@[simp] theorem Dev.onPart_seqs (d : Dev) (p : Nat) (f : Partition → Partition) : (d.onPart p f).seqs = d.seqs := rfl
@[simp] theorem Dev.onPart_pwr (d : Dev) (p : Nat) (f : Partition → Partition) : (d.onPart p f).pwr = d.pwr := rfl
@[simp] theorem Dev.onPart_pins (d : Dev) (p : Nat) (f : Partition → Partition) : (d.onPart p f).pins = d.pins := rfl
@[simp] theorem Dev.onPart_clk (d : Dev) (p : Nat) (f : Partition → Partition) : (d.onPart p f).clk = d.clk := rfl
@[simp] theorem Dev.onPart_dies (d : Dev) (p : Nat) (f : Partition → Partition) : (d.onPart p f).dies = d.dies := rfl
@[simp] theorem Dev.onPart_ports (d : Dev) (p : Nat) (f : Partition → Partition) : (d.onPart p f).ports = d.ports := rfl
@[simp] theorem Dev.onPart_pgh (d : Dev) (p : Nat) (f : Partition → Partition) : (d.onPart p f).pgh = d.pgh := rfl
@[simp] theorem Dev.onPart_pghPorts (d : Dev) (p : Nat) (f : Partition → Partition) : (d.onPart p f).pghPorts = d.pghPorts := rfl
@[simp] theorem Dev.onPart_jobs (d : Dev) (p : Nat) (f : Partition → Partition) : (d.onPart p f).jobs = d.jobs := rfl
@[simp] theorem Dev.onPart_jobGens (d : Dev) (p : Nat) (f : Partition → Partition) : (d.onPart p f).jobGens = d.jobGens := rfl
@[simp] theorem Dev.onPart_datasets (d : Dev) (p : Nat) (f : Partition → Partition) : (d.onPart p f).datasets = d.datasets := rfl
@[simp] theorem Dev.onPart_dsetGens (d : Dev) (p : Nat) (f : Partition → Partition) : (d.onPart p f).dsetGens = d.dsetGens := rfl
@[simp] theorem Dev.onPart_routes (d : Dev) (p : Nat) (f : Partition → Partition) : (d.onPart p f).routes = d.routes := rfl
@[simp] theorem Dev.onPart_vocabs (d : Dev) (p : Nat) (f : Partition → Partition) : (d.onPart p f).vocabs = d.vocabs := rfl
@[simp] theorem Dev.onPart_grammars (d : Dev) (p : Nat) (f : Partition → Partition) : (d.onPart p f).grammars = d.grammars := rfl
@[simp] theorem Dev.onPart_gramGens (d : Dev) (p : Nat) (f : Partition → Partition) : (d.onPart p f).gramGens = d.gramGens := rfl
@[simp] theorem Dev.onPart_streams (d : Dev) (p : Nat) (f : Partition → Partition) : (d.onPart p f).streams = d.streams := rfl
@[simp] theorem Dev.onPart_stagings (d : Dev) (p : Nat) (f : Partition → Partition) : (d.onPart p f).stagings = d.stagings := rfl
@[simp] theorem Dev.onPart_leases (d : Dev) (p : Nat) (f : Partition → Partition) : (d.onPart p f).leases = d.leases := rfl
@[simp] theorem Dev.onPart_nextStaging (d : Dev) (p : Nat) (f : Partition → Partition) : (d.onPart p f).nextStaging = d.nextStaging := rfl
@[simp] theorem Dev.onPart_lbx (d : Dev) (p : Nat) (f : Partition → Partition) : (d.onPart p f).lbx = d.lbx := rfl
@[simp] theorem Dev.onPart_env (d : Dev) (p : Nat) (f : Partition → Partition) : (d.onPart p f).env = d.env := rfl
@[simp] theorem Dev.onPart_serial (d : Dev) (p : Nat) (f : Partition → Partition) : (d.onPart p f).serial = d.serial := rfl
@[simp] theorem Dev.onPart_free (d : Dev) (p : Nat) (f : Partition → Partition) : (d.onPart p f).free = d.free := rfl
@[simp] theorem Dev.onPart_dma (d : Dev) (p : Nat) (f : Partition → Partition) : (d.onPart p f).dma = d.dma := rfl

/-! ### onStream -/

@[simp] theorem Dev.onStream_start (d : Dev) (n : Nat) (f : Stream → Stream) : (d.onStream n f).start = d.start := rfl
@[simp] theorem Dev.onStream_rst (d : Dev) (n : Nat) (f : Stream → Stream) : (d.onStream n f).rst = d.rst := rfl
@[simp] theorem Dev.onStream_bkp (d : Dev) (n : Nat) (f : Stream → Stream) : (d.onStream n f).bkp = d.bkp := rfl
@[simp] theorem Dev.onStream_nor (d : Dev) (n : Nat) (f : Stream → Stream) : (d.onStream n f).nor = d.nor := rfl
@[simp] theorem Dev.onStream_seqs (d : Dev) (n : Nat) (f : Stream → Stream) : (d.onStream n f).seqs = d.seqs := rfl
@[simp] theorem Dev.onStream_pwr (d : Dev) (n : Nat) (f : Stream → Stream) : (d.onStream n f).pwr = d.pwr := rfl
@[simp] theorem Dev.onStream_pins (d : Dev) (n : Nat) (f : Stream → Stream) : (d.onStream n f).pins = d.pins := rfl
@[simp] theorem Dev.onStream_clk (d : Dev) (n : Nat) (f : Stream → Stream) : (d.onStream n f).clk = d.clk := rfl
@[simp] theorem Dev.onStream_dies (d : Dev) (n : Nat) (f : Stream → Stream) : (d.onStream n f).dies = d.dies := rfl
@[simp] theorem Dev.onStream_ports (d : Dev) (n : Nat) (f : Stream → Stream) : (d.onStream n f).ports = d.ports := rfl
@[simp] theorem Dev.onStream_pgh (d : Dev) (n : Nat) (f : Stream → Stream) : (d.onStream n f).pgh = d.pgh := rfl
@[simp] theorem Dev.onStream_pghPorts (d : Dev) (n : Nat) (f : Stream → Stream) : (d.onStream n f).pghPorts = d.pghPorts := rfl
@[simp] theorem Dev.onStream_jobs (d : Dev) (n : Nat) (f : Stream → Stream) : (d.onStream n f).jobs = d.jobs := rfl
@[simp] theorem Dev.onStream_jobGens (d : Dev) (n : Nat) (f : Stream → Stream) : (d.onStream n f).jobGens = d.jobGens := rfl
@[simp] theorem Dev.onStream_datasets (d : Dev) (n : Nat) (f : Stream → Stream) : (d.onStream n f).datasets = d.datasets := rfl
@[simp] theorem Dev.onStream_dsetGens (d : Dev) (n : Nat) (f : Stream → Stream) : (d.onStream n f).dsetGens = d.dsetGens := rfl
@[simp] theorem Dev.onStream_routes (d : Dev) (n : Nat) (f : Stream → Stream) : (d.onStream n f).routes = d.routes := rfl
@[simp] theorem Dev.onStream_vocabs (d : Dev) (n : Nat) (f : Stream → Stream) : (d.onStream n f).vocabs = d.vocabs := rfl
@[simp] theorem Dev.onStream_grammars (d : Dev) (n : Nat) (f : Stream → Stream) : (d.onStream n f).grammars = d.grammars := rfl
@[simp] theorem Dev.onStream_gramGens (d : Dev) (n : Nat) (f : Stream → Stream) : (d.onStream n f).gramGens = d.gramGens := rfl
@[simp] theorem Dev.onStream_stagings (d : Dev) (n : Nat) (f : Stream → Stream) : (d.onStream n f).stagings = d.stagings := rfl
@[simp] theorem Dev.onStream_leases (d : Dev) (n : Nat) (f : Stream → Stream) : (d.onStream n f).leases = d.leases := rfl
@[simp] theorem Dev.onStream_nextStaging (d : Dev) (n : Nat) (f : Stream → Stream) : (d.onStream n f).nextStaging = d.nextStaging := rfl
@[simp] theorem Dev.onStream_store (d : Dev) (n : Nat) (f : Stream → Stream) : (d.onStream n f).store = d.store := rfl
@[simp] theorem Dev.onStream_lbx (d : Dev) (n : Nat) (f : Stream → Stream) : (d.onStream n f).lbx = d.lbx := rfl
@[simp] theorem Dev.onStream_env (d : Dev) (n : Nat) (f : Stream → Stream) : (d.onStream n f).env = d.env := rfl
@[simp] theorem Dev.onStream_serial (d : Dev) (n : Nat) (f : Stream → Stream) : (d.onStream n f).serial = d.serial := rfl
@[simp] theorem Dev.onStream_free (d : Dev) (n : Nat) (f : Stream → Stream) : (d.onStream n f).free = d.free := rfl
@[simp] theorem Dev.onStream_dma (d : Dev) (n : Nat) (f : Stream → Stream) : (d.onStream n f).dma = d.dma := rfl

/-! ### onQueue -/

@[simp] theorem Dev.onQueue_start (d : Dev) (q : Nat) (f : Queue → Queue) : (d.onQueue q f).start = d.start := rfl
@[simp] theorem Dev.onQueue_rst (d : Dev) (q : Nat) (f : Queue → Queue) : (d.onQueue q f).rst = d.rst := rfl
@[simp] theorem Dev.onQueue_bkp (d : Dev) (q : Nat) (f : Queue → Queue) : (d.onQueue q f).bkp = d.bkp := rfl
@[simp] theorem Dev.onQueue_nor (d : Dev) (q : Nat) (f : Queue → Queue) : (d.onQueue q f).nor = d.nor := rfl
@[simp] theorem Dev.onQueue_seqs (d : Dev) (q : Nat) (f : Queue → Queue) : (d.onQueue q f).seqs = d.seqs := rfl
@[simp] theorem Dev.onQueue_pwr (d : Dev) (q : Nat) (f : Queue → Queue) : (d.onQueue q f).pwr = d.pwr := rfl
@[simp] theorem Dev.onQueue_pins (d : Dev) (q : Nat) (f : Queue → Queue) : (d.onQueue q f).pins = d.pins := rfl
@[simp] theorem Dev.onQueue_clk (d : Dev) (q : Nat) (f : Queue → Queue) : (d.onQueue q f).clk = d.clk := rfl
@[simp] theorem Dev.onQueue_dies (d : Dev) (q : Nat) (f : Queue → Queue) : (d.onQueue q f).dies = d.dies := rfl
@[simp] theorem Dev.onQueue_ports (d : Dev) (q : Nat) (f : Queue → Queue) : (d.onQueue q f).ports = d.ports := rfl
@[simp] theorem Dev.onQueue_pgh (d : Dev) (q : Nat) (f : Queue → Queue) : (d.onQueue q f).pgh = d.pgh := rfl
@[simp] theorem Dev.onQueue_pghPorts (d : Dev) (q : Nat) (f : Queue → Queue) : (d.onQueue q f).pghPorts = d.pghPorts := rfl
@[simp] theorem Dev.onQueue_jobs (d : Dev) (q : Nat) (f : Queue → Queue) : (d.onQueue q f).jobs = d.jobs := rfl
@[simp] theorem Dev.onQueue_jobGens (d : Dev) (q : Nat) (f : Queue → Queue) : (d.onQueue q f).jobGens = d.jobGens := rfl
@[simp] theorem Dev.onQueue_datasets (d : Dev) (q : Nat) (f : Queue → Queue) : (d.onQueue q f).datasets = d.datasets := rfl
@[simp] theorem Dev.onQueue_dsetGens (d : Dev) (q : Nat) (f : Queue → Queue) : (d.onQueue q f).dsetGens = d.dsetGens := rfl
@[simp] theorem Dev.onQueue_routes (d : Dev) (q : Nat) (f : Queue → Queue) : (d.onQueue q f).routes = d.routes := rfl
@[simp] theorem Dev.onQueue_vocabs (d : Dev) (q : Nat) (f : Queue → Queue) : (d.onQueue q f).vocabs = d.vocabs := rfl
@[simp] theorem Dev.onQueue_grammars (d : Dev) (q : Nat) (f : Queue → Queue) : (d.onQueue q f).grammars = d.grammars := rfl
@[simp] theorem Dev.onQueue_gramGens (d : Dev) (q : Nat) (f : Queue → Queue) : (d.onQueue q f).gramGens = d.gramGens := rfl
@[simp] theorem Dev.onQueue_streams (d : Dev) (q : Nat) (f : Queue → Queue) : (d.onQueue q f).streams = d.streams := rfl
@[simp] theorem Dev.onQueue_stagings (d : Dev) (q : Nat) (f : Queue → Queue) : (d.onQueue q f).stagings = d.stagings := rfl
@[simp] theorem Dev.onQueue_leases (d : Dev) (q : Nat) (f : Queue → Queue) : (d.onQueue q f).leases = d.leases := rfl
@[simp] theorem Dev.onQueue_nextStaging (d : Dev) (q : Nat) (f : Queue → Queue) : (d.onQueue q f).nextStaging = d.nextStaging := rfl
@[simp] theorem Dev.onQueue_store (d : Dev) (q : Nat) (f : Queue → Queue) : (d.onQueue q f).store = d.store := rfl
@[simp] theorem Dev.onQueue_env (d : Dev) (q : Nat) (f : Queue → Queue) : (d.onQueue q f).env = d.env := rfl
@[simp] theorem Dev.onQueue_serial (d : Dev) (q : Nat) (f : Queue → Queue) : (d.onQueue q f).serial = d.serial := rfl
@[simp] theorem Dev.onQueue_free (d : Dev) (q : Nat) (f : Queue → Queue) : (d.onQueue q f).free = d.free := rfl
@[simp] theorem Dev.onQueue_dma (d : Dev) (q : Nat) (f : Queue → Queue) : (d.onQueue q f).dma = d.dma := rfl

/-! ### until -/

@[simp] theorem Dev.until_start (d : Dev) (t : Nat) : (d.until t).start = d.start := rfl
@[simp] theorem Dev.until_rst (d : Dev) (t : Nat) : (d.until t).rst = d.rst := rfl
@[simp] theorem Dev.until_bkp (d : Dev) (t : Nat) : (d.until t).bkp = d.bkp := rfl
@[simp] theorem Dev.until_nor (d : Dev) (t : Nat) : (d.until t).nor = d.nor := rfl
@[simp] theorem Dev.until_seqs (d : Dev) (t : Nat) : (d.until t).seqs = d.seqs := rfl
@[simp] theorem Dev.until_pwr (d : Dev) (t : Nat) : (d.until t).pwr = d.pwr := rfl
@[simp] theorem Dev.until_pins (d : Dev) (t : Nat) : (d.until t).pins = d.pins := rfl
@[simp] theorem Dev.until_dies (d : Dev) (t : Nat) : (d.until t).dies = d.dies := rfl
@[simp] theorem Dev.until_ports (d : Dev) (t : Nat) : (d.until t).ports = d.ports := rfl
@[simp] theorem Dev.until_pgh (d : Dev) (t : Nat) : (d.until t).pgh = d.pgh := rfl
@[simp] theorem Dev.until_pghPorts (d : Dev) (t : Nat) : (d.until t).pghPorts = d.pghPorts := rfl
@[simp] theorem Dev.until_jobs (d : Dev) (t : Nat) : (d.until t).jobs = d.jobs := rfl
@[simp] theorem Dev.until_jobGens (d : Dev) (t : Nat) : (d.until t).jobGens = d.jobGens := rfl
@[simp] theorem Dev.until_datasets (d : Dev) (t : Nat) : (d.until t).datasets = d.datasets := rfl
@[simp] theorem Dev.until_dsetGens (d : Dev) (t : Nat) : (d.until t).dsetGens = d.dsetGens := rfl
@[simp] theorem Dev.until_routes (d : Dev) (t : Nat) : (d.until t).routes = d.routes := rfl
@[simp] theorem Dev.until_vocabs (d : Dev) (t : Nat) : (d.until t).vocabs = d.vocabs := rfl
@[simp] theorem Dev.until_grammars (d : Dev) (t : Nat) : (d.until t).grammars = d.grammars := rfl
@[simp] theorem Dev.until_gramGens (d : Dev) (t : Nat) : (d.until t).gramGens = d.gramGens := rfl
@[simp] theorem Dev.until_streams (d : Dev) (t : Nat) : (d.until t).streams = d.streams := rfl
@[simp] theorem Dev.until_stagings (d : Dev) (t : Nat) : (d.until t).stagings = d.stagings := rfl
@[simp] theorem Dev.until_leases (d : Dev) (t : Nat) : (d.until t).leases = d.leases := rfl
@[simp] theorem Dev.until_nextStaging (d : Dev) (t : Nat) : (d.until t).nextStaging = d.nextStaging := rfl
@[simp] theorem Dev.until_store (d : Dev) (t : Nat) : (d.until t).store = d.store := rfl
@[simp] theorem Dev.until_lbx (d : Dev) (t : Nat) : (d.until t).lbx = d.lbx := rfl
@[simp] theorem Dev.until_env (d : Dev) (t : Nat) : (d.until t).env = d.env := rfl
@[simp] theorem Dev.until_serial (d : Dev) (t : Nat) : (d.until t).serial = d.serial := rfl
@[simp] theorem Dev.until_free (d : Dev) (t : Nat) : (d.until t).free = d.free := rfl
@[simp] theorem Dev.until_dma (d : Dev) (t : Nat) : (d.until t).dma = d.dma := rfl

/-! ### Read back -/

@[simp] theorem Dev.onDie_die_self (d : Dev) (i : Nat) (f : Die → Die) (h : i < d.dies.length) : (d.onDie i f).die i = f (d.die i) := by
  simp [Dev.onDie, Dev.die, List.getD_eq_getElem?_getD, h]

theorem Dev.onDie_die_other (d : Dev) (i j : Nat) (f : Die → Die) (h : i ≠ j) : (d.onDie i f).die j = d.die j := by
  simp [Dev.onDie, Dev.die, List.getD_eq_getElem?_getD, h]

/-- A view of a die that the change keeps is kept on every die. -/
theorem Dev.onDie_die_view {α : Type} (d : Dev) (i j : Nat) (f : Die → Die) (v : Die → α) (h : ∀ x, v (f x) = v x) :
    v ((d.onDie i f).die j) = v (d.die j) := by
  by_cases e : i = j
  · subst e
    by_cases l : i < d.dies.length
    · rw [Dev.onDie_die_self d i f l, h]
    · simp [Dev.onDie, Dev.die, List.getD_eq_getElem?_getD, l]
  · rw [Dev.onDie_die_other d i j f e]

@[simp] theorem Dev.onDie_length (d : Dev) (i : Nat) (f : Die → Die) : (d.onDie i f).dies.length = d.dies.length := by
  simp [Dev.onDie]

@[simp] theorem Dev.onHole_self (d : Dev) (p : Nat) (f : Pgh → Pgh) (h : p < d.pgh.length) : (d.onHole p f).hole p = f (d.hole p) := by
  simp [Dev.onHole, Dev.hole, List.getD_eq_getElem?_getD, h]

theorem Dev.onHole_other (d : Dev) (p q : Nat) (f : Pgh → Pgh) (h : q ≠ p) : (d.onHole p f).hole q = d.hole q := by
  simp [Dev.onHole, Dev.hole, List.getD_eq_getElem?_getD, Ne.symm h]

@[simp] theorem Dev.onHole_length (d : Dev) (p : Nat) (f : Pgh → Pgh) : (d.onHole p f).pgh.length = d.pgh.length := by
  simp [Dev.onHole]

@[simp] theorem Dev.onPort_self (d : Dev) (p : Nat) (f : EthPort → EthPort) (h : p < d.ports.length) : (d.onPort p f).port p = f (d.port p) := by
  simp [Dev.onPort, Dev.port, List.getD_eq_getElem?_getD, h]

theorem Dev.onPort_other (d : Dev) (p q : Nat) (f : EthPort → EthPort) (h : q ≠ p) : (d.onPort p f).port q = d.port q := by
  simp [Dev.onPort, Dev.port, List.getD_eq_getElem?_getD, Ne.symm h]

/-- An update in place of elements that keeps a key finds the updated element under that key. -/
theorem find_updWhere {α : Type} (l : List α) (k : α → Bool) (f : α → α) (h : ∀ x, k x = true → k (f x) = true) :
    (updWhere l k f).find? k = (l.find? k).map f := by
  induction l with
  | nil => rfl
  | cons x xs ih =>
    by_cases e : k x = true
    · simp [updWhere, List.find?, e, h x e]
    · have e' : k x = false := by simpa using e
      have g : updWhere (x :: xs) k f = x :: updWhere xs k f := by simp [updWhere, e']
      rw [g]
      simp only [List.find?, e']
      exact ih

/-- A job is found under its handle after a change that keeps the handle. -/
theorem Dev.onJob_job (d : Dev) (h : Nat) (f : Job → Job) (k : ∀ j, (f j).handle = j.handle) : (d.onJob h f).job h = (d.job h).map f := by
  unfold Dev.onJob Dev.job
  exact find_updWhere _ _ _ fun x e => by simpa [k] using e

@[simp] theorem Dev.until_now (d : Dev) (t : Nat) : (d.until t).now = max d.now t := rfl

end Sys2Proof.Machine
end

