-- ==== Sys2Proof/WellFormed.lean ====
section
/-! DEFINITION. Which operands the spec's fields can hold: dies, ports, pigeonholes, queues, cores and units in their
ranges. The meanings are total; a command outside these ranges names nothing of the device. -/

namespace Sys2Proof

/-- Eight dies, stacks and partitions (R11). -/
def dieOk (d : Nat) : Bool := decide (d < 8)

/-- Four PCIe ports (R18). -/
def portOk (p : Nat) : Bool := decide (p < 4)

/-- Sixteen Ethernet ports (R20). -/
def ethOk (p : Nat) : Bool := decide (p < 16)

/-- 128 pigeonholes (R575). -/
def holeOk (p : Nat) : Bool := decide (p < 128)

/-- Access sizes of a host write (R596). -/
def accessOk (size : Nat) : Bool := size == 4 || size == 8

/-- A writer of a register: Roist, or the host through a port. -/
def byWriter (byRoist : Bool) (port : Nat) : Bool := byRoist || portOk port

/-- Eight logical clusters of eight logical cores a die (R11). -/
def CoreRef.wf (c : CoreRef) : Bool := dieOk c.die && decide (c.cluster < 8 ∧ c.core < 8)

/-- A rank number of a job: W is at most 4,194,304 (R47, R49). -/
def ItemRef.wf (i : ItemRef) : Bool := decide (i.rank < 4194304)

/-- Transport fields within their widths (R327). -/
def RoceHdr.wf (h : RoceHdr) : Bool := decide (h.qpn < 2 ^ 24 ∧ h.psn < 2 ^ 24 ∧ h.pkey < 2 ^ 16)

/-- Unit fields within the widths of Table 18.1. -/
def UnitRef.wf (u : UnitRef) : Bool := dieOk u.die && decide (1 ≤ u.kind ∧ u.kind ≤ 0x12 ∧ u.cluster < 16 ∧ u.core < 16 ∧ u.slot < 16)

/-- Steps of the recovery ladder, 5 for none of them (Table 15.4). -/
def ReadOutcome.wf (r : ReadOutcome) : Bool := decide (1 ≤ r.step ∧ r.step ≤ 5)

/-- Operands of a command within their fields. -/
def Instr.wf : Instr → Bool
  | .devIdentify p frame => holeOk p && decide (frame.length ≤ 4096)
  | .devGetFigures p frame => holeOk p && decide (frame.length ≤ 4096)
  | .devSetTick p frame => holeOk p && decide (frame.length ≤ 4096)
  | .devSetMode p frame => holeOk p && decide (frame.length ≤ 4096)
  | .devStageConfig p frame => holeOk p && decide (frame.length ≤ 4096)
  | .devCommitConfig p frame => holeOk p && decide (frame.length ≤ 4096)
  | .devStartComplete p frame => holeOk p && decide (frame.length ≤ 4096)
  | .jobCreate p frame => holeOk p && decide (frame.length ≤ 4096)
  | .jobBindRanks p frame => holeOk p && decide (frame.length ≤ 4096)
  | .jobStart p frame => holeOk p && decide (frame.length ≤ 4096)
  | .jobSeal p frame => holeOk p && decide (frame.length ≤ 4096)
  | .jobResume p frame => holeOk p && decide (frame.length ≤ 4096)
  | .jobDestroy p frame => holeOk p && decide (frame.length ≤ 4096)
  | .jobQuery p frame => holeOk p && decide (frame.length ≤ 4096)
  | .dsetOpen p frame => holeOk p && decide (frame.length ≤ 4096)
  | .dsetAddManifest p frame => holeOk p && decide (frame.length ≤ 4096)
  | .dsetClose p frame => holeOk p && decide (frame.length ≤ 4096)
  | .dsetVerify p frame => holeOk p && decide (frame.length ≤ 4096)
  | .dsetDelete p frame => holeOk p && decide (frame.length ≤ 4096)
  | .routeLoad p frame => holeOk p && decide (frame.length ≤ 4096)
  | .routeValidate p frame => holeOk p && decide (frame.length ≤ 4096)
  | .routeUnload p frame => holeOk p && decide (frame.length ≤ 4096)
  | .vocabLoad p frame => holeOk p && decide (frame.length ≤ 4096)
  | .vocabUnload p frame => holeOk p && decide (frame.length ≤ 4096)
  | .grammarUnload p frame => holeOk p && decide (frame.length ≤ 4096)
  | .grammarLoad p frame => holeOk p && decide (frame.length ≤ 4096)
  | .streamOpen p frame => holeOk p && decide (frame.length ≤ 4096)
  | .streamClose p frame => holeOk p && decide (frame.length ≤ 4096)
  | .curRegisterRegion p frame => holeOk p && decide (frame.length ≤ 4096)
  | .curRevokeRegion p frame => holeOk p && decide (frame.length ≤ 4096)
  | .curConnect p frame => holeOk p && decide (frame.length ≤ 4096)
  | .curDisconnect p frame => holeOk p && decide (frame.length ≤ 4096)
  | .dspSetNode p frame => holeOk p && decide (frame.length ≤ 4096)
  | .dspSetMeter p frame => holeOk p && decide (frame.length ≤ 4096)
  | .dspSetGates p frame => holeOk p && decide (frame.length ≤ 4096)
  | .stoFormat p frame => holeOk p && decide (frame.length ≤ 4096)
  | .stoSledPrepareRemove p frame => holeOk p && decide (frame.length ≤ 4096)
  | .stoSledAdmit p frame => holeOk p && decide (frame.length ≤ 4096)
  | .stoStandin p frame => holeOk p && decide (frame.length ≤ 4096)
  | .stoSetEccStrength p frame => holeOk p && decide (frame.length ≤ 4096)
  | .fltReadLog p frame => holeOk p && decide (frame.length ≤ 4096)
  | .fltClearSticky p frame => holeOk p && decide (frame.length ≤ 4096)
  | .fltSetSeverity p frame => holeOk p && decide (frame.length ≤ 4096)
  | .fltGetDump p frame => holeOk p && decide (frame.length ≤ 4096)
  | .pwrSetCap p frame => holeOk p && decide (frame.length ≤ 4096)
  | .pwrDomainCtl p frame => holeOk p && decide (frame.length ≤ 4096)
  | .pwrReadMargins p frame => holeOk p && decide (frame.length ≤ 4096)
  | .fwStageImage p frame => holeOk p && decide (frame.length ≤ 4096)
  | .fwActivate p frame => holeOk p && decide (frame.length ≤ 4096)
  | .lbxCreate p frame => holeOk p && decide (frame.length ≤ 4096)
  | .lbxErrorLog p frame => holeOk p && decide (frame.length ≤ 4096)
  | .lbxRestart p frame => holeOk p && decide (frame.length ≤ 4096)
  | .lbxReset p frame => holeOk p && decide (frame.length ≤ 4096)
  | .doorbellWrite port offset size _ => portOk port && decide (offset < 2 ^ 39) && accessOk size
  | .get queue tag => decide (queue < 4096) && decide (tag < 32)
  | .put queue tag => decide (queue < 4096) && decide (tag < 32)
  | .discard queue tag => decide (queue < 4096) && decide (tag < 32)
  | .secureDiscard queue tag => decide (queue < 4096) && decide (tag < 32)
  | .stat queue tag => decide (queue < 4096) && decide (tag < 32)
  | .list queue tag => decide (queue < 4096) && decide (tag < 32)
  | .flush queue tag => decide (queue < 4096) && decide (tag < 32)
  | .intDelayExpiry queue => decide (queue < 4096)
  | .pkgReset port die _ => portOk port && dieOk die
  | .bkpClear port die _ => portOk port && dieOk die
  | .recoveryReq port die _ => portOk port && dieOk die
  | .fcAlertAck port die _ => portOk port && dieOk die
  | .kick port die _ byRoist => byWriter byRoist port && dieOk die
  | .arm port die _ => portOk port && dieOk die
  | .disarm port die _ => portOk port && dieOk die
  | .frkStart port die unit _ byRoist => byWriter byRoist port && dieOk die && decide (unit < 18)
  | .frkAbort port die unit _ byRoist => byWriter byRoist port && dieOk die && decide (unit < 18)
  | .mbusClear port die bus _ byRoist _ _ _ => byWriter byRoist port && dieOk die && decide (bus < 4)
  | .isolate port die bus _ byRoist => byWriter byRoist port && dieOk die && decide (bus < 4)
  | .registerWrite port offset size _ => portOk port && decide (offset < 2 ^ 28) && accessOk size
  | .badAccess port offset _ _ => portOk port && decide (offset < 2 ^ 28)
  | .lowHalfRead port offset => portOk port && decide (offset < 2 ^ 28)
  | .coldReset => true
  | .brownout rail => decide (rail < 9)
  | .pinReset => true
  | .softReset => true
  | .startTimeout => true
  | .fatalRestart => true
  | .glitchRestart => true
  | .dieReset die => dieOk die
  | .portReset port => portOk port
  | .startUp => true
  | .startReady => true
  | .partitionReady partition => dieOk partition
  | .powerFail => true
  | .serviceButtonPress => true
  | .serviceButtonRelease => true
  | .serviceButtonHold => true
  | .attentionButton slot => decide (slot < 16)
  | .surpriseRemoval slot => decide (slot < 16)
  | .ptpLockLoss port => ethOk port
  | .tickBoundary die => dieOk die
  | .deliveryTick die => dieOk die
  | .expressCutoff die => dieOk die
  | .configCommit _ => true
  | .tickChange => true
  | .gateScheduleChange port => ethOk port
  | .gateEntry port _ => ethOk port
  | .spareEntry die => dieOk die
  | .formationPoint die => dieOk die
  | .spillDeadline die => dieOk die
  | .sealCutoff _ => true
  | .prepareReport _ _ _ => true
  | .prepareTimeout _ => true
  | .localReadIssue die => dieOk die
  | .storeReadComplete item _ _ => item.wf
  | .fetchRequestSend die peer _ => dieOk die && decide (peer < 2 ^ 24)
  | .fetchRequest qpn _ => decide (qpn < 2 ^ 24)
  | .stagingComplete _ => true
  | .fetchReply qpn _ => decide (qpn < 2 ^ 24)
  | .homeBusyRetry item => item.wf
  | .releaseOnlySend die peer => dieOk die && decide (peer < 2 ^ 24)
  | .primaryRetry item => item.wf
  | .stagingLeaseEnd _ => true
  | .fetchDeadline item => item.wf
  | .bufferGrant stack => dieOk stack
  | .itemStart core => core.wf
  | .inflateRaw core item => core.wf && item.wf
  | .inflateZlib core item => core.wf && item.wf
  | .inflateGzip core item => core.wf && item.wf
  | .decodeZstd core item => core.wf && item.wf
  | .decodeAuto core item => core.wf && item.wf
  | .deflateRaw core item => core.wf && item.wf
  | .deflateZlib core item => core.wf && item.wf
  | .deflateGzip core item => core.wf && item.wf
  | .encodeZstd core item => core.wf && item.wf
  | .decodeJpeg core item => core.wf && item.wf
  | .decodePng core item => core.wf && item.wf
  | .decodeImage core item => core.wf && item.wf
  | .decodeSequence core item => core.wf && item.wf
  | .decodeTensor core item => core.wf && item.wf
  | .decodeWav core item => core.wf && item.wf
  | .decodeFlac core item => core.wf && item.wf
  | .decodeAudio core item => core.wf && item.wf
  | .crop core item => core.wf && item.wf
  | .flipRotate core item => core.wf && item.wf
  | .resize core item => core.wf && item.wf
  | .colour core item => core.wf && item.wf
  | .normalise core item => core.wf && item.wf
  | .layout core item => core.wf && item.wf
  | .cutout core item => core.wf && item.wf
  | .mix core item => core.wf && item.wf
  | .convert core item => core.wf && item.wf
  | .spectrum core item => core.wf && item.wf
  | .tokenise core item => core.wf && item.wf
  | .detokenise core item => core.wf && item.wf
  | .place core item => core.wf && item.wf
  | .placeScalar core item => core.wf && item.wf
  | .packTokens core item => core.wf && item.wf
  | .copy core item => core.wf && item.wf
  | .slice core item => core.wf && item.wf
  | .checkFrank core item => core.wf && item.wf
  | .fill core item => core.wf && item.wf
  | .stageComplete core item _ => core.wf && item.wf
  | .engineWatchdog core _ => core.wf
  | .settleRequest qpn _ _ => decide (qpn < 2 ^ 24 ∨ qpn = 0xFFFFFFFF)
  | .settleReply qpn _ => decide (qpn < 2 ^ 24)
  | .settleTimeout item => item.wf
  | .finalWriteAck _ _ _ => true
  | .prHoldExpiry _ _ => true
  | .ingressFrame port _ pcp hdr _ => ethOk port && decide (pcp < 8) && hdr.wf
  | .pauseFrame port prio quanta => ethOk port && decide (prio < 8 ∧ quanta < 65536)
  | .inboundWrite hdr _ _ _ _ _ _ _ => hdr.wf
  | .inboundReadRequest hdr _ _ _ => hdr.wf
  | .inboundAtomic hdr _ _ _ _ => hdr.wf
  | .ackReceived hdr => hdr.wf
  | .nakReceived hdr _ => hdr.wf
  | .readResponse hdr _ _ => hdr.wf
  | .cnpReceived qpn => decide (qpn < 2 ^ 24)
  | .ackTimer qpn => decide (qpn < 2 ^ 24)
  | .retransmitTimeout qpn => decide (qpn < 2 ^ 24)
  | .rnrWaitExpiry qpn => decide (qpn < 2 ^ 24)
  | .workRequestLifetime qpn => decide (qpn < 2 ^ 24)
  | .workRequestStart qpn => decide (qpn < 2 ^ 24)
  | .revocationComplete die _ => dieOk die
  | .revocationCut die _ => dieOk die
  | .frameTransmit port => ethOk port
  | .streamRequest qpn _ => decide (qpn < 2 ^ 24)
  | .streamTokenise _ => true
  | .streamDetokenise _ => true
  | .streamCommit _ => true
  | .barrierArrive qpn _ => decide (qpn < 2 ^ 24)
  | .barrierRelease qpn _ => decide (qpn < 2 ^ 24)
  | .barrierAbort qpn _ => decide (qpn < 2 ^ 24)
  | .barrierComplete _ => true
  | .barrierTimeout _ => true
  | .load core _ _ => core.wf
  | .store core _ _ _ => core.wf
  | .loadTake core _ _ => core.wf
  | .loadPeek core _ _ => core.wf
  | .storeFill core _ _ _ => core.wf
  | .setEmpty core _ => core.wf
  | .watch core _ _ _ _ => core.wf
  | .watchRetry core _ => core.wf
  | .journalPageTimer partition => dieOk partition
  | .nandProgramComplete _ _ => true
  | .nandReadComplete _ outcome => outcome.wf
  | .nandEraseComplete _ _ => true
  | .checkpoint partition => dieOk partition
  | .fold die => dieOk die
  | .patrolRead _ outcome => outcome.wf
  | .cellRefresh _ => true
  | .wearLevel _ => true
  | .standinTakeover _ _ => true
  | .rebuild _ => true
  | .partitionTakeover partition => dieOk partition
  | .notReadyTimeout queue tag => decide (queue < 4096) && decide (tag < 32)
  | .sledAdmissionComplete slot _ => decide (slot < 16)
  | .parkComplete slot => decide (slot < 16)
  | .faultReport _ src _ _ => src.wf
  | .faultHandling die => dieOk die
  | .leaseExpiry die _ => dieOk die
  | .watchdogExpiry die => dieOk die
  | .accountingCheck => true
  | .marginMeasurement die _ _ _ _ => dieOk die
  | .junctionSensorRead die _ _ => dieOk die
  | .dumpComplete => true
  | .capUnmet => true
  | .scrubRead die _ _ _ _ => dieOk die
  | .rowRepair die _ _ => dieOk die
  | .sclLowTimeout die bus _ _ _ => dieOk die && decide (bus < 4)
  | .isolateRetry die bus _ _ _ => dieOk die && decide (bus < 4)
  | .ptpLockGain port => ethOk port
  | .garbageCollection die => dieOk die
  | .frankingListDone die unit _ => dieOk die && decide (unit < 18)
  | .pauseExpiry port prio => ethOk port && decide (prio < 8)
  | .perstNHigh port => portOk port
  | .ppsInEdge => true

end Sys2Proof
end

