-- ==== Sys2Proof/Tests/Slice0.lean ====
section
/-! SUPPORT. Tests: ill-formed commands are refused, the hypotheses of the statements are met, and a few effects. -/

namespace Sys2Proof.Machine.Tests

open Sys2Proof Sys2Proof.Machine

set_option Elab.async false

/-! ### Small states -/

/-- A device in normal service: started, every PCIe port trained. -/
def normal : Dev := { ({} : Dev) with
  start := .normal
  seqs := { ({} : Seqs) with step := 10 }
  pins := { ({} : Pins) with trained := [true, true, true, true] }
  dies := List.replicate 8 { ({} : Die) with domains := BitVec.allOnes 15 } }

/-- A state with a device and empty memories. -/
def at_ (d : Dev) : State := { dev := d }

/-- A request frame: header of Table 20.1 and body. -/
def frame (opcode seq : Nat) (body : Bytes) : Bytes :=
  let r := layout 32 [(0, ascii "PGRQ"), (4, le 2 1), (6, le 2 opcode), (8, le 4 seq), (12, le 4 body.length)] ++ body
  putAt r 16 (le 4 (crc32c r))

/-- The first request of a pigeonhole is accepted by a device. -/
def accepted (op : PghOp) (body : Bytes) (d : Dev) : Prop := op.Accepts 0 (frame op.opcode 1 (fit op.size body)) d

/-- Body of that request as the command reads it. -/
def body (op : PghOp) (b : Bytes) (d : Dev) : Bytes := op.bodyOf 0 (frame op.opcode 1 (fit op.size b)) d

/-- A window entry: position 0 of epoch 0, admitted on core 0 of die 0. -/
def anEntry : Entry := { ({ q := 0, epoch := 0, index := 0, step := 0, slot := 0 } : Entry) with
  state := .admitted, begun := true, core := some { die := 0, cluster := 0, core := 0 } }

/-- A rank with that entry in its window. -/
def aRank : Rank := {
  rank := 0, qpn := 0, remoteAddr := 0, rkey := 0, slotBytes := 65536, depth := 8, prParcels := 4, port := 0, altPort := 0xFF,
  regionLen := 0, creditAddr := 0, creditKey := 0, window := [anEntry] }

/-- A RUNNING job with that rank. -/
def aJob : Job := {
  handle := 0, tag := 0, dataset := 0, express := false, epochs := 1, seed := 0, w := 1, b := 1, tickMult := 1, prHold := 300,
  barrierTimeout := 60, bufReserve := 64, bufLimit := 64, n := 1, manifestDigest := zeros 32, nodeMap := [], peers := [], conf := {},
  state := .running, ranks := [aRank] }

/-- The core of the entry. -/
def c0 : CoreRef := { die := 0, cluster := 0, core := 0 }

/-- The item of the entry. -/
def i0 : ItemRef := { job := 0, rank := 0, q := 0, epoch := 0 }

/-- A device with the job. -/
def working : Dev := { normal with jobs := [aJob] }

/-- A connection in service: QPN 0 of die 0, to a peer device. -/
def aConn : Conn := {
  kind := 1, port := 0, localQpn := 0, remoteQpn := 0, pmtu := 4096, dataPrio := 0, respPrio := 1, dscp := 0, nextPsn := 0, unaPsn := 0,
  expPsn := 0, sentPsn := 0, cwnd := 65536, windowMax := 65536 }

/-- A device with the connection and the job. -/
def linked : Dev := working.onDie 0 fun x => { x with conns := [aConn] }


/-! ### Hypotheses of the statements are met: device, fault, power and firmware commands -/

theorem test_identify_accepted : accepted devIdentifyOp [] normal := by
  unfold accepted PghOp.Accepts; decide +kernel

theorem test_figures_accepted :
    let d := normal.onDie 7 fun x => { x with safe := true }
    let b := le 1 7 ++ zeros 7 ++ le 8 0 ++ le 8 0
    accepted devGetFiguresOp b d ∧ fld (body devGetFiguresOp b d) 0 1 = 7 ∧ (d.counterBlock [7]).length = 0 := by
  unfold accepted PghOp.Accepts; decide +kernel

theorem test_setTick_accepted :
    let b := le 4 2000 ++ zeros 4 ++ le 8 0 ++ le 8 2 ++ le 1 15 ++ le 1 0xFF
    accepted devSetTickOp b normal ∧ fld (body devSetTickOp b normal) 0 4 = 2000 ∧ fld (body devSetTickOp b normal) 16 8 = 2 ∧
      fld (body devSetTickOp b normal) 24 1 = 15 ∧ fld (body devSetTickOp b normal) 25 1 = 0xFF := by
  unfold accepted PghOp.Accepts; decide +kernel

theorem test_setMode_accepted :
    let b := le 2 1800 ++ le 2 128
    accepted devSetModeOp b normal ∧ fld (body devSetModeOp b normal) 0 2 = 1800 ∧ fld (body devSetModeOp b normal) 2 2 = 128 := by
  unfold accepted PghOp.Accepts; decide +kernel

theorem test_startComplete_accepted : accepted devStartCompleteOp [] { normal with start := .ready } := by
  unfold accepted PghOp.Accepts; decide +kernel

theorem test_readLog_accepted : accepted fltReadLogOp (le 1 7 ++ zeros 7 ++ le 8 0) normal := by
  unfold accepted PghOp.Accepts; decide +kernel

theorem test_clearSticky_accepted : accepted fltClearStickyOp (le 1 0 ++ le 1 7 ++ zeros 14) normal := by
  unfold accepted PghOp.Accepts; decide +kernel

theorem test_setSeverity_accepted :
    let b := le 2 St.STO_NO_OBJECT.toNat ++ le 1 0x05 ++ le 1 7 ++ le 1 7
    accepted fltSetSeverityOp b normal ∧ BitVec.ofNat 16 (fld (body fltSetSeverityOp b normal) 0 2) ∈ St.all ∧
      severityFixed St.STO_NO_OBJECT 5 = false ∧ severityFloor St.STO_NO_OBJECT 5 ≤ 7 := by
  unfold accepted PghOp.Accepts; decide +kernel

theorem test_getDump_accepted :
    let d := { normal with nor := { normal.nor with dump0 := some (zeros 100) } }
    accepted fltGetDumpOp (zeros 8 ++ le 8 0 ++ le 8 4096) d ∧ d.nor.dump = some (zeros 100) := by
  unfold accepted PghOp.Accepts; decide +kernel

theorem test_setCap_accepted : accepted pwrSetCapOp (le 2 900) normal ∧ (normal.cfgWrite fun c => { c with capW := 900 }).2 = true := by
  unfold accepted PghOp.Accepts; decide +kernel

theorem test_domainCtl_accepted : accepted pwrDomainCtlOp (le 1 7 ++ le 1 13 ++ le 1 1) normal ∧ normal.ethInUse 7 = false := by
  unfold accepted PghOp.Accepts; decide +kernel

theorem test_readMargins_accepted : accepted pwrReadMarginsOp (le 1 7) normal := by
  unfold accepted PghOp.Accepts; decide +kernel

theorem test_stageImage_accepted :
    let good := le 8 0 ++ le 8 0 ++ sha256 []
    let bad := le 8 0 ++ le 8 0 ++ zeros 32
    accepted fwStageImageOp good normal ∧ cut (body fwStageImageOp good normal) 16 32 = sha256 [] ∧
      accepted fwStageImageOp bad normal ∧ cut (body fwStageImageOp bad normal) 16 32 ≠ sha256 [] ∧
      hostRead {} normal 0 0 0 = some [] := by
  unfold accepted PghOp.Accepts; decide +kernel

theorem test_activate_accepted :
    let d := { normal with nor := normal.nor.setImage 1 { ({} : Image) with valid := true, staged := true } }
    accepted fwActivateOp (le 1 1) d ∧ (d.nor.image 1).valid = true ∧ (d.nor.image 1).staged = true ∧
      (d.cfgWrite fun c => { c with activeImage := 1 }).2 = true ∧
      accepted fwActivateOp (le 1 1) { d with jobs := [aJob] } := by
  unfold accepted PghOp.Accepts; decide +kernel

/-! ### Register writes -/

theorem test_registers_open : normal.portUp 3 = true ∧ normal.uncOpen 7 = true ∧ normal.seqs.powerFailAt = none ∧ normal.seqs.softDue = none ∧
    bit 0x5A01 0 = true ∧ bits 0x5A01 15 8 = 0x5A ∧ bits 0x5B01 15 8 ≠ 0x5A := by decide +kernel

theorem test_flip_pages :
    let in_ : Flip := { ({} : Flip) with target := 0, addr := 0xFF000, len := 8, count := 1 }
    let out : Flip := { ({} : Flip) with target := 0, addr := 0, len := 8, count := 1 }
    in_.inTarget = true ∧ in_.inPage = true ∧ out.inTarget = true ∧ out.inPage = false := by decide +kernel

theorem test_franking_idle_and_running :
    (normal.frk 7 17).state ≠ 1 ∧ ((normal.onFrk 7 17 fun f => { f with state := 1 }).frk 7 17).state = 1 := by decide +kernel

theorem test_buses : (normal.die 7).mbus.length = 4 ∧ (1 ≤ ((normal.bus 7 3).control 3 257).tries) ∧ normal.busRuns 7 3 = true ∧
    normal.busIsolated 7 3 = false ∧
    ((normal.onBus 7 3 fun x => { x with autoIsolated := true }).bus 7 3).autoIsolated = true ∧ (normal.bus 7 3).clears_ 1 = true := by
  decide +kernel

theorem test_improper_access : improper 0x4000001 4 = true ∧ (4000001 : Nat) < 2 ^ 28 ∧
    (normal.reg64 7 6 0).isSome = (normal.reg64 7 6 0).isSome := by decide +kernel

/-! ### Resets and starts -/

/-- The device right after a reset, its backup supply kept. -/
def cold : Dev := { ({} : Dev) with env := { ({} : Env) with backupLost := false } }

theorem test_start_open : cold.start = .starting ∧ cold.seqs.step = 0 ∧ cold.seqs.powerFailAt = none ∧ cold.bkp.recoveryReq = false ∧
    cold.bkp.failedStarts < cold.bkp.recoveryAt ∧ cold.nor.selected.isSome = true ∧ cold.noImage = false ∧
    ({ cold.bkp with recoveryReq := true } : Bkp).recoveryReq = true ∧
    cold.bkp.recoveryAt ≤ ({ cold.bkp with failedStarts := 3 } : Bkp).failedStarts := by decide +kernel

theorem test_resets_due :
    ({ normal.seqs with softDue := some (1, 5) } : Seqs).softDue = some (1, 5) ∧ normal.powerFailing = false ∧
    ({ normal with seqs := { normal.seqs with powerFailAt := some 0 } } : Dev).powerFailing = true ∧
    ({ normal.seqs with startEnds := some 9 } : Seqs).startEnds = some 9 ∧ normal.rst.autoRestart = true ∧
    ({ normal.seqs with fatalAt := some 0, pkgSafe := true } : Seqs).fatalAt = some 0 := by decide +kernel

theorem test_partition_ready_next :
    let d := { normal with store := { normal.store with started := true } }
    (d.part 7).ready = false ∧ (d.part 7).unserved = false ∧ d.dieUp (d.part 7).die = true ∧ (d.part 7).broken = false ∧
      d.store.secures = [] := by decide +kernel

theorem test_start_ready_next :
    let st := { normal.store with started := true, parts := normal.store.parts.map fun x => { x with ready := true } }
    let d := { normal with start := .starting, store := st }
    d.start = .starting ∧ d.store.started = true ∧ (∀ x ∈ d.store.parts, x.ready = true) ∧ d.journalCopies.seqs.startWaiters = [] := by
  decide +kernel

theorem test_die_reset_due :
    let d := normal.onDie 7 fun x => { x with safe := true }
    (d.die 7).safe = true ∧ (d.die 7).noRestart = false ∧ (d.die 7).retired = false ∧ d.rst.dieRestart = true ∧ d.dies.length = 8 ∧
      d.seqs.pkgSafe = false ∧ 6 ≤ d.seqs.step ∧ Sound (at_ d) := by unfold Sound; decide +kernel

theorem test_port_reset_due : normal.lbx.queues = [] ∧ normal.pgh.length = 128 ∧ normal.pins.trained.length = 4 ∧ normal.dieUp 6 = true := by
  decide +kernel

theorem test_button_and_clocks :
    normal.seqs.svcPressedAt = none ∧ (working.jobs.filter fun j => j.state == .running) = [aJob] ∧
    ({ normal.clk with locked := (List.replicate 16 true), secondary := 15 } : Clk).portInUse = 0 ∧
    ({ normal.clk with locked := (List.replicate 16 true).set 0 false, secondary := 15 } : Clk).otherLocked = true ∧
    normal.ethUp 15 = true ∧ 3 ≤ normal.seqs.step := by decide +kernel

/-! ### Ticks, changes, deliveries -/

theorem test_tick_next : normal.dieUp 7 = true ∧ normal.clk.tick ≤ normal.clk.dieTick.getD 7 0 ∧
    ({ normal.clk with tick := 1 } : Clk).dieTick.getD 7 0 < 1 ∧ (normal.die 7).lastFormation < normal.clk.dieTick.getD 7 0 + 1 ∧
    ((normal.onDie 7 fun x => { x with lastFormation := 1 }).die 7).lastSpill < ((normal.onDie 7 fun x => { x with lastFormation := 1 }).die 7).lastFormation := by
  decide +kernel

theorem test_tick_change_due : ({ normal.clk with pending := some (2, 2000, 0, 15, 0xFF), tick := 2 } : Clk).pending = some (2, 2000, 0, 15, 0xFF) := by
  decide +kernel

/-- A staged change of the job. -/
def aStaged : Staged := { id := 1, mask := 4, conf := {}, waiting := [0], ph := some 0, at_ := 0 }

theorem test_stage_accepted :
    accepted devStageConfigOp (le 4 0 ++ le 4 1 ++ le 4 0) working ∧ accepted devStageConfigOp (le 4 0 ++ le 4 1 ++ le 4 8) working ∧
      accepted devStageConfigOp (le 4 0 ++ le 4 1 ++ le 4 64) working ∧ aJob.staged = none ∧ aJob.oldLive = false ∧
      bits 8 5 3 ≠ 0 ∧ bits 64 5 3 = 0 ∧ bits 64 11 6 ≠ 0 := by
  unfold accepted PghOp.Accepts; decide +kernel

theorem test_commit_accepted :
    let j := { aJob with express := true, staged := some { aStaged with ph := none } }
    let d := { normal with jobs := [j] }
    let late := le 4 0 ++ le 4 1 ++ le 8 1 ++ le 8 0
    let ok := le 4 0 ++ le 4 1 ++ le 8 2 ++ le 8 0
    let none_ := le 4 0 ++ le 4 2 ++ le 8 2 ++ le 8 0
    accepted devCommitConfigOp late d ∧ accepted devCommitConfigOp ok d ∧ accepted devCommitConfigOp none_ d ∧
      d.commitRefusal j (body devCommitConfigOp ok d) = none ∧ fld (body devCommitConfigOp late d) 8 8 < d.clk.tick + 2 ∧
      aStaged.id ≠ fld (body devCommitConfigOp none_ d) 4 4 := by
  unfold accepted PghOp.Accepts; decide +kernel

theorem test_deliveries_due :
    let r := { aRank with parcels := [{ step := 0, bytes := [], crc := 0, heldSince := some 0, acked := true, stamp := 1, slotsFailed := 0, runDep := 0 }] }
    let d := { normal with jobs := [{ aJob with ranks := [r] }], clk := { normal.clk with dieTick := List.replicate 8 1 } }
    (d.die 7).lastDelivery < d.clk.dieTick.getD 7 0 ∧ (d.die 7).lastCutoff < d.clk.dieTick.getD 7 0 ∧
      (r.parcels.find? fun x => x.step == 0 && x.acked).isSome = true ∧ r.cursor = 0 ∧ aJob.delivers = true ∧ aJob.stopStep = none ∧
      (d.rank 0 0).isSome = true ∧ (r.held.head?).bind (·.heldSince) = some 0 ∧
      aRank.nextStep < aJob.mapEnd ∧ aRank.complete aJob.b = none := by decide +kernel

/-! ### Dispatch -/

theorem test_dsp_accepted :
    let node := le 1 3 ++ le 1 15 ++ le 1 254 ++ zeros 9 ++ le 4 800000 ++ le 4 4325
    let gates := le 1 15 ++ le 1 1 ++ zeros 6 ++ le 8 2 ++ le 4 0 ++ le 4 3
    accepted dspSetNodeOp node normal ∧ accepted dspSetGatesOp gates normal := by
  unfold accepted PghOp.Accepts; decide +kernel

theorem test_frames_due :
    let k : Pkt := { (default : Pkt) with prio := 0 }
    normal.ethUp 15 = true ∧ (normal.port 15).unpaused 0 = true ∧ normal.ports.length = 16 ∧ normal.isRespPrio 15 7 = false ∧
      (normal.die 7).meterOf 0 15 7 = none ∧ 9000 ≤ (normal.port 15).ingressFree ∧
      ((normal.onPort 15 fun p => { p with paused := p.paused.set 7 (some 5) }).port 15).paused[7]? = some (some 5) ∧
      ((normal.port 15).gates.beyond 1000000)[0]? = some (0, 3) ∧ k.prio = 0 := by decide +kernel

/-! ### Courier -/

theorem test_courier_accepted :
    let reg := le 1 7 ++ le 1 7 ++ le 1 2 ++ zeros 5 ++ le 8 (2 ^ 39 - 1) ++ le 8 1
    let rgn : Region := { die := 7, entry := 1, gen := 255, base := 0, len := 1, read := true, write := true, atomic := true, scope := .anyConn }
    let d := normal.onDie 7 fun x => { x with regions := [rgn] }
    let key := le 4 (7 * 2 ^ 29 + 1 * 256 + 255)
    accepted curRegisterRegionOp reg normal ∧ ((normal.die 7).freeEntry 0).isSome = true ∧
      accepted curRevokeRegionOp key d ∧ d.region 7 1 = some rgn ∧ d.unfinished 7 1 = false := by
  unfold accepted PghOp.Accepts; decide +kernel

theorem test_disconnect_accepted :
    accepted curDisconnectOp (le 4 0 ++ le 4 2) linked ∧ linked.conn 0 = some aConn ∧ bit 2 1 = true ∧ aConn.queue = [] := by
  unfold accepted PghOp.Accepts; decide +kernel

/-- A request packet on the connection, of the expected PSN. -/
def aHdr : RoceHdr := { (default : RoceHdr) with qpn := 0, psn := 0, pkey := 0xFFFF, ce := false }

/-- A region over the first bytes of stack 0, open to every connection. -/
def aRegion : Region := { die := 0, entry := 1, gen := 0, base := 0, len := 4096, read := true, write := true, atomic := true, scope := .anyConn }

/-- The connection with that region. -/
def sharing : Dev := linked.onDie 0 fun x => { x with regions := [aRegion] }

theorem test_inbound_expected : sharing.Expects aHdr aConn ∧ sharing.Answers aHdr aConn := by
  have h : sharing.accept aHdr = .ok aConn := rfl
  exact ⟨⟨h, by decide +kernel⟩, ⟨h, by decide +kernel⟩⟩

theorem test_inbound_keys :
    (sharing.inTurn aHdr aConn).checkKey aConn 256 4088 8 .write = .ok aRegion ∧
      (sharing.inTurn aHdr aConn).checkKey aConn 256 0 4096 .read = .ok aRegion ∧
      (sharing.inTurn aHdr aConn).checkKey aConn 256 0 8 .atomic = .ok aRegion ∧
      (sharing.inTurn aHdr aConn).checkKey aConn 256 4089 8 .write = .refused ∧
      (sharing.inTurn aHdr aConn).checkKey aConn 257 0 8 .write = .stale ∧ (sharing.die 0).safe = false ∧
      (aConn.inbound.filter fun x => !x.write).length < aConn.ird := by
  decide +kernel

/-- A SEND in flight on the connection. -/
def aWr : Wr := { (default : Wr) with op := .send, started := true, firstPsn := 0, lastPsn := 0, txAt := some 0 }

theorem test_responses_due :
    let c := { aConn with queue := [aWr], nextPsn := 1, sentPsn := 1, deadline := 5 }
    let read := { aWr with op := .read, txAt := some 0 }
    let cr := { aConn with queue := [read], nextPsn := 1, sentPsn := 1 }
    c.inFlight 0 = true ∧ c.inFlight 1 = false ∧ c.drain = none ∧ (∀ w ∈ c.queue, w.op ≠ .read) ∧ psnAdd 0 1 ≠ c.unaPsn ∧
      1 ≤ c.retriesLeft ∧ c.rnrCount < 6 ∧ cr.wrAt 0 = some read ∧ psnSub 0 read.firstPsn = read.got.length / cr.pmtu ∧
      read.firstPsn = cr.unaPsn ∧ aConn.mayCut 0 = true ∧ 1 ≤ c.deadline ∧ c.queue.head? = some aWr ∧ aWr.txAt = some 0 ∧
      (linked.startable { aConn with queue := [{ aWr with started := false }] }).isSome = true := by decide +kernel

theorem test_revocation_due :
    let r := { aRegion with revoking := some (0, some 0) }
    let busy := { aConn with inbound := [{ (default : InMsg) with entry := 1, write := true }] }
    let d := normal.onDie 0 fun x => { x with regions := [r] }
    let e := normal.onDie 0 fun x => { x with regions := [r], conns := [busy] }
    d.region 0 1 = some r ∧ d.unfinished 0 1 = false ∧ e.unfinished 0 1 = true ∧ r.staging = none := by decide +kernel

/-! ### Jobs, datasets -/

/-- A closed dataset of one entry in one segment. -/
def aDataset : Dataset :=
  let m : Manifest := { id := 1, storedLen := 1, origLen := 1, franking := 0, format := 0, label := 0 }
  { handle := 0, segment := some 0, closed := true, entries := [m], dirFranking := [0], segs := [(1, zeros 32)], digest := zeros 32 }

/-- A device with the dataset. -/
def shelved : Dev := { normal with datasets := [aDataset] }

theorem test_job_create_accepted :
    let b := fun (w : Nat) => zeros 12 ++ le 1 0 ++ le 1 64 ++ le 2 1 ++ zeros 8 ++ le 4 w ++ le 4 1 ++ le 4 1 ++ zeros 4 ++ le 4 64 ++ le 4 64
    accepted jobCreateOp (b 2) shelved ∧ shelved.dataset 0 = some aDataset ∧ (aDataset.segs.map (·.1)).sum < 1 * 2 ∧
      fld (body jobCreateOp (b 2) shelved) 24 4 = 2 ∧ fld (body jobCreateOp (b 2) shelved) 28 4 = 1 ∧
      accepted jobCreateOp (b 1) { normal with datasets := [{ aDataset with closed := false }] } ∧ Sound (at_ shelved) := by
  unfold accepted PghOp.Accepts Sound; decide +kernel

theorem test_job_create_ready :
    let d := { shelved with routes := [{ digest := zeros 32, binary := [] }], dies := shelved.dies.map fun (x : Die) => { x with pool := { x.pool with bytes := 2 ^ 36 } } }
    let b := zeros 12 ++ le 1 0 ++ le 1 64 ++ le 2 1 ++ zeros 8 ++ le 4 1 ++ le 4 1 ++ le 4 1 ++ zeros 4 ++ le 4 64 ++ le 4 64
    d.createRefusal (fit 160 b) aDataset = none ∧ (d.route (zeros 32)).isSome = true ∧ (routeOf []).cardLen = 0 := by decide +kernel

theorem test_job_commands_accepted :
    accepted jobQueryOp (le 4 0 ++ zeros 12 ++ le 8 0 ++ le 8 65536) working ∧ accepted jobDestroyOp (le 4 0 ++ le 4 1) working ∧
      accepted jobStartOp (le 4 0) working ∧ accepted jobSealOp (le 4 0 ++ zeros 4 ++ le 8 0 ++ le 8 5 ++ le 8 0 ++ le 8 4096) working ∧
      aJob.barrier.opened = false ∧ aJob.barrier.ph = none := by
  unfold accepted PghOp.Accepts; decide +kernel

set_option maxRecDepth 100000 in
theorem test_bind_accepted :
    accepted jobBindRanksOp (le 4 0 ++ le 4 1 ++ le 8 0 ++ le 4 1 ++ le 4 0 ++ le 4 1 ++ zeros 4 ++ le 4 63 ++ zeros 252)
      { normal with jobs := [{ aJob with state := .created, ranks := [] }] } := by
  unfold accepted PghOp.Accepts; decide +kernel

theorem test_host_reads : pghRead {} normal 0 (0, 4) = some (zeros 4) := by decide +kernel

theorem test_start_and_resume_open :
    let j := { aJob with state := .bound }
    let d := { normal with jobs := [j] }
    d.startRefusal j = none ∧ j.barrier.ph = none ∧
      accepted jobResumeOp (le 4 0 ++ le 4 1 ++ le 8 0) d ∧ (d.resumeFrom j []).isOk = (d.resumeFrom j []).isOk := by
  unfold accepted PghOp.Accepts; decide +kernel

theorem test_seal_cutoff_due :
    let x : Seal := { (default : Seal) with nonce := 5, stop := 0, at_ := 0, waiters := [] }
    let j := { aJob with state := .sealing, sealRec := some x, ranks := [] }
    j.ranks.all Rank.drained = true ∧ j.ctrs.difference = 0 := by decide +kernel

theorem test_dataset_commands_accepted :
    let open_ := { normal with datasets := [{ aDataset with closed := false }] }
    accepted dsetOpenOp (le 4 0xFFFFFFFF) normal ∧ freeSlot 1024 [] = some 0 ∧
      accepted dsetAddManifestOp (le 4 0 ++ le 4 1 ++ le 8 1 ++ le 8 0) open_ ∧
      accepted dsetCloseOp (le 4 0 ++ zeros 4 ++ le 8 0 ++ le 8 56) open_ ∧
      accepted dsetVerifyOp (le 4 0) shelved ∧ accepted dsetDeleteOp (le 4 0) shelved := by
  unfold accepted PghOp.Accepts; decide +kernel

/-! ### Routes, vocabularies, grammars, streams -/

/-- An image header of V = 2: identifier 0 for the byte "a", by the table of bytes at offset 0. -/
def tiny : Bytes := layout 400 [(12, le 4 2), (24, le 2 64), (40, le 4 128), (44, le 4 140), (128, le 4 0 ++ le 4 1 ++ le 4 2), (140, ascii "ab")]

/-- A vocabulary in slot 0. -/
def aVocab : Vocab := { slot := 0, digest := zeros 32, object := 1, image := tiny }

/-- A grammar image of one state: REJECT for every byte. -/
def aGrammar : Grammar := { handle := 0, digest := ascii "g", object := 2, image := layout 368 [(12, le 4 1), (16, le 1 1), (18, le 2 1)], stepNs := 1001 }

/-- A device with the two and their objects. -/
def lettered : Dev :=
  let o := fun (n : Nat) => ({ id := n, stored := ascii "x", origLen := 1, franking := 0, putSeq := 1 } : Obj)
  { linked with vocabs := [aVocab], grammars := [aGrammar], store := { linked.store with objs := [o 1, o 2] } }

/-- A route of one stage that accepts FORMAT 0: PLACE_SCALAR of the META code 0 into tensor 0, F32. -/
def aRoute : Bytes :=
  let stage := layout 64 [(0, le 1 5), (1, le 1 2), (8, le 1 5), (16, le 1 7), (24, le 8 (3 + 32 * 2 ^ 40))]
  let decl := layout 32 [(0, le 1 1), (8, le 4 1 ++ le 4 1 ++ le 4 1)]
  layout 160 [(0, ascii "ROUT"), (4, le 2 1), (6, le 2 64), (8, le 4 160), (12, le 1 1), (15, le 1 1), (20, le 4 32),
    (28, le 2 0xFFFF), (64, stage), (128, decl)]

theorem test_route_passes : routeCheck 1 false aRoute = none := by decide +kernel

theorem test_route_load_reads :
    let b := routeLoadOp.bodyOf 0 (frame routeLoadOp.opcode 1 (fit routeLoadOp.size (le 8 0 ++ le 8 64))) normal
    normal.binaryIn {} 0 (hostBuf b 0) = .ok (zeros 64) := rfl

theorem test_route_commands_accepted :
    let held := fun (d : Dev) => { d with routes := [{ digest := zeros 32, binary := [] }] }
    let used := { normal with jobs := [{ aJob with conf := { ({} : JobConf) with routeDigest := zeros 32 } }] }
    let b := le 8 0 ++ le 8 64
    accepted routeLoadOp b normal ∧ accepted routeValidateOp b normal ∧ normal.route (sha256 (zeros 64)) = none ∧
      routeCheck normal.semantics false (zeros 64) = some (St.RTE_ROUTE_BAD, 0xFFFF, 0xFFFF) ∧
      accepted routeUnloadOp (zeros 32) (held used) ∧ accepted routeUnloadOp (zeros 32) (held normal) ∧
      (used.jobs.any fun j => j.confs.any fun c => c.routeDigest == zeros 32) = true := by
  unfold accepted PghOp.Accepts; decide +kernel

theorem test_vocab_commands_accepted :
    let b := le 8 1 ++ le 8 0
    accepted vocabLoadOp (b ++ zeros 32) lettered ∧ accepted vocabLoadOp (b ++ sha256 (ascii "x")) lettered ∧
      lettered.objectBytes 1 = ascii "x" ∧ sha256 (ascii "x") ≠ zeros 32 ∧ lettered.vocab (sha256 (ascii "x")) = none ∧
      lettered.vocabAt 1 = none ∧ lettered.vocabAt 0 ≠ none ∧ lettered.pinRoom 1 = true ∧
      accepted vocabUnloadOp (le 4 0 ++ le 4 0) lettered ∧ lettered.vocabAt 0 = some aVocab ∧ lettered.vocabUsed aVocab = true ∧
      ({ lettered with grammars := [] } : Dev).vocabUsed aVocab = false := by
  unfold accepted PghOp.Accepts; decide +kernel

theorem test_grammar_commands_accepted :
    let f := frame grammarUnloadOp.opcode 1 (fit grammarUnloadOp.size (le 4 1 ++ le 4 0))
    let s := ({ (default : Stream) with kind := 2, grammar := 0 } : Stream)
    accepted grammarLoadOp (le 8 2 ++ le 8 0 ++ zeros 32) lettered ∧ sha256 (lettered.objectBytes 2) ≠ zeros 32 ∧
      accepted grammarUnloadOp (le 4 1 ++ le 4 0) lettered ∧ unloadKind f = 1 ∧ lettered.grammar 0 = some aGrammar ∧
      ({ lettered with streams := [s] } : Dev).streams.any (fun x => x.kind == 2 && x.grammar == 0) = true ∧ lettered.streams = [] ∧
      freeSlot 256 (lettered.grammars.map (·.handle)) = some 1 ∧ (gramOf aGrammar.image).stepNs (vocOf tiny) = 1001 := by
  unfold accepted PghOp.Accepts; decide +kernel

theorem test_stream_open_accepted :
    let b := le 1 1 ++ zeros 7 ++ le 4 0 ++ zeros 16 ++ le 4 4096
    accepted streamOpenOp b linked ∧ fld (body streamOpenOp b linked) 0 1 = 1 ∧ fld (body streamOpenOp b linked) 28 4 = 4096 ∧
      linked.connected 0 = true ∧ linked.freeStream = some 0 ∧ (linked.placeShared).isSome = true := by
  unfold accepted PghOp.Accepts; decide +kernel

/-- A request of the stream: the operation with one word of payload. -/
def aReq (op : Nat) : StreamReq := { op := op, seq := 1, flags := 1, vocab := 0, rollback := 0, payload := le 4 0, at_ := 0 }

/-- A text stream with that request running. -/
def aStream (op : Nat) : Stream :=
  { number := 0, kind := 1, qpn := 0, respAddr := 0, respKey := 0, slotSize := 4096, home := c0, running := some (aReq op) }

/-- A constrained stream with that request running. -/
def aBound : Stream := { aStream 3 with kind := 2 }

theorem test_stream_requests_arrive :
    let d := { lettered with streams := [{ aStream 1 with running := none }] }
    let msg := fun (op n : Nat) => layout 36 [(0, ascii "TXRQ"), (4, le 2 1), (6, le 2 op), (8, le 4 n), (12, le 4 1), (16, le 4 4)]
    requestOk (msg 1 0) = true ∧ requestOk (msg 4 0) = false ∧ d.stream (fld (msg 1 0) 8 4) = some { aStream 1 with running := none } ∧
      d.stream (fld (msg 1 9) 8 4) = none ∧ fld (msg 1 0) 12 4 = seqAfter (aStream 1).lastAccepted ∧ d.dieUp (qpnDie 0) = true ∧
      d.conn 0 = some aConn ∧ aConn.state = .connected ∧ aConn.kind ≠ 0 := by decide +kernel

theorem test_stream_close_accepted :
    accepted streamCloseOp (le 4 0) { lettered with streams := [aStream 1] } ∧
      accepted streamCloseOp (le 4 0) { lettered with streams := [{ aStream 1 with running := none }] } := by
  unfold accepted PghOp.Accepts; decide +kernel

theorem test_stream_requests_served :
    let d := fun (op : Nat) => { lettered with streams := [aStream op] }
    let e := { lettered with streams := [aBound] }
    (d 1).serving 0 1 = some (aStream 1, aReq 1) ∧ (d 2).serving 0 2 = some (aStream 2, aReq 2) ∧
      (d 3).serving 0 3 = some (aStream 3, aReq 3) ∧ e.serving 0 3 = some (aBound, aReq 3) ∧
      ({ d 1 with vocabs := [] } : Dev).vocabAt 0 = none ∧ (d 1).vocabAt 0 = some aVocab ∧ (aStream 1).tokCtx = [] ∧
      (∀ i ∈ idsOf 5 (aReq 2).payload, i < (vocOf tiny).v) ∧ (vocOf tiny).v ≤ 2 ∧
      (renderText (vocOf tiny).replace true ((vocOf tiny).render false [0])).1.length = 1 ∧
      e.grammar aBound.grammar = some aGrammar ∧ (e.vocabOf aGrammar).isSome = true ∧
      aBound.pos.withdraw 0 = some aBound.pos ∧ aBound.pos.finished = false ∧ aBound.bounded = false := by decide +kernel

theorem test_grammar_rejects_and_applies :
    let g := gramOf aGrammar.image
    let v := vocOf tiny
    aBound.pos.apply g v 0 [0] = .error 0 ∧ aBound.pos.apply g v 0 [] = .ok aBound.pos ∧
      (aBound.pos.reply g v true).body.length ≤ 4096 - 32 := by
  exact ⟨rfl, rfl, by decide +kernel⟩

/-- "ab" detokenised from the two identifiers; an identifier's bytes (R257). -/
theorem test_detokenise : (vocOf tiny).render false [0, 1, 0] = ascii "aba" := by decide +kernel

/-! ### Store, letterbox, media -/

/-- A sled in service. -/
def aSled : Sled := { ({} : Sled) with state := .inService, label := some (1, 0) }

/-- A started store: partitions ready, sleds in service, shape 6 + 1 + 1. -/
def aStore : Store := { ({} : Store) with
  started := true
  direct := false
  k := 6
  m := 1
  s := 1
  sleds := (List.range 16).map fun i => { aSled with label := some (1, i) }
  parts := (List.range 8).map fun p => { ({ die := p } : Partition) with ready := true } }

/-- A device with that store. -/
def stocked : Dev := { normal with store := aStore }

theorem test_store_commands_accepted :
    let parked := stocked.onSled 0 fun x => { x with state := .parked }
    let preparing := stocked.onSled 0 fun x => { x with state := .preparing, prepare := some (true, 0, some 1) }
    let grouped := stocked.onStore fun st => { st with groups := [{ number := 0, members := [], standin := none }], freeLuns := [0] }
    accepted stoFormatOp (le 1 6 ++ le 1 1 ++ le 1 1 ++ le 1 0 ++ le 1 4) stocked ∧ stripeShapeOk 6 1 1 = true ∧
      stripeShapeOk 5 1 1 = false ∧ accepted stoFormatOp (le 1 6 ++ le 1 1 ++ le 1 1 ++ le 1 0 ++ le 1 4) { stocked with datasets := [aDataset] } ∧
      accepted stoSledPrepareRemoveOp (le 1 15 ++ le 1 0) stocked ∧ accepted stoSledPrepareRemoveOp (le 1 0 ++ le 1 2) stocked ∧
      accepted stoSledPrepareRemoveOp (le 1 0 ++ le 1 4) preparing ∧ accepted stoSledAdmitOp (le 1 0 ++ le 1 2) parked ∧
      (parked.store.sled 0).busy = false ∧ (preparing.store.sled 0).busy = true ∧
      accepted stoStandinOp (zeros 12 ++ le 4 86400 ++ le 1 100) stocked ∧
      accepted stoStandinOp (le 1 2 ++ zeros 3 ++ le 4 0 ++ le 4 0) grouped ∧
      accepted stoSetEccStrengthOp (le 1 15 ++ le 1 8 ++ le 1 8 ++ le 1 15) stocked ∧
      aSled.codewords 8 = 3 ∧ aSled.codewords 0 = 4 := by
  unfold accepted PghOp.Accepts; decide +kernel

/-- Eight sleds of two LUNs each give two groups of 6 + 1 + 1 (R452). -/
theorem test_groups_formed :
    let sleds := List.range 8
    (formGroups 6 1 1 sleds 16 0 (sleds.map fun i => (i, [i, i + 100]))).map (fun g => (g.number, g.members.length, g.standin.isSome)) =
      [(0, 7, true), (1, 7, true)] := by decide +kernel

/-- A command on tag 3 of queue 0. -/
def aCmd (opcode : Nat) : Cmd :=
  let s : Sub := { (default : Sub) with opcode := opcode, tag := 3, id := 7, len := 64 }
  { sub := s, crc := 0, index := 0 }

/-- A running queue with those commands. -/
def aQueue (l : List Cmd) : Queue := {
  number := 0, port := 0, sqBase := 0, cqBase := 4096, sqSize := 16, cqSize := 16, vector := 0, intCount := 0,
  intEnabled := true, intDelay := 10, cmds := l }

/-- An object of 5 bytes. -/
def anObj : Obj := { id := 7, stored := ascii "hello", origLen := 5, franking := 0, putSeq := 1 }

/-- A device with the queue, the store holding objects. -/
def boxed (x : Queue) (objs : List Obj) : Dev :=
  let d := stocked.onStore fun st => { st with objs := objs }
  { d with lbx := { d.lbx with queues := [x] } }

theorem test_letterbox_commands_accepted :
    let frozen := { aQueue [] with state := .frozen, errPage := some default }
    let b := le 2 0 ++ le 1 0 ++ zeros 5 ++ le 8 4096
    let entry := layout 64 [(0, ascii "LBXQ"), (16, le 8 4096), (24, le 2 2), (26, le 2 2)]
    accepted lbxCreateOp b stocked ∧ stocked.queue 0 = none ∧ entryOk 0 0 entry = true ∧ entryOk 0 0 (zeros 64) = false ∧
      hostRead {} stocked 0 4096 64 = some (zeros 64) ∧ accepted lbxErrorLogOp (zeros 4) (boxed frozen []) ∧
      accepted lbxRestartOp (zeros 4 ++ le 4 0) (boxed frozen []) ∧ accepted lbxResetOp (zeros 4) (boxed frozen []) ∧
      accepted lbxResetOp (le 2 0 ++ le 1 1) (boxed (aQueue []) []) ∧ (boxed frozen []).queue 0 = some frozen ∧ frozen.freezeCount = 0 := by
  unfold accepted PghOp.Accepts; decide +kernel

theorem test_doorbell_block : ∀ k < 4096, doorbellPort (Config.doorbellBase 0 + 8 * k) = some 0 := by
  intro k h
  unfold doorbellPort
  rw [show List.range 4 = [0, 1, 2, 3] from rfl]
  exact List.find?_cons_of_pos (decide_eq_true (by omega))

theorem test_doorbell_and_interrupt :
    let d := boxed (aQueue []) []
    d.queue 0 = some (aQueue []) ∧ d.pins.trained.getD 0 false = true ∧ d.lbxRuns 0 = true ∧ bits 16 15 0 = 16 ∧
      bits 0 15 0 = (aQueue []).sqHead ∧ bits 0 31 16 = (aQueue []).cqHead ∧
      (boxed { aQueue [] with unsignalled := 1 } []).queue 0 = some { aQueue [] with unsignalled := 1 } := by decide +kernel

theorem test_letterbox_requests :
    let d := fun (op : Nat) (l : List Obj) => boxed (aQueue [aCmd op]) l
    let c := aCmd 6
    let list : Cmd := { c with sub := { c.sub with control := 7, id := 0 } }
    (d 1 []).fetchedCmd 0 3 1 = some (aCmd 1) ∧ (d 1 []).gate (partitionOf 7) = .serve ∧ isSystemId 7 = false ∧
      (d 1 [anObj]).object 7 = some anObj ∧ (d 1 [anObj]).store.objReads anObj = some 0 ∧ (d 1 [anObj]).store.securing 7 = false ∧
      (d 5 [anObj]).fetchedCmd 0 3 5 = some (aCmd 5) ∧ (d 5 []).hostRefused 0 0 64 true = none ∧
      (boxed (aQueue [list]) [anObj]).fetchedCmd 0 3 6 = some list ∧
      (boxed (aQueue [list]) [anObj]).store.idsFrom (partitionOf 7) 0 = [7] ∧
      (d 2 []).fetchedCmd 0 3 2 = some (aCmd 2) ∧ (d 2 []).storeRefusal 7 = none ∧ hostRead {} (d 2 []) 0 0 2 = some (zeros 2) ∧
      (d 3 [anObj]).fetchedCmd 0 3 3 = some (aCmd 3) ∧ anObj.pins = 0 ∧
      (d 3 [{ anObj with pins := 1 }]).object 7 = some { anObj with pins := 1 } ∧
      (d 4 [anObj]).fetchedCmd 0 3 4 = some (aCmd 4) ∧ (d 7 []).fetchedCmd 0 3 7 = some (aCmd 7) ∧
      (∀ x ∈ (d 7 []).store.parts, x.lazy_ = []) ∧ (d 7 []).store.lazyInFlight = [] := by decide +kernel

theorem test_put_content :
    let s := (aCmd 2).sub
    let framed := { s with flags := 3, franking := 1, control := 0 }
    putContent s (ascii "a") = .ok (ascii "a", 0, 0) ∧ crc32c (ascii "a") ≠ framed.franking := by
  exact ⟨rfl, by decide +kernel⟩

theorem test_request_waits :
    let c := { aCmd 3 with waitSince := some 0 }
    let d := (boxed (aQueue [c]) []).onPart (partitionOf 7) fun x => { x with unserved := true }
    d.gate (partitionOf 7) = .wait ∧ d.fetchedCmd 0 3 3 = some c ∧ (aQueue [c]).cmd 3 = some c := by decide +kernel

/-- A journal record. -/
def aRec : JEntry := default

theorem test_journal_and_nand :
    let d := (stocked.onPart 0 fun x => { x with sync := [aRec], syncSince := some 5 })
    let pr : Program := { number := 4, work := .journal 0 [aRec] }
    let pg : Program := { number := 4, work := .page 0 3 }
    let e := stocked.onStore fun st => { st with programs := [pr] }
    let used := stocked.onStore fun st => { st with blocks := [{ key := 64, used := 1 }] }
    (d.part 0).sync ≠ [] ∧ (d.part 0).syncSince = some 5 ∧ d.seqs.powerFailAt = none ∧
      e.store.programs.find? (fun x => x.number == 4) = some pr ∧ e.store.journalBehind pr = false ∧
      [pg].find? (fun x => x.number == 4) = some pg ∧ used.erasable (blockKey 64) = true ∧ stocked.erasable (blockKey 64) = false ∧
      (stocked.part 7).ready = true ∧ (stocked.part 7).bytesSince < 2 ^ 30 ∧
      2 ^ 30 ≤ ((stocked.onPart 7 fun x => { x with bytesSince := 2 ^ 30 }).part 7).bytesSince := by decide +kernel

/-- A cell of one page in block 1 of sled 0, channel 1. -/
def aCell : Cell := { number := 0, slot := mkSlot 0 1 0 0 1 0, validPages := 1, holds := [{ id := 7, putSeq := 1, first := 0, at_ := 0, count := 1 }] }

/-- A group of seven LUNs, one on each of sleds 0 to 6. -/
def aGroup : Group :=
  { number := 0, members := (List.range 7).map fun i => { lun := mkSlot i 1 0 0 0 0 }, standin := some (mkSlot 7 1 0 0 0 0) }

theorem test_media_reads :
    let rd : NandRead := { number := 2, cell := 0, item := none, id := 7 }
    let d := stocked.onStore fun st => { st with cells := [{ aCell with refreshBy := some 9 }], reads := [rd] }
    d.store.reads.find? (fun x => x.number == 2) = some rd ∧ (d.store.cell 0).isSome = true ∧ d.store.slotReads aCell.slot = true ∧
      ((d.store.cell 0).bind (·.refreshBy)) = some 9 ∧ ((stocked.onStore fun st => { st with cells := [aCell] }).store.cell 0) = some aCell := by
  decide +kernel

set_option maxRecDepth 100000 in
theorem test_wear_level :
    let lun := mkSlot 0 1 0 0 0 0
    let full : Block := { key := lun + 64, erases := 51, used := 1 }
    let d := stocked.onStore fun st => { st with blocks := [full] }
    lunKey lun = lun ∧ (d.store.lunErases lun).foldl (fun a e => max a e.2) 0 = 51 ∧ aSled.endurance < 20 * 51 ∧
      ((d.store.lunErases lun).filter fun e => decide (aSled.cellsPerBlock ≤ (d.store.block e.1).used)) = [(lun + 64, 51)] ∧
      (stocked.store.lunErases lun).foldl (fun a e => max a e.2) 0 = 0 := by decide +kernel

set_option maxRecDepth 100000 in
theorem test_fold_and_garbage :
    let d := stocked.onStore fun st => { st with cells := [aCell], objs := [anObj], groups := [aGroup] }
    let dead := stocked.onStore fun st => { st with cells := [{ aCell with validPages := 0, holds := [] }] }
    d.store.foldGroup 0 = some aGroup ∧ (d.store.objs.filter fun o => o.inSlc && cellDie o.firstCell == 0 && (d.store.objReads o).isSome) = [anObj] ∧
      (d.store.newStripes aGroup 0 1).isSome = true ∧
      (d.store.newStripes aGroup 0 1).map (fun x => x.2.objs) = some d.store.objs ∧ stocked.garbageCells 0 = [] ∧
      stocked.compactCell 0 = none ∧ dead.garbageCells 0 = [0] := by decide +kernel

set_option maxRecDepth 100000 in
theorem test_standin_and_rebuild :
    let lostM : Member := { lun := mkSlot 6 1 0 0 0 0, lost := true }
    let g := { aGroup with members := aGroup.members.set 6 lostM }
    let away := { aSled with state := .empty, present := false, absentSince := some 4 }
    let d := stocked.onStore fun st => { st with groups := [g, { g with number := 1, standin := none }] }
    let e := stocked.onStore fun st => { st with groups := [{ aGroup with standin := none }], sleds := st.sleds.set 6 away }
    let cells := (List.range 7).map fun i => { aCell with number := i, slot := mkSlot i 1 0 0 1 0 }
    let r := stocked.onStore fun st => { st with groups := [{ aGroup with toRebuild := [(0, 0)] }], cells := cells, stripes := [{ group := 0, cells := List.range 7 }] }
    d.store.groups.find? (fun x => x.number == 0) = some g ∧ d.memberLostAt lostM = some 0 ∧
      e.memberLostAt (aGroup.members.getD 6 default) = some (4 + 600000000000) ∧ (r.store.stripeOf 0).isSome = true ∧
      r.store.stripeReads { group := 0, cells := List.range 7 } = true ∧ (r.store.cell 0).isSome = true ∧
      (r.store.allocOn (mkSlot 0 1 0 0 0 0) true 0).isSome = true := by decide +kernel

theorem test_partitions_lost :
    let down := stocked.onDie 3 fun x => { x with safe := true }
    let both := down.onDie 7 fun x => { x with safe := true }
    let away := stocked.onPart 3 fun x => { x with die := 7 }
    stocked.store.started = true ∧ (stocked.part 3).unserved = false ∧ stocked.dieUp (stocked.part 3).die = true ∧
      down.dieUp (down.part 3).die = false ∧ down.dieUp 7 = true ∧ both.dieUp 7 = false ∧
      ((away.onDie 7 fun x => { x with safe := true }).dieUp 7) = false ∧ away.dieUp 3 = true := by decide +kernel

theorem test_sled_events :
    let adm := stocked.onSled 5 fun x => { x with state := .admitting, admission := some (0, false, some 2) }
    let prep := stocked.onSled 5 fun x => { x with state := .preparing, prepare := some (false, 7, some 2) }
    let park := stocked.onSled 5 fun x => { x with state := .parked }
    (adm.store.sled 5).admission = some (0, false, some 2) ∧ adm.store.labelRefusal 5 0 false = none ∧
      adm.store.labelRefusal 4 1 false = some St.MED_SLED_FOREIGN ∧ adm.busIsolated 2 1 = false ∧ (adm.store.sled 5).present = true ∧
      (prep.store.sled 5).prepare = some (false, 7, some 2) ∧ stocked.store.sleds.length = 16 ∧ stocked.dies.length = 8 ∧
      (park.store.sled 5).state = .parked ∧ (park.store.sled 5).label = some (park.store.identity, 5) ∧
      (stocked.store.sled 15).state = .inService ∧ stocked.seqs.powerFailAt = none := by decide +kernel

/-! ### Reads, stages, settlement, barriers -/

/-- The job with its position MAPPED, its segment held here (peer 0xFFFFFFFE) or at peer 0. -/
def reader (peer : Nat) (e : Entry) : Job :=
  { aJob with nodeMap := [(peer, 0xFFFFFFFF)], peers := [0], ranks := [{ aRank with window := [e] }] }

/-- A device with it, the dataset, the object and pools. -/
def reading (peer : Nat) (e : Entry) : Dev :=
  let d := stocked.onDie 0 fun x => { x with pool := { x.pool with bytes := 2 ^ 36 }, conns := [aConn] }
  let d := d.onStore fun st => { st with objs := [{ anObj with id := 1 }] }
  { d with jobs := [reader peer e], datasets := [aDataset] }

/-- A MAPPED entry. -/
def mapped : Entry := { anEntry with state := .mapped, begun := false, core := none, storedLen := 1 }

/-- The entry with its read issued. -/
def issued : Entry := { mapped with state := .readIssued }

theorem test_local_reads :
    let d := reading 0xFFFFFFFE mapped
    let rd : NandRead := { number := 0, cell := 0, item := some i0, id := 1 }
    let e := (reading 0xFFFFFFFE issued).onStore fun st => { st with reads := [rd] }
    let w : BufWait := { requester := 4, parts := [(.stored i0, 1)], cluster := none, owner := officeUnit 0 }
    (d.nextLocal 0).map (fun p => p.2.item) = some i0 ∧ d.sampleObject i0 = some { anObj with id := 1 } ∧ d.entry i0 = some mapped ∧
      (d.storedBuffer i0 1).2 = true ∧ stocked.nextLocal 0 = none ∧ (∃ x ∈ e.store.reads, x.item = some i0) ∧
      e.entry i0 = some issued ∧ (e.onStore fun st => { st with reads := [] }).sampleObject i0 = some { anObj with id := 1 } ∧
      e.store.objReads { anObj with id := 1 } = some 0 ∧ ({ e with datasets := [] } : Dev).sampleObject i0 = none ∧
      (d.onPool 0 fun x => { x with waits := [w] }).nextWaiter 0 = some w ∧ d.nextWaiter 0 = none := by decide +kernel

theorem test_remote_fetches :
    let d := reading 0 mapped
    let x : Pending := { item := i0, urgent := true, step := 0, slot := 0, since := 0, alt := false }
    let e := (reading 0 issued).onDie 0 fun x => { x with fetch := { x.fetch with releases := [{ qpn := 0, handle := 3, since := 0 }] } }
    let again := { issued with remote := { issued.remote with retryAt := some 5, busy := true } }
    let other := { again with remote := { again.remote with busy := false } }
    let st : Staging := { request := 1, qpn := 0, digest8 := zeros 8, segment := 9, entries := [{ localOffset := 0, tag := 0 }] }
    let l : Lease := { handle := 3, qpn := 0, die := 0, entry := 1, size := 1, ends := 7 }
    let req := layout 40 [(0, ascii "FTCH"), (4, le 2 1)]
    let repl := layout 64 [(0, ascii "FTRP"), (4, le 2 1)]
    firstPending (d.fetchable 0 0 0) = some x ∧ x ∈ takePending 64 (d.travelWith x (d.fetchable 0 0 0)) ∧
      (d.die 0).fetch.requestsTo 0 = 0 ∧ d.connected 0 = true ∧ (e.die 0).fetch.releasesTo 0 = [{ qpn := 0, handle := 3, since := 0 }] ∧
      fetchFramed req = true ∧ fetchFramed (zeros 24) = false ∧ (repl.take 4 = ascii "FTRP" ∧ repl.length = 8 + 56 * fld repl 4 2) ∧
      ({ linked with stagings := [st] } : Dev).stagings.find? (fun x => x.request == 1) = some st ∧
      (∀ y ∈ st.entries, linked.stagedManifest st y = none) ∧
      ({ linked with leases := [l] } : Dev).leases.find? (fun l => l.handle == 3) = some l ∧
      (reading 0 again).entry i0 = some again ∧ (reading 0 other).entry i0 = some other ∧
      (reading 0 issued).isLocal (reader 0 issued) 0 = false ∧ issued.remote.staged = false := by decide +kernel

/-- The job with a route, its entry in flight at stage 0. -/
def atWork (e : Entry) (busy : List Busy) : Dev :=
  let j := { aJob with conf := { ({} : JobConf) with route := aRoute }, ranks := [{ aRank with window := [e] }] }
  ({ normal with jobs := [j] } : Dev).onCore c0 fun x => { x with flight := [i0], busy := busy }

/-- The entry begun. -/
def begun : Entry := { anEntry with started := true }

/-- The engine that holds its stage. -/
def holding : Busy := { slot := 5, item := i0, stage := 0, since := 3 }

theorem test_stages_issued :
    let d := atWork begun []
    let st := (routeOf aRoute).stages.getD 0 default
    d.readyStage c0 i0 = some st ∧ st.engine = 5 ∧ st.opcode = 2 ∧ d.firstReady c0 (kindOf st) i0 = true ∧
      (d.freeEngine c0 (kindOf st)).isSome = true ∧ normal.readyStage c0 i0 = none := by decide +kernel

theorem test_items_start :
    let d := (atWork { anEntry with started := false } []).onCore c0 fun x => { x with sack := [i0], flight := [] }
    let full := d.onCore c0 fun x => { x with flight := List.replicate 64 i0 }
    let j := d.jobs.headD default
    let w : BufWait := { requester := 4, parts := (j.placed i0 anEntry 1).map fun b => (Use.item i0 b.1, b.2), cluster := (d.physical c0).map (·.1), owner := d.seqUnit c0 }
    d.engineUp c0 9 = true ∧ (d.core c0).sack.head? = some i0 ∧ (normal.core c0).sack = [] ∧ 64 ≤ (full.core c0).flight.length ∧
      d.startFailure j i0 anEntry = none ∧ d.startFailure j i0 { anEntry with format := 1 } = some St.RTE_FORMAT ∧
      ((d.core c0).placeAll i0 (j.placed i0 anEntry 0)).isSome = true ∧ (d.allocate 0 w).2 = true := by decide +kernel

theorem test_stages_end :
    let run := fun (x : StageResult) => { begun with running := true, result := some x }
    let d := atWork (run (.ok [])) [holding]
    let st := (routeOf aRoute).stages.getD 0 default
    let frank : Stage := { st with engine := 6, opcode := 3 }
    d.stageAt i0 = some st ∧ (d.core c0).busy.find? (fun b => b.item == i0) = some holding ∧
      d.entry i0 = some (run (.ok [])) ∧ st.doubtsStored St.VTE_SHAPE = false ∧ frank.doubtsStored St.INFL_FRANKING = true ∧
      frank.franks = true ∧ d.engineUp c0 5 = true ∧ (d.core c0).busy.find? (fun b => b.slot == 5) = some holding := by decide +kernel

/-- A route of one CHECK_FRANK of the stored bytes. -/
def frankRoute : Bytes :=
  layout 128 [(0, ascii "ROUT"), (4, le 2 1), (6, le 2 64), (8, le 4 128), (12, le 1 1), (15, le 1 1), (64, layout 64 [(0, le 1 6), (1, le 1 3)])]

theorem test_settlement :
    let run := { begun with running := true, result := some (.err St.INFL_FRANKING 0 (some 9)), rereads := 1, firstCrc := some 9 }
    let d0 := atWork run [holding]
    let d : Dev := { d0 with jobs := d0.jobs.map fun (j : Job) => { j with conf := { ({} : JobConf) with route := frankRoute } } }
    let q := fun (computed : Nat) => layout 32 [(0, ascii "STLQ"), (20, le 4 computed)]
    let held := stocked.onStore fun st => { st with objs := [{ anObj with id := 1 }] }
    let home : Dev := { held with datasets := [{ aDataset with digest := zeros 32 }] }
    let waiting := { issued with settling := some 6, firstCrc := some 9 }
    (d.stageAt i0).map (·.franks) = some true ∧ d.entry i0 = some run ∧ run.settled = false ∧
      settleFramed "STLQ" (q 0) = true ∧ settleFramed "STLQ" (zeros 32) = false ∧ (home.settleEntry (q 5)).isSome = true ∧
      normal.settleEntry (q 5) = none ∧ home.settleAlternate aDataset 0 = none ∧
      (home.readObj { anObj with id := 1, franking := 0 }).1.isOk = true ∧ ownPost ≠ 0 ∧
      (reading 0 waiting).settleItems ((reading 0 waiting).settleRequestOf i0 |>.getD []) = [i0] ∧
      (reading 0 waiting).entry i0 = some waiting ∧ normal.settleItems (zeros 32) = [] := by decide +kernel

/-- Device 0 of two, its job waiting at barrier 1; the child is device 1 on connection 0. -/
def barred (x : Barrier) : Job := { aJob with deviceCount := 2, childPeers := [0], peers := [0], barrier := x }

/-- Device 1 of two, its parent on connection 0. -/
def lower (x : Barrier) : Job := { barred x with deviceIndex := 1, parentPeer := 0, childPeers := [] }

/-- A barrier message of a kind, a barrier and a sender. -/
def barr (d : Dev) (j : Job) (kind n from_ : Nat) : Bytes :=
  layout 128 [(0, ascii "BARR"), (4, le 2 1), (6, le 1 kind), (8, fit 16 j.postmark), (24, le 4 d.semantics), (32, le 4 n), (36, le 4 from_)]

theorem test_barrier_messages :
    let box : Barrier := { number := 1, opened := true }
    let j := barred box
    let d : Dev := { linked with jobs := [j] }
    let m := barr d j 1 1 1
    let down := lower { box with sentAt := some 0 }
    let e : Dev := { linked with jobs := [down] }
    barrierFramed m = true ∧ barrierFramed (zeros 128) = false ∧ d.jobOfChild 0 m = some j ∧ d.job j.handle = some j ∧
      d.arriveFault j (untimed m) = none ∧ d.arriveFault j (untimed (barr d j 1 3 1)) = some St.SYN_CURSOR_MISMATCH ∧
      fld m 32 4 ≠ j.barrier.number + 1 ∧ j.barrier.arrivals = [] ∧
      barrierFramed (barr e down 2 1 0) = true ∧ fld (barr e down 2 1 0) 6 1 = 2 ∧ e.jobOfParent 0 (barr e down 2 1 0) = some down ∧
      fld (barr e down 2 4 0) 32 4 ≠ down.barrier.number ∧ fld (barr e down 3 1 0) 6 1 = 3 ∧ e.jobOfParent 0 (barr e down 3 1 0) = some down := by
  decide +kernel

theorem test_barriers_end :
    let d := fun (x : Barrier) => ({ normal with jobs := [barred x], clk := { normal.clk with tickStart := 9 } } : Dev)
    let r : Rank := { aRank with arrived := true }
    let full := { lower { number := 1, opened := true } with ranks := [r] }
    (d { release := some 9 }).job 0 = some (barred { release := some 9 }) ∧ (9 : Nat) ≤ (d {}).clk.tickStart ∧
      ({ release := some 9 } : Barrier).number = 0 ∧ ({ number := 2, release := some 9 } : Barrier).number ≠ 0 ∧
      full.boxFull = true ∧ full.barrier.sentAt = none ∧ full.deviceIndex ≠ 0 ∧ (barred {}).boxFull = false ∧
      sumsMatch 3 { count := 3, sumR := 3, sumR2 := 5, sealed_ := 0 } = true := by decide +kernel

/-! ### Scratch, faults, integrity -/

/-- A device in which word 2 of the core is full. -/
def wordy : Dev := normal.onCore c0 fun x => x.setWord 2 7 true

theorem test_scratch_open :
    let w : Watch := { addr := 2, awaitFull := true, waiter := .txe, tag := 0, access := .explicit }
    let d := wordy.onCore c0 fun x => { x with slotless := [w] }
    wordy.coreRuns c0 = true ∧ wordy.isFenced (wordy.engineUnit c0 (issuerSlot .txe)) = false ∧ ((wordy.core c0).word 2).full = true ∧
      ((wordy.core c0).word 3).full = false ∧ (wordy.die 0).scb.planted = [] ∧ (wordy.core c0).precedent 2 = none ∧ wordy.core c0 ≠ {} ∧
      (d.core c0).slotless.find? (fun w => w.waiter == .txe) = some w ∧ (d.core c0).slotsUsed < 256 := by decide +kernel

/-- LOAD_TAKE of a full word returns it and empties it (R376). -/
theorem test_take : (match exec (.loadTake c0 .txe 2) (at_ wordy) with
    | .next t => ((t.dev.core c0).loaded, ((t.dev.core c0).word 2).full, ((t.dev.core c0).word 2).value)
    | _ => ([], true, 0)) = ([(.txe, 7)], false, 7) := by decide +kernel

/-- A fault record of a severity. -/
def aFault (v : Nat) (u : UnitRef) : FaultRec := {
  seq := 1, time := 0, status := St.FLT_WATCHDOG, severity := v, first := true, injected := false, fixed := false, kind := u.kind,
  logical := 0, physical := physicalField u, detail := 0 }

theorem test_faults :
    let u : UnitRef := { kind := 1, die := 1, cluster := 2, core := 3, slot := 0 }
    let core : UnitRef := { kind := 2, die := 1, cluster := 2, core := 3 }
    let clu : UnitRef := { kind := 4, die := 1, cluster := 2 }
    let d := fun (v : Nat) (u : UnitRef) => normal.onFc 1 fun c => { c with todo := [aFault v u] }
    (6 ≤ normal.seqs.step ∧ kindDefined 1 = true ∧ kindDefined 0x55 = false ∧ Sound (at_ normal)) ∧
      ((d 5 u).fc 1).todo.length = 1 ∧ (d 5 u).coreNumber u ≠ 0xF ∧ ((((d 5 u).cluster 1 2).cores.getD 3 {}).spareFree 7) = true ∧
      (d 5 core).coreNumber core ≠ 0xF ∧ ((d 5 core).cluster 1 2).spareUsed = false ∧ (d 5 clu).clusterNumber clu ≠ 0xF ∧
      ((d 5 clu).die 1).spareCluster = false ∧ (normal.fc 1).repairs = [] ∧ (normal.fc 1).todo = [] ∧ normal.dieUp 1 = true ∧
      (aFault 5 u).who = u ∧ (aFault 5 core).who = core ∧ normal.seqs.pkgSafe = false := by
  unfold Sound; decide +kernel

theorem test_spare_entry :
    let u : UnitRef := { kind := 1, die := 1, cluster := 2, core := 3, slot := 0 }
    let r : Repair := { who := u, number := 0, due := 50000, at_ := 0 }
    let d := normal.onFc 1 fun c => { c with repairs := [r] }
    (d.fc 1).repairs = [r] ∧ d.clk.tickStart < r.due ∧ d.dieUp 1 = true ∧ r.who.kind ≠ 0x0D ∧
      r.due ≤ ({ d with clk := { d.clk with tickStart := 60000 } } : Dev).clk.tickStart := by decide +kernel

theorem test_severities : normal.severityApplied St.FLT_WATCHDOG { kind := 1, die := 3, cluster := 0, core := 0, slot := 0 } = 5 ∧
    normal.severityApplied St.FLT_LEASE_BROKEN { kind := 0x0D, die := 3 } ≤ 7 := by decide +kernel

theorem test_margins :
    let fatal := { normal with seqs := { normal.seqs with fatalAt := some 1 } }
    let slow := { normal with pwr := { normal.pwr with sortMhz := 800 } }
    normal.measurable 7 3 = true ∧ normal.measurable 8 3 = false ∧ (normal.die 7).margins = [] ∧ marginBeyond 3 3999 0 = (false, false) ∧
      marginBeyond 3 4000 0 = (true, false) ∧ marginBeyond 3 8000 0 = (true, true) ∧ slow.pwr.unmetReported = false ∧
      fatal.seqs.dumpAt = none ∧ fatal.seqs.powerFailAt = none ∧ fatal.nor.newerDump ≠ some 0 ∧
      ({ fatal.nor with dump0 := some [], dumpSeq := 2 } : Nor).newerDump = some 0 := by decide +kernel

theorem test_scrubbing :
    let d := normal.onScb 7 fun b => { b with toRepair := [(1, 4)] }
    let worn := d.onScb 7 fun b => { b with repaired := List.replicate 16 (1, 0) }
    normal.memoryOn 7 true 31 = true ∧ normal.memoryOn 7 false 1 = true ∧ (normal.die 7).scb.dramEn = true ∧
      (normal.die 7).scb.laps = [] ∧ (normal.die 7).scb.planted = [] ∧ (1, 4) ∈ (d.die 7).scb.toRepair ∧
      ((d.die 7).scb.repaired.filter fun x => x.1 == 1).length < 16 ∧ 16 ≤ ((worn.die 7).scb.repaired.filter fun x => x.1 == 1).length ∧
      (({} : Scb).noteRow 1 4 0 1).suspect = [(1, 4, 0)] ∧ ((({} : Scb).noteRow 1 4 0 1).noteRow 1 4 1 1).toRepair = [(1, 4)] := by
  decide +kernel

/-- A franking list of one entry of 4 bytes at DRAM address 64, LAST set. -/
def aList : Mem := { ({} : Mem) with dram := cellsPut [] 0 (le 8 64 ++ le 4 4 ++ le 4 1) }

theorem test_franking_list :
    let d := normal.onFrk 7 17 fun f => { f with work := some (0, none) }
    let safe := d.onDie 0 fun x => { x with safe := true }
    d.uncOpen 7 = true ∧ (d.frk 7 17).work = some (0, none) ∧ d.listFranked aList 7 8 4 0 = .bytes (zeros 4) ∧
      d.listFranked {} 7 8 4 0 = .badEntry ∧ safe.listFranked aList 7 8 4 0 = .poison ∧
      d.listFranked {} 7 8 4 dramSpace = .outside dramSpace := by decide +kernel

/-! ### The whole block -/

theorem test_pigeonhole_checks :
    let f := frame devIdentifyOp.opcode 1 []
    let busy := normal.onHole 5 fun h => { h with busy := true }
    (Instr.devIdentify 5 f, devIdentifyOp) ∈ pghRows 5 f ∧ fld f 6 2 = devIdentifyOp.opcode ∧ normal.holeReachable 5 = true ∧
      normal.holeReachable 128 = false ∧ (busy.hole 5).busy = true ∧ (normal.hole 5).busy = false ∧ (normal.hole 5).lastSeq = 0 ∧
      fld (normal.requestAt 5 f) 12 4 = devIdentifyOp.size ∧ fld (normal.requestAt 5 f) 8 4 = 1 ∧ normal.pgh.length = 128 := by
  refine ⟨?_, ?_, ?_, ?_, ?_, ?_, ?_, ?_, ?_, ?_⟩
  · simp [pghRows]
  all_goals decide +kernel

theorem test_shaped : normal.Shaped := by unfold Dev.Shaped; decide +kernel

/-- An identifying request is answered: SUCCESS, LAST_SEQ 1 (R576, R581). -/
theorem test_identify : (match step { at_ normal with pending := [.devIdentify 5 (frame devIdentifyOp.opcode 1 [])] } with
    | .next t => (t.pending.length, (t.dev.hole 5).lastSeq, (t.dev.hole 5).done, fld (t.dev.hole 5).response 16 2)
    | _ => (1, 0, false, 1)) = (0, 1, true, 0) := by decide +kernel

/-! ### Ill-formed commands are refused, one for each check -/

/-- A core outside the logical map. -/
def badCore : CoreRef := { die := 0, cluster := 8, core := 0 }

/-- An item of no rank. -/
def badItem : ItemRef := { job := 0, rank := 4194304, q := 0, epoch := 0 }

theorem test_ill_formed :
    (Instr.dieReset 8).wf = false ∧ (Instr.portReset 4).wf = false ∧ (Instr.ptpLockLoss 16).wf = false ∧
      (Instr.devIdentify 128 []).wf = false ∧ (Instr.devIdentify 0 (zeros 4097)).wf = false ∧
      (Instr.registerWrite 0 0 3 0).wf = false ∧ (Instr.registerWrite 0 (2 ^ 28) 4 0).wf = false ∧
      (Instr.doorbellWrite 0 (2 ^ 39) 8 0).wf = false ∧ (Instr.kick 4 0 0 false).wf = false ∧ (Instr.kick 4 0 0 true).wf = true ∧
      (Instr.itemStart badCore).wf = false ∧ (Instr.fetchDeadline badItem).wf = false ∧
      (Instr.ackReceived { (default : RoceHdr) with psn := 2 ^ 24 }).wf = false ∧
      (Instr.faultReport 0 { kind := 0x13, die := 0 } 0 false).wf = false ∧ (Instr.patrolRead 0 { step := 6 }).wf = false ∧
      (Instr.get 4096 0).wf = false ∧ (Instr.get 0 32).wf = false ∧ (Instr.cnpReceived (2 ^ 24)).wf = false ∧
      (Instr.attentionButton 16).wf = false ∧ (Instr.frkStart 0 0 18 0 true).wf = false ∧ (Instr.pauseExpiry 0 8).wf = false ∧
      (Instr.brownout 9).wf = false ∧ (Instr.sclLowTimeout 0 4 0 false false).wf = false ∧
      (Instr.pauseFrame 0 0 65536).wf = false ∧ (Instr.settleReply (2 ^ 24) []).wf = false := by decide +kernel

theorem test_well_formed : (Instr.dieReset 7).wf = true ∧ (Instr.get 4095 31).wf = true ∧ (Instr.itemStart c0).wf = true := by decide +kernel

/-! ### Positions and effects -/

theorem test_permutation_witness : 1 ≤ (5 : Nat) ∧ (5 : Nat) ≤ 2 ^ 48 ∧ (List.range 5).map (fun q => permute q 0 1 5) ≠ [] ∧
    ((List.range 5).all fun i => (List.range 5).any fun q => permute q 0 1 5 == i) = true ∧ batches 5 2 2 * 2 * 2 = 4 := by
  decide +kernel

theorem test_empty_shard :
    let b := zeros 12 ++ le 1 0 ++ le 1 64 ++ le 2 1 ++ zeros 8 ++ le 4 2 ++ le 4 1 ++ le 4 1 ++ zeros 4 ++ le 4 64 ++ le 4 64
    let d := shelved.rung 0 (frame jobCreateOp.opcode 1 (fit jobCreateOp.size b))
    d.createRefusal (fit 160 b) aDataset = some St.SRT_SHARD_EMPTY := by decide +kernel

/-- The check value of CRC-32C over "123456789". -/
theorem test_crc : crc32c (ascii "123456789") = 0xE3069283 := by decide +kernel

/-- SHA-256 of the empty string begins E3B0C442. -/
theorem test_sha256 : (sha256 []).take 4 = [0xE3#8, 0xB0#8, 0xC4#8, 0x42#8] := by decide +kernel

/-- A stored DEFLATE block of one byte. -/
theorem test_inflate : (match decodeBy 1 { bound := 100 } none [0x01#8, 0x01#8, 0x00#8, 0xFE#8, 0xFF#8, 0x61#8] with
    | .ok b => b
    | .error _ => []) = ascii "a" := by decide +kernel

/-- With nothing pending one nanosecond passes (log entry 2). -/
theorem test_idle : (match step (at_ normal) with
    | .next t => t.dev.clk.now
    | _ => 0) = 1 := by decide +kernel

/-- No word of the table spells a command: its rows have no bits. -/
theorem test_no_words : decodeTableWord 16 0 = none ∧ ((at_ normal).withFetchWord 16 0).pending = [] := by decide +kernel

end Sys2Proof.Machine.Tests
end

section
/-! PROOFS. One step of the machine: what it runs, what it keeps, and which commands always answer. -/

namespace Sys2Proof.Machine

open Sys2Proof

/-! ### What a step runs -/

theorem step_of_pending_nil {s : State} (h : s.pending = []) : step s = .next s.idle := by
  simp only [step, h]

theorem step_of_pending_cons {s : State} {c : Instr} {rest : List Instr} (h : s.pending = c :: rest) :
    step s = exec c { s with pending := rest } := by
  simp only [step, h]

/-! ### What a step keeps -/

theorem Sound.idle {s : State} (h : Sound s) : Sound s.idle := h

/-- Every meaning ends in State.put, which applies the pending writes: the result is sound whatever the device put. -/
theorem Sound.put {s : State} (h : Sound s) (d : Dev) : Sound (s.put d) := ⟨put_memWf d h.left, put_dma s d⟩

theorem exec_keeps_sound {c : Instr} {s t : State} (hs : Sound s) (h : exec c s = .next t) : Sound t := by
  obtain ⟨d, rfl⟩ := exec_next_put h
  exact hs.put d

theorem exec_keeps_pending {c : Instr} {s t : State} (h : exec c s = .next t) : t.pending = s.pending := by
  obtain ⟨d, rfl⟩ := exec_next_put h
  exact put_pending s d

theorem step_keeps_sound {s t : State} (hs : Sound s) (h : step s = .next t) : Sound t ∧ t.pending = s.pending.tail := by
  cases hp : s.pending with
  | nil =>
    rw [step_of_pending_nil hp] at h
    obtain rfl := Host.Outcome.next.inj h
    exact ⟨hs.idle, hp⟩
  | cons c rest =>
    rw [step_of_pending_cons hp] at h
    exact ⟨exec_keeps_sound (s := { s with pending := rest }) hs h, exec_keeps_pending h⟩

/-! ### Which steps answer a next state -/

/-- Only the meaning of FRANKING_LIST_DONE has a branch that stops; every other command's is a State.put outright. -/
theorem exec_next_of_not_frankingListDone {c : Instr} (s : State) (hc : ∀ die unit poisoned, c ≠ .frankingListDone die unit poisoned) :
    ∃ t, exec c s = .next t := by
  cases c with
  | frankingListDone die unit poisoned => exact absurd rfl (hc die unit poisoned)
  | _ => exact ⟨_, rfl⟩

theorem step_next_of_front {s : State} (h : ∀ die unit poisoned, s.pending.head? ≠ some (.frankingListDone die unit poisoned)) :
    ∃ t, step s = .next t := by
  cases hp : s.pending with
  | nil => exact ⟨s.idle, step_of_pending_nil hp⟩
  | cons c rest =>
    rw [step_of_pending_cons hp]
    refine exec_next_of_not_frankingListDone _ fun die unit poisoned hc => h die unit poisoned ?_
    rw [hp, hc, List.head?_cons]

/-! ### The statements -/

/-- Settles O55, by the two cases of the queue. -/
theorem stepRunsFrontCommand : Obligations.StepRunsFrontCommand :=
  ⟨fun _ _ _ h => step_of_pending_cons h, fun _ h => step_of_pending_nil h⟩

/-- Settles O56: a step idles or ends in State.put, and both keep a sound state sound. -/
theorem stepKeepsSound : Obligations.StepKeepsSound :=
  ⟨fun _ _ hs h => step_keeps_sound hs h, fun _ h => step_next_of_front h⟩

end Sys2Proof.Machine
end

section
/-! PROOFS. The tick (R25 to R31, R125 to R131, R563, R607): what a boundary brings into force, and the device the tick's events leave. -/

namespace Sys2Proof.Machine

open Sys2Proof

/-! ### What a fault report can touch -/

/-- The devices differ at most in the dies, the Ethernet ports, the pins and the sequences. -/
def Dev.ReportedTo (d d' : Dev) : Prop :=
  ∃ dies ports pins seqs, d' = { d with dies := dies, ports := ports, pins := pins, seqs := seqs }

namespace Dev.ReportedTo

theorem refl (d : Dev) : d.ReportedTo d := ⟨_, _, _, _, rfl⟩

theorem trans {a b c : Dev} (h : a.ReportedTo b) (k : b.ReportedTo c) : a.ReportedTo c := by
  obtain ⟨_, _, _, _, rfl⟩ := h
  obtain ⟨_, _, _, _, rfl⟩ := k
  exact ⟨_, _, _, _, rfl⟩

theorem clk {d d' : Dev} (h : d.ReportedTo d') : d'.clk = d.clk := by
  obtain ⟨_, _, _, _, rfl⟩ := h
  rfl

theorem pwr {d d' : Dev} (h : d.ReportedTo d') : d'.pwr = d.pwr := by
  obtain ⟨_, _, _, _, rfl⟩ := h
  rfl

theorem onFc (d : Dev) (i : Nat) (f : Collector → Collector) : d.ReportedTo (d.onFc i f) := ⟨_, _, _, _, rfl⟩

theorem onPort (d : Dev) (p : Nat) (f : EthPort → EthPort) : d.ReportedTo (d.onPort p f) := ⟨_, _, _, _, rfl⟩

theorem drivePins (d : Dev) : d.ReportedTo d.drivePins := by
  unfold Dev.drivePins
  split
  · exact .refl d
  · exact ⟨_, _, _, _, rfl⟩

theorem dieSafe (d : Dev) (i : Nat) (b : Bool) : d.ReportedTo (d.dieSafe i b) :=
  .trans ⟨_, _, _, _, rfl⟩ (.drivePins _)

theorem packageSafe (d : Dev) (st : Status) : d.ReportedTo (d.packageSafe st) :=
  .trans ⟨_, _, _, _, rfl⟩ (.drivePins _)

/-- A step taken only under a condition. -/
theorem ite {d d' : Dev} {c : Prop} [Decidable c] (h : d.ReportedTo d') : d.ReportedTo (if c then d' else d) := by
  split
  · exact h
  · exact .refl d

theorem reportAt (d : Dev) (v : Nat) (st : Status) (u : UnitRef) (detail : BitVec 64) (injected : Bool) :
    d.ReportedTo (d.reportAt v st u detail injected) := by
  unfold Dev.reportAt
  split
  · exact (ReportedTo.onFc d _ _).trans (.drivePins _)
  · exact ((((ReportedTo.onFc d _ _).trans (.ite (.onFc _ _ _))).trans (.ite (.dieSafe _ _ _))).trans
      (.ite (.packageSafe _ _))).trans (.drivePins _)

theorem report (d : Dev) (st : Status) (u : UnitRef) (detail : BitVec 64) (injected : Bool) :
    d.ReportedTo (d.report st u detail injected) := .reportAt d _ _ _ _ _

/-- Steps taken in turn over a list. -/
theorem foldl {α : Type} {f : Dev → α → Dev} (hf : ∀ d x, Dev.ReportedTo d (f d x)) (l : List α) (d : Dev) :
    d.ReportedTo (l.foldl f d) := by
  induction l generalizing d with
  | nil => exact .refl d
  | cons x xs ih => exact (hf d x).trans (ih _)

theorem revertGates (d : Dev) (len : Nat) : d.ReportedTo (d.revertGates len) := by
  refine .foldl (fun d i => ?_) _ d
  dsimp only
  split
  · exact .refl d
  · exact (ReportedTo.onPort d _ _).trans (.report _ _ _ _ _)

end Dev.ReportedTo

/-! ### TICK_CHANGE (R29) -/

theorem exec_tickChange (s : State) : exec .tickChange s = .next (s.put s.dev.changeTick) := rfl

theorem Dev.changeTick_of_due {d : Dev} {t per ph p1 p2 : Nat} (hp : d.clk.pending = some (t, per, ph, p1, p2)) (ht : t ≤ d.clk.tick) :
    d.changeTick = ({ d with clk := { d.clk with
      period := per, phase := ph, primary := p1, secondary := p2, onSecondary := false, pending := none, master := p1 / 2 } } :
        Dev).revertGates (per * 10) := by
  simp [Dev.changeTick, hp, show ¬d.clk.tick < t by omega]

/-- What a clock change leaves: the tick's number, and all that waits for the next boundary. -/
theorem Dev.changeTick_keeps (d : Dev) :
    d.changeTick.clk.tick = d.clk.tick ∧ d.changeTick.clk.nextCtl = d.clk.nextCtl ∧ d.changeTick.pwr = d.pwr := by
  cases hp : d.clk.pending with
  | none => simp [Dev.changeTick, hp]
  | some x =>
    obtain ⟨t, per, ph, p1, p2⟩ := x
    by_cases ht : d.clk.tick < t
    · simp [Dev.changeTick, hp, ht]
    · rw [d.changeTick_of_due hp (by omega), (Dev.ReportedTo.revertGates _ _).clk, (Dev.ReportedTo.revertGates _ _).pwr]
      exact ⟨rfl, rfl, rfl⟩

/-! ### A new tick of the package (R27, R29, R563, R607) -/

theorem Dev.powerStep_clk (d : Dev) : d.powerStep.clk = d.clk := by
  simp only [Dev.powerStep]
  split
  · split <;> rfl
  · split
    · split <;> rfl
    · rfl

/-- Roist's step of the sort clock leaves the set cap and the cap that waits. -/
theorem Dev.powerStep_caps (d : Dev) : d.powerStep.pwr.nextCap = d.pwr.nextCap ∧ d.powerStep.pwr.setCap = d.pwr.setCap := by
  simp only [Dev.powerStep]
  split
  · split <;> exact ⟨rfl, rfl⟩
  · split
    · split <;> exact ⟨rfl, rfl⟩
    · exact ⟨rfl, rfl⟩

theorem Dev.newTick_tick (d : Dev) : d.newTick.clk.tick = d.clk.tick + 1 := by
  obtain ⟨htick, -, -⟩ := d.changeTick_keeps
  simp only [Dev.newTick, Dev.powerStep_clk, Dev.until, htick]

theorem Dev.newTick_tickStart (d : Dev) : d.newTick.clk.tickStart =
    max (d.changeTick.clk.tickStart + d.changeTick.tickNs) (d.changeTick.tickAt (d.changeTick.clk.tick + 1)) := rfl

theorem Dev.newTick_now (d : Dev) : d.newTick.now = max d.changeTick.now d.newTick.clk.tickStart := by
  rw [Dev.newTick_tickStart]
  simp only [Dev.newTick, Dev.now, Dev.powerStep_clk]
  rfl

/-- Nothing that waited for the boundary waits any more. -/
theorem Dev.newTick_none_waits (d : Dev) : d.newTick.clk.nextCtl = none ∧ d.newTick.pwr.nextCap = none ∧ d.newTick.pwr.nextMhz = none :=
  ⟨rfl, rfl, rfl⟩

theorem Dev.newTick_setCap (d : Dev) : d.newTick.pwr.setCap = d.pwr.nextCap.getD d.pwr.setCap := by
  obtain ⟨-, -, hp⟩ := d.changeTick_keeps
  simp only [Dev.newTick, Dev.powerStep_caps, Dev.until_pwr, hp]

theorem Dev.newTick_ctl {d : Dev} {a b : Bool} (h : d.clk.nextCtl = some (a, b)) :
    d.newTick.clk.tickEn = a ∧ d.newTick.clk.ppsEn = b := by
  obtain ⟨-, hctl, -⟩ := d.changeTick_keeps
  simp only [Dev.newTick, Dev.powerStep_clk, Dev.until, hctl, h, Option.getD_some, and_self]

/-! ### TICK_BOUNDARY of a die (R27, R131) -/

theorem exec_tickBoundary (die : Nat) (s : State) : exec (.tickBoundary die) s = .next (s.put (tickBoundaryEffect die s.mem s.dev)) := rfl

/-- What a die does at its boundary once the package's tick is there: its own tick, its boundary actions, old stamps released. -/
def Dev.dieTicked (d : Dev) (die : Nat) : Dev :=
  let d := ({ d with clk := { d.clk with dieTick := d.clk.dieTick.modify die (· + 1) } } : Dev).dieBoundary die
  d.jobs.foldl (fun (d : Dev) j => d.releaseOlds j.handle) d

theorem tickBoundaryEffect_up {die : Nat} {m : Mem} {d : Dev} (h : d.dieUp die = true) : tickBoundaryEffect die m d =
    (if d.clk.tick ≤ d.clk.dieTick.getD die 0 then d.newTick else d).dieTicked die := by
  rw [tickBoundaryEffect, if_neg (by rw [h]; exact nofun)]
  rfl

/-! ### FORMATION_POINT and SPILL_DEADLINE (R125 to R127, R130) -/

theorem exec_formationPoint (die : Nat) (s : State) :
    exec (.formationPoint die) s = .next (s.put (formationPointEffect die s.mem s.dev)) := rfl

theorem exec_spillDeadline (die : Nat) (s : State) :
    exec (.spillDeadline die) s = .next (s.put (spillDeadlineEffect die s.mem s.dev)) := rfl

@[simp] theorem Dev.onCore_length (d : Dev) (c : CoreRef) (f : Core → Core) : (d.onCore c f).dies.length = d.dies.length := by
  unfold Dev.onCore
  split
  · exact Dev.onDie_length d _ _
  · rfl

@[simp] theorem Dev.takeOn_length (d : Dev) (i : ItemRef) (c : CoreRef) (est : List Nat) :
    (d.takeOn i c est).dies.length = d.dies.length := by
  unfold Dev.takeOn
  split
  · exact Dev.onCore_length d c _
  · rfl

@[simp] theorem Dev.spillOne_length (d : Dev) (die : Nat) (i : ItemRef) : (d.spillOne die i).dies.length = d.dies.length := by
  unfold Dev.spillOne
  split
  · rfl
  · dsimp only
    split
    · exact Dev.takeOn_length d i _ _
    · rfl

theorem Dev.foldl_spillOne_length (die : Nat) (l : List ItemRef) (d : Dev) :
    (l.foldl (fun (d : Dev) i => d.spillOne die i) d).dies.length = d.dies.length := by
  induction l generalizing d with
  | nil => rfl
  | cons i is ih => rw [List.foldl_cons, ih, Dev.spillOne_length]

/-- The die a deadline leaves: its offers closed, its formation noted. -/
theorem spillDeadlineEffect_die {die : Nat} {m : Mem} {d : Dev} (hu : d.dieUp die = true)
    (hl : (d.die die).lastSpill < (d.die die).lastFormation) (hd : die < d.dies.length) :
    ((spillDeadlineEffect die m d).die die).spill = [] ∧
      ((spillDeadlineEffect die m d).die die).lastSpill = (d.die die).lastFormation := by
  have hgo : ¬(d.dieUp die = false ∨ (d.die die).lastFormation ≤ (d.die die).lastSpill) := by
    rw [hu, not_or]
    exact ⟨nofun, by omega⟩
  simp only [spillDeadlineEffect, hgo, if_false]
  rw [Dev.onDie_die_self _ _ _ (by rw [Dev.foldl_spillOne_length]; exact hd)]
  exact ⟨rfl, rfl⟩

/-! ### The statement -/

/-- Settles O13: each event by the equation of its effect, the new tick by the fields it sets. -/
theorem tickEvents : Obligations.TickEvents := by
  unfold Obligations.TickEvents
  refine ⟨fun die s hu => ⟨fun ht => ?_, fun ht => ?_⟩, fun d => ?_, fun t per ph p1 p2 s hp ht => ?_, fun die s hu hf => ?_,
    fun die s hu hl hd => ?_⟩
  · rw [exec_tickBoundary, tickBoundaryEffect_up hu, if_pos ht]
    rfl
  · rw [exec_tickBoundary, tickBoundaryEffect_up hu, if_neg (by omega)]
    rfl
  · obtain ⟨hctl, hcap, hmhz⟩ := d.newTick_none_waits
    refine ⟨d.newTick_tick, ?_, ?_, hctl, hcap, hmhz, fun w hw => ?_, fun a b h => d.newTick_ctl h⟩
    · rw [Dev.newTick_tickStart]
      exact Nat.le_max_left _ _
    · rw [Dev.newTick_now]
      exact Nat.le_max_right _ _
    · rw [Dev.newTick_setCap, hw, Option.getD_some]
  · rw [exec_tickChange, Dev.changeTick_of_due hp ht]
  · have hgo : ¬(s.dev.dieUp die = false ∨ s.dev.clk.dieTick.getD die 0 + 1 ≤ (s.dev.die die).lastFormation) := by
      rw [hu, not_or]
      exact ⟨nofun, by omega⟩
    rw [exec_formationPoint, formationPointEffect, if_neg hgo]
    rfl
  · exact ⟨_, exec_spillDeadline die s, spillDeadlineEffect_die hu hl hd⟩

end Sys2Proof.Machine
end

section
/-! PROOFS. Faults taken in SEQ order, and the spares that come in (R34 to R37, R512, R529, R531, Table 1.5). -/

namespace Sys2Proof.Machine

open Sys2Proof

/-! ### The next record of a die -/

theorem exec_faultHandling (die : Nat) (s : State) :
    exec (.faultHandling die) s = .next (s.put (faultHandlingEffect die s.mem s.dev)) := rfl

section NextRecord

variable {die : Nat} {m : Mem} {d : Dev} {r : FaultRec} {rest : List FaultRec}

theorem faultHandlingEffect_nil (ht : (d.fc die).todo = []) : faultHandlingEffect die m d = d := by
  simp [faultHandlingEffect, ht]

theorem faultHandlingEffect_waits (ht : (d.fc die).todo = r :: rest) (hr : (d.fc die).repairs ≠ []) (hs : r.severity < 6) :
    faultHandlingEffect die m d = d := by
  simp [faultHandlingEffect, ht, hr, hs]

theorem faultHandlingEffect_takes (hd : die < 8) (hp : d.seqs.pkgSafe = false) (ht : (d.fc die).todo = r :: rest)
    (hr : (d.fc die).repairs = [] ∨ r.severity = 6) :
    faultHandlingEffect die m d = (d.onFc die fun c => { c with todo := rest }).handleFault r := by
  have hrun : ¬(8 ≤ die ∨ d.seqs.pkgSafe = true) := by
    rw [hp, not_or]
    exact ⟨by omega, nofun⟩
  have hgo : ¬((d.fc die).repairs ≠ [] ∧ r.severity < 6) := by
    rintro ⟨hne, hlt⟩
    exact hr.elim hne (by omega)
  simp only [faultHandlingEffect, hrun, ht, if_false, hgo]

end NextRecord

/-! ### What one record does -/

section OneRecord

variable {d : Dev} {r : FaultRec}

theorem handleFault_die (h : r.severity = 6) : d.handleFault r = d.dieLost r.who.die r := by
  simp only [Dev.handleFault, h, if_true]

theorem handleFault_below_item (hu : d.dieUp r.who.die = true) (hk : r.kind ≠ 0x0A) (h : r.severity < 4) : d.handleFault r = d := by
  have hk' : r.who.kind ≠ 0x0A := hk
  simp [Dev.handleFault, hu, hk', show r.severity ≠ 6 by omega, show ¬4 ≤ r.severity by omega, show r.severity ≠ 4 by omega,
    show r.severity ≠ 5 by omega]

theorem handleFault_item (hu : d.dieUp r.who.die = true) (hk : r.kind ≠ 0x0A) (hd : r.kind ≠ 5) (h : r.severity = 4) :
    d.handleFault r = (d.itemsOn r.who).foldl (fun (d : Dev) i => d.restartFor r i) d := by
  have hk' : r.who.kind ≠ 0x0A := hk
  have hd' : r.who.kind ≠ 5 := hd
  simp [Dev.handleFault, hu, hk', hd', h]

/-- An injected fault at UNIT: the items restart, and the unit is mapped again (R512). -/
theorem handleFault_unit_injected (hu : d.dieUp r.who.die = true) (hk : r.kind ≠ 0x0A) (hd : r.kind ≠ 5) (h : r.severity = 5)
    (hi : r.injected = true) :
    d.handleFault r = ((d.itemsOn r.who).foldl (fun (d : Dev) i => d.restartFor r i) d).onFc r.who.die fun c =>
      { c with fenced := c.fenced.erase r.who } := by
  have hk' : r.who.kind ≠ 0x0A := hk
  have hd' : r.who.kind ≠ 5 := hd
  simp [Dev.handleFault, hu, hk', hd', h, hi]

/-- A fault at UNIT that was not injected: its plan is carried out. -/
theorem handleFault_unit_plan {p : Plan} (hu : d.dieUp r.who.die = true) (hk : r.kind ≠ 0x0A) (hd : r.kind ≠ 5) (h : r.severity = 5)
    (hi : r.injected = false) (hp : d.planFor r.who = some p) : d.handleFault r = d.carryOut p r := by
  have hk' : r.who.kind ≠ 0x0A := hk
  have hd' : r.who.kind ≠ 5 := hd
  simp [Dev.handleFault, hu, hk', hd', h, hi, hp]

end OneRecord

/-! ### Which spare stands in (Table 1.5) -/

section Plans

variable {d : Dev} {u : UnitRef}

/-- A CDE or VTE whose spare slot is free gives way to it. -/
theorem planFor_engine (hk : u.kind = 1) (hs : u.slot ≤ 3) (hn : d.coreNumber u ≠ 0xF)
    (hd : u.slot ∉ ((d.cluster u.die u.cluster).cores.getD u.core {}).deadEngines)
    (hf : ((d.cluster u.die u.cluster).cores.getD u.core {}).spareFree (if u.slot ≤ 1 then 7 else 8) = true) :
    d.planFor u = some { who := u, number := u.slot, wait := 50000 } := by
  by_cases h1 : u.slot ≤ 1
  · rw [if_pos h1] at hf
    simp [Dev.planFor, hk, hn, hd, h1, hf, -List.getD_eq_getElem?_getD]
  · rw [if_neg h1] at hf
    have h23 : u.slot = 2 ∨ u.slot = 3 := by omega
    simp [Dev.planFor, hk, hn, hd, h1, h23, hf, -List.getD_eq_getElem?_getD]

/-- A core, its scratch or its sequencer gives way to the spare core. -/
theorem planFor_core (hk : u.kind = 2 ∨ u.kind = 3) (hn : d.coreNumber u ≠ 0xF) (hf : (d.cluster u.die u.cluster).spareUsed = false) :
    d.planFor u = some { who := coreOfUnit u, number := d.coreNumber u, wait := 2000000 } := by
  have hk1 : u.kind ≠ 1 := by omega
  simp [Dev.planFor, Dev.corePlan, hk, hk1, hn, hf]

/-- A cluster gives way to the spare cluster. -/
theorem planFor_cluster (hk : u.kind = 4) (hn : d.clusterNumber u ≠ 0xF) (hf : (d.die u.die).spareCluster = false) :
    d.planFor u = some { who := clusterOfUnit u, number := d.clusterNumber u, wait := 40000000 } := by
  simp [Dev.planFor, Dev.clusterPlan, hk, hn, hf]

end Plans

/-! ### A spare enters service -/

theorem exec_spareEntry (die : Nat) (s : State) :
    exec (.spareEntry die) s = .next (s.put (spareEntryEffect die s.mem s.dev)) := rfl

section SpareEntry

variable {die : Nat} {m : Mem} {d : Dev} {r : Repair} {rest : List Repair}

theorem spareEntryEffect_nil (hr : (d.fc die).repairs = []) : spareEntryEffect die m d = d := by
  simp [spareEntryEffect, hr]

theorem spareEntryEffect_early (hr : (d.fc die).repairs = r :: rest) (hk : r.who.kind ≠ 0x0D) (ht : d.clk.tickStart < r.due) :
    spareEntryEffect die m d = d := by
  simp [spareEntryEffect, hr, hk, ht]

theorem spareEntryEffect_due (hu : d.dieUp die = true) (hr : (d.fc die).repairs = r :: rest) (hk : r.who.kind ≠ 0x0D)
    (ht : r.due ≤ d.clk.tickStart) :
    spareEntryEffect die m d = ((d.onFc die fun c => { c with repairs := rest }).bringIn r).recordRetired r.who r.at_ true := by
  simp [spareEntryEffect, hu, hr, hk, show ¬d.clk.tickStart < r.due by omega]

theorem bringIn_engine (h : r.who.kind = 1) : d.bringIn r = d.onCluster r.who.die r.who.cluster fun x => { x with
    cores := x.cores.modify r.who.core fun c => { c with
      spareEngines := c.spareEngines ++ [(if r.who.slot ≤ 1 then 7 else 8, r.number)]
      deadEngines := c.deadEngines.erase r.number } } := by
  simp only [Dev.bringIn, h, if_true]

theorem bringIn_core (h : r.who.kind = 2) :
    d.bringIn r = d.onCluster r.who.die r.who.cluster fun x => { x with map := x.map.set r.number 8, spareUsed := true } := by
  simp [Dev.bringIn, h]

theorem bringIn_cluster (h : r.who.kind = 4) :
    d.bringIn r =
      (d.onDie r.who.die fun x => { x with map := x.map.set r.number 8, spareCluster := true }).setDomain r.who.die 10 true := by
  simp [Dev.bringIn, h]

end SpareEntry

/-! ### The statement -/

/-- Settles O52: the record taken by its severity, the plan by the unit's kind, and the spare by the repair's kind. -/
theorem faultHandlingAndSpares : Obligations.FaultHandlingAndSpares := by
  unfold Obligations.FaultHandlingAndSpares
  refine ⟨fun die s hd hp => ⟨fun ht => ?_, fun r rest ht => ⟨fun hr hs => ?_, fun hs => ?_, fun hr hu hk => ?_⟩⟩,
    fun die s hu => ⟨fun hr => ?_, fun r rest hr => ⟨fun hk ht => ?_, fun hk ht => ?_, fun hk ht => ?_, fun hk ht => ?_⟩⟩⟩
  · rw [exec_faultHandling, faultHandlingEffect_nil ht]
  · rw [exec_faultHandling, faultHandlingEffect_waits ht hr hs]
  · rw [exec_faultHandling, faultHandlingEffect_takes hd hp ht (.inr hs), handleFault_die hs]
  · rw [exec_faultHandling, faultHandlingEffect_takes hd hp ht (.inl hr)]
    refine ⟨fun hs => ?_, fun hs h5 => ?_, fun hs h5 hi => ?_, fun hs hi => ⟨fun hk1 hslot hn hdead hf => ?_, fun hkc hn hf => ?_,
      fun hk4 hn hf => ?_⟩⟩
    · rw [handleFault_below_item hu hk hs]
    · rw [handleFault_item hu hk h5 hs]
      rfl
    · rw [handleFault_unit_injected hu hk h5 hs hi]
      simp only [Dev.restartFor, hi]
    · rw [handleFault_unit_plan hu hk (by omega) hs hi (planFor_engine hk1 hslot hn hdead hf)]
    · rw [handleFault_unit_plan hu hk (by omega) hs hi (planFor_core hkc hn hf)]
    · rw [handleFault_unit_plan hu hk (by omega) hs hi (planFor_cluster hk4 hn hf)]
  · rw [exec_spareEntry, spareEntryEffect_nil hr]
  · rw [exec_spareEntry, spareEntryEffect_early hr hk ht]
  · rw [exec_spareEntry, spareEntryEffect_due hu hr (by omega) ht, bringIn_engine hk]
  · rw [exec_spareEntry, spareEntryEffect_due hu hr (by omega) ht, bringIn_core hk]
  · rw [exec_spareEntry, spareEntryEffect_due hu hr (by omega) ht, bringIn_cluster hk]

end Sys2Proof.Machine
end

section
/-! PROOFS. The service button (R62, R557, R573), and the lock of the PTP ports and 1PPS_IN (R30, R31, R620). -/

namespace Sys2Proof.Machine

open Sys2Proof

/-! ### The service button (R62, R557) -/

theorem exec_serviceButtonPress (s : State) :
    exec .serviceButtonPress s = .next (s.put (serviceButtonPressEffect s.mem s.dev)) := rfl

theorem exec_serviceButtonRelease (s : State) :
    exec .serviceButtonRelease s = .next (s.put (serviceButtonReleaseEffect s.mem s.dev)) := rfl

theorem exec_serviceButtonHold (s : State) :
    exec .serviceButtonHold s = .next (s.put (serviceButtonHoldEffect s.mem s.dev)) := rfl

section Button

variable {m : Mem} {d : Dev} {t : Nat}

theorem serviceButtonPressEffect_first (hp : d.seqs.powerFailAt = none) (hs : d.seqs.svcPressedAt = none) :
    serviceButtonPressEffect m d = { d with seqs := { d.seqs with svcPressedAt := some d.now } } := by
  simp [serviceButtonPressEffect, hp, hs]

/-- A short press in normal service: the timing ends, and the RUNNING jobs are sealed one after another. -/
theorem serviceButtonReleaseEffect_short (hs : d.seqs.svcPressedAt = some t) (hn : d.start = .normal) (ht : d.now < t + 5 * second) :
    serviceButtonReleaseEffect m d = (d.jobs.filter fun j => j.state == .running).foldl Dev.sealByButton
      { d with seqs := { d.seqs with svcPressedAt := none } } := by
  have hgo : ¬(d.start ≠ .normal ∨ t + 5 * second ≤ d.now) := by
    rw [hn, not_or]
    exact ⟨fun h => h rfl, by omega⟩
  simp only [serviceButtonReleaseEffect, hs]
  exact if_neg hgo

theorem serviceButtonHoldEffect_pressed (hs : d.seqs.svcPressedAt = some t) :
    serviceButtonHoldEffect m d =
      { d.until (t + 5 * second) with
        bkp := { (d.until (t + 5 * second)).bkp with recoveryReq := true }
        seqs := { (d.until (t + 5 * second)).seqs with
          svcPressedAt := none, softDue := some (3, (d.until (t + 5 * second)).now) } } := by
  simp only [serviceButtonHoldEffect, hs]

theorem filter_running_eq_nil {l : List Job} (h : ∀ j ∈ l, j.state ≠ .running) : (l.filter fun j => j.state == .running) = [] :=
  List.filter_eq_nil_iff.2 fun j hj => by simpa using h j hj

end Button

/-! ### PTP lock and 1PPS_IN (R30, R31, R620) -/

theorem exec_ptpLockLoss (port : Nat) (s : State) : exec (.ptpLockLoss port) s = .next (s.put (ptpLockLossEffect port s.mem s.dev)) := rfl

theorem exec_ptpLockGain (port : Nat) (s : State) : exec (.ptpLockGain port) s = .next (s.put (ptpLockGainEffect port s.mem s.dev)) := rfl

theorem exec_ppsInEdge (s : State) : exec .ppsInEdge s = .next (s.put (ppsInEdgeEffect s.mem s.dev)) := rfl

/-- Which port is in use does not depend on the locks. -/
@[simp] theorem Clk.portInUse_locked (k : Clk) (l : List Bool) : ({ k with locked := l } : Clk).portInUse = k.portInUse := rfl

section Lock

variable {m : Mem} {d : Dev} {port : Nat}

/-- The port in use loses its lock and the other one has it: a switch is due at the next boundary. -/
theorem ptpLockLossEffect_switches (hu : port = d.clk.portInUse) (hl : d.clk.locked.getD port false = true)
    (ho : ({ d.clk with locked := d.clk.locked.set port false } : Clk).otherLocked = true) :
    ptpLockLossEffect port m d =
      { d with clk := { d.clk with locked := d.clk.locked.set port false, switchDue := true } } := by
  have hgo : ¬(d.clk.locked.getD port false = false ∨ port ≠ d.clk.portInUse) := by
    rw [hl, not_or]
    exact ⟨nofun, fun h => h hu⟩
  simp only [ptpLockLossEffect, Clk.portInUse_locked, hgo, if_false, ho, if_true]

theorem ptpLockGainEffect_inUse (hp : port < 16) (he : d.ethUp port = true) (hu : port = d.clk.portInUse) :
    ptpLockGainEffect port m d = { d with
      clk := { d.clk with locked := d.clk.locked.set port true, holdover := false, switchDue := false }
      pins := { d.pins with ppsOut := true }
      bkp := { d.bkp with clockValid := true } } := by
  have hgo : ¬(16 ≤ port ∨ d.ethUp port = false) := by
    rw [he, not_or]
    exact ⟨by omega, nofun⟩
  rw [ptpLockGainEffect, if_neg hgo]
  exact if_pos hu

theorem ppsInEdgeEffect_marks (h : 3 ≤ d.seqs.step) :
    ppsInEdgeEffect m d = { d with pins := { d.pins with ppsInAt := d.now / 8 * 8 } } :=
  if_neg (by omega)

end Lock

/-! ### The statement -/

/-- Settles O12: each event by the equation of its effect under the clause's conditions. -/
theorem buttonAndClockEvents : Obligations.ButtonAndClockEvents := by
  unfold Obligations.ButtonAndClockEvents
  refine ⟨fun s hp hs => ?_, fun t s hs hn ht => ⟨fun j hj => ?_, fun hj => ?_⟩, fun t s hs => ?_, fun port s hu hl ho => ?_,
    fun port s hp he hu => ?_, fun s h => ?_⟩
  · rw [exec_serviceButtonPress, serviceButtonPressEffect_first hp hs]
  · rw [exec_serviceButtonRelease, serviceButtonReleaseEffect_short hs hn ht, hj]
    rfl
  · rw [exec_serviceButtonRelease, serviceButtonReleaseEffect_short hs hn ht, filter_running_eq_nil hj]
    rfl
  · rw [exec_serviceButtonHold, serviceButtonHoldEffect_pressed hs]
    rfl
  · rw [exec_ptpLockLoss, ptpLockLossEffect_switches hu hl ho]
  · rw [exec_ptpLockGain, ptpLockGainEffect_inUse hp he hu]
  · rw [exec_ppsInEdge, ppsInEdgeEffect_marks h]

end Sys2Proof.Machine
end

section
/-! PROOFS. What pigeonhole commands share (R576, R579): an accepted frame's run, the bytes of a host buffer, an answer through one. -/

namespace Sys2Proof.Machine

open Sys2Proof

/-! ### An accepted frame -/

/-- An accepted frame leaves what its command's own work makes of the device. -/
theorem exec_accepted {op : PghOp} {c : Instr} {p : Nat} {frame : Bytes} {s : State} {d : Dev}
    (hc : exec c s = .next (s.put (op.ring p frame s.mem s.dev))) (h : op.Accepts p frame s.dev)
    (hrun : op.run p (op.bodyOf p frame s.dev) s.mem (s.dev.rung p frame) = d) : exec c s = .next (s.put d) := by
  rw [hc, ring_accepted h, hrun]

/-! ### Host buffers -/

@[simp] theorem rowsOf_length (n : Nat) (b : Bytes) : (rowsOf n b).length = b.length / n := by
  simp [rowsOf]

theorem pghRead_length {m : Mem} {d : Dev} {p : Nat} {buf : Nat × Nat} {l : Bytes} (h : pghRead m d p buf = some l) :
    l.length = buf.2 := by
  unfold pghRead hostRead at h
  split at h
  · cases h
  · obtain rfl := Option.some.inj h
    simp

section AnswerBuf

variable {d : Dev} {p : Nat} {buf : Nat × Nat} {data : Bytes} {a : Answer}

theorem answerBuf_short (h : buf.2 < data.length) : d.answerBuf p buf data a = d.answer p (fail St.PGH_BUFFER_SHORT data.length) :=
  if_pos h

/-- A result that fits a buffer the port lets it write: written, and the command answered. -/
theorem answerBuf_written (h : data.length ≤ buf.2) (hw : d.hostRefused (p / 32) buf.1 data.length true = none) :
    d.answerBuf p buf data a = (d.hostPut (p / 32) buf.1 data).answer p a := by
  simp [Dev.answerBuf, Dev.hostWrite, portOf, hw, show ¬buf.2 < data.length by omega]

end AnswerBuf

end Sys2Proof.Machine
end

section
/-! PROOFS. Job commands (R44, R49, R52, R54, R84, R587, R589): created, bound, queried, destroyed. -/

namespace Sys2Proof.Machine

open Sys2Proof

/-! ### JOB_CREATE (R44, R84) -/

section Create

variable {p slot : Nat} {b map peerBytes : Bytes} {m : Mem} {d : Dev} {x : Dataset} {r : Route} {st : Status}

theorem createRefusal_open (h : x.closed = false) : d.createRefusal b x = some St.PGH_JOB_INPUT := if_pos h

theorem jobCreateRun_refused (hx : d.dataset (fld b 8 4) = some x) (hr : d.createRefusal b x = some st) :
    jobCreateRun p b m d = d.answer p (fail st) := by
  simp only [jobCreateRun, hx, hr]

theorem jobCreateRun_read (hx : d.dataset (fld b 8 4) = some x) (hn : d.createRefusal b x = none) (hr : d.route (cut b 48 32) = some r)
    (hm : pghRead m d p (hostBuf b 128) = some map) (hp : pghRead m d p (hostBuf b 144) = some peerBytes) :
    jobCreateRun p b m d = d.createJob p b x r map peerBytes := by
  simp only [jobCreateRun, hx, hn, hr, hm, hp]

/-- On a route without a card nothing is pinned, so the answer waits for no record. -/
theorem createJob_cardless (hc : (routeOf r.binary).cardLen = 0) (hl : peerBytes.length % 4 = 0)
    (hn : nodeMapOk x.segs ((rowsOf 4 peerBytes).map fun r => fld r 0 4).length map = true)
    (hp : d.peerListOk ((rowsOf 4 peerBytes).map fun r => fld r 0 4) = true) (hs : freeSlot 256 (d.jobs.map (·.handle)) = some slot) :
    let j := newJob b x r (handleOf slot (d.jobGens.getD slot 0)) map ((rowsOf 4 peerBytes).map fun r => fld r 0 4)
    d.createJob p b x r map peerBytes = ({ d with jobs := d.jobs ++ [j] } : Dev).answer p
      { body := le 4 j.handle ++ le 4 1 ++ fit 16 j.postmark ++ le 8 j.k } := by
  intro j
  have hpin : ∀ d : Dev, d.pinCards j.conf = (d, []) := fun d => if_pos hc
  simp only [Dev.createJob, hn, hl, hp, hs, hc, ne_eq, not_true_eq_false, false_and, false_or, if_false, Bool.true_eq_false]
  rw [hpin]
  rfl

end Create

/-! ### JOB_BIND_RANKS (R49, R52) -/

section Bind

variable {p i : Nat} {st : Status} {b l : Bytes} {m : Mem} {d d' d2 : Dev} {j : Job} {es : List Bytes} {cs : List (Nat × Nat)}

/-- A CREATED or BOUND job whose start does not wait, and fields in range: the list is read and bound. -/
theorem jobBindRanksRun_read (hj : d.job (fld b 0 4) = some j) (hs : j.state = .created ∨ j.state = .bound) (hb : j.barrier.ph = none)
    (h1 : 1 ≤ fld b 4 4) (h2 : fld b 4 4 ≤ 65536) (h3 : 1 ≤ fld b 24 4) (h4 : fld b 24 4 ≤ 65536) (h5 : fld b 20 4 < fld b 24 4)
    (h6 : fld b 32 4 ≤ 63) (hl : pghRead m d p (fld b 8 8, 56 * fld b 4 4) = some l) :
    jobBindRanksRun p b m d = d.bindList p b j (rowsOf 56 l) := by
  have hstate : ¬((j.state ≠ .created ∧ j.state ≠ .bound) ∨ j.barrier.ph.isSome = true) := by
    rw [hb]
    rintro (⟨hc, hn⟩ | h)
    · exact hs.elim hc hn
    · cases h
  have hrange : ¬(fld b 4 4 < 1 ∨ 65536 < fld b 4 4 ∨ fld b 24 4 < 1 ∨ 65536 < fld b 24 4 ∨ fld b 24 4 ≤ fld b 20 4 ∨
      63 < fld b 32 4) := by omega
  simp only [jobBindRanksRun, hj, hstate, hrange, hl, if_false]

theorem bindList_refused (hn : (es.map fun e => fld e 0 4).Nodup)
    (hr : d.firstBindRefusal j ((routeOf j.conf.route).parcelLength j.b) es = some (st, i)) :
    d.bindList p b j es = d.answer p (fail st i) := by
  simp only [Dev.bindList, hn, hr, decide_true, Bool.true_eq_false, if_false]

/-- A list whose every entry passes: all are bound, and LAST makes the job BOUND with its place in the tree. -/
theorem bindList_bound (hn : (es.map fun e => fld e 0 4).Nodup)
    (hr : d.firstBindRefusal j ((routeOf j.conf.route).parcelLength j.b) es = none) (hlim : d.boundRanks + es.length ≤ 65536)
    (ha : d.bindAll j.handle es = some (cs, d')) (hc : d'.creditBack (portOf p) (fld b 8 8) 0 cs = (d2, true)) :
    let d3 := if bit (fld b 16 4) 0 then d2.onJob j.handle fun j => { j with
        state := .bound
        deviceIndex := fld b 20 4
        deviceCount := fld b 24 4
        parentPeer := fld b 28 4
        childPeers := (List.range (fld b 32 4)).map fun i => fld b (36 + 4 * i) 4 } else d2
    d.bindList p b j es = d3.answer p { body := le 4 (((d3.job j.handle).map fun j => j.ranks.length).getD 0) } := by
  have hfresh : ¬65536 < d.boundRanks +
      ((es.map fun e => fld e 0 4).filter fun r => !(j.ranks.any fun x => x.rank == r)).length := by
    have := List.length_filter_le (fun r => !(j.ranks.any fun x => x.rank == r)) (es.map fun e => fld e 0 4)
    rw [List.length_map] at this
    omega
  simp only [Dev.bindList, hn, hr, hfresh, ha, hc, decide_true, Bool.true_eq_false, if_false]

end Bind

/-! ### JOB_QUERY (R589, R634) -/

theorem jobQueryRun_held {p : Nat} {b : Bytes} {m : Mem} {d : Dev} {j : Job} (hj : d.job (fld b 0 4) = some j) :
    jobQueryRun p b m d = d.answerBuf p (hostBuf b 16) (d.queryResult j (fld b 4 4) (fld b 8 4)) { body := j.queryBody } := by
  simp only [jobQueryRun, hj]

/-! ### JOB_DESTROY (R52, R54) -/

theorem Job.destroyable_eq_false_iff (j : Job) (force : Bool) :
    j.destroyable force = false ↔ j.state = .sealing ∨ (j.state = .running ∧ force = false) := by
  unfold Job.destroyable
  cases j.state <;> simp

section Destroy

variable {p : Nat} {b : Bytes} {m : Mem} {d : Dev} {j : Job}

theorem jobDestroyRun_refused (hj : d.job (fld b 0 4) = some j) (h : j.destroyable (bit (fld b 4 4) 0) = false) :
    jobDestroyRun p b m d = d.answer p (fail St.PGH_JOB_STATE) := by
  simp only [jobDestroyRun, hj, h, if_true]

theorem jobDestroyRun_taken (hj : d.job (fld b 0 4) = some j) (h : j.destroyable (bit (fld b 4 4) 0) = true) :
    jobDestroyRun p b m d = (((d.endWaits j St.PGH_STAGE_ABANDONED).releaseJob j).1.dropJob j.handle).answerAfter p {}
      ((d.endWaits j St.PGH_STAGE_ABANDONED).releaseJob j).2 := by
  simp only [jobDestroyRun, hj, h, Bool.true_eq_false, if_false]

end Destroy

/-! ### The statement -/

/-- Settles O27: each command's run by the lemma of the branch the clause's conditions select. -/
theorem jobCommands : Obligations.JobCommands := by
  unfold Obligations.JobCommands
  refine ⟨fun p slot frame map peerBytes x r s h hx => ⟨fun ho => ?_, fun hn hr hm hp hc hl hmap hpeers hs => ⟨?_, rfl, rfl, rfl⟩⟩,
    fun p frame l j cs d' d2 s h hj hs hb h1 h2 h3 h4 h5 h6 hl hnd => ?_,
    fun p frame j s h hj => ?_, fun p frame j s h hj => ?_⟩
  · exact exec_accepted rfl h (jobCreateRun_refused hx (createRefusal_open ho))
  · exact exec_accepted rfl h ((jobCreateRun_read hx hn hr hm hp).trans (createJob_cardless hc hl hmap hpeers hs))
  · have hrun := jobBindRanksRun_read hj hs hb h1 h2 h3 h4 h5 h6 hl
    have hlen : (rowsOf 56 l).length = fld (jobBindRanksOp.bodyOf p frame s.dev) 4 4 := by
      rw [rowsOf_length, pghRead_length hl, Nat.mul_div_cancel_left _ (by decide)]
    exact ⟨fun st i hr => exec_accepted rfl h (hrun.trans (bindList_refused hnd hr)),
      fun hr hlim ha hc => exec_accepted rfl h (hrun.trans (bindList_bound hnd hr (hlen ▸ hlim) ha hc))⟩
  · exact ⟨fun hshort => exec_accepted rfl h ((jobQueryRun_held (m := s.mem) hj).trans (answerBuf_short hshort)),
      fun hfits hw => exec_accepted rfl h ((jobQueryRun_held (m := s.mem) hj).trans (answerBuf_written hfits hw))⟩
  · refine ⟨fun hno => exec_accepted rfl h (jobDestroyRun_refused (m := s.mem) hj ((j.destroyable_eq_false_iff _).2 hno)),
      fun hseal hforce => exec_accepted rfl h (jobDestroyRun_taken (m := s.mem) hj ?_)⟩
    rw [← Bool.not_eq_false, j.destroyable_eq_false_iff]
    rintro (hs | ⟨hs, hf⟩)
    · exact hseal hs
    · exact absurd (hforce hs) (by rw [hf]; exact nofun)

end Sys2Proof.Machine
end

section
/-! PROOFS. Job runs (R46, R57, R58, R61, R66, R383): started, resumed, sealed, and the seal's cutoff. -/

namespace Sys2Proof.Machine

open Sys2Proof

/-! ### Starting (R46, R383) -/

theorem Job.startable_iff (j : Job) : j.startable = true ↔ j.state = .bound ∧ j.barrier.ph = none := by
  simp [Job.startable]

/-- A start that something stops is answered with it. -/
theorem beginStart_refused {d : Dev} {p : Nat} {j : Job} {x : StartFrom} {st : Status} (h : d.startRefusal j = some st) :
    d.beginStart p j x = d.answer p (fail st) := by
  simp only [Dev.beginStart, h]

section Start

variable {p : Nat} {b : Bytes} {m : Mem} {d : Dev} {j : Job}

theorem jobStartRun_startable (hj : d.job (fld b 0 4) = some j) (hs : j.state = .bound) (hb : j.barrier.ph = none) :
    jobStartRun p b m d = d.beginStart p j startFresh := by
  simp only [jobStartRun, hj, j.startable_iff.2 ⟨hs, hb⟩, if_true]

theorem jobStartRun_not_startable (hj : d.job (fld b 0 4) = some j) (h : j.state ≠ .bound ∨ j.barrier.ph ≠ none) :
    jobStartRun p b m d = d.answer p (fail St.PGH_JOB_STATE) := by
  have hno : ¬j.startable = true := fun hs => by
    obtain ⟨hbound, hph⟩ := j.startable_iff.1 hs
    exact h.elim (fun hn => hn hbound) (fun hn => hn hph)
  simp only [jobStartRun, hj]
  exact if_neg hno

end Start

/-! ### Resuming (R66, Table 2.8) -/

section Resume

variable {p : Nat} {b l : Bytes} {rs : List Bytes} {m : Mem} {d : Dev} {j : Job}

/-- JOB_RESUME on a job that may start, once its records are read: the checks of Table 2.8 decide. -/
theorem jobResumeRun_read (hj : d.job (fld b 0 4) = some j) (hs : j.state = .bound) (hb : j.barrier.ph = none) (h1 : 1 ≤ fld b 4 4)
    (h2 : fld b 4 4 ≤ 65536) (hl : pghRead m d p (fld b 8 8, 16 * fld b 4 4) = some l) (hr : readRecords m d p l = some rs) :
    (∀ st, d.resumeFrom j rs = .error st → jobResumeRun p b m d = d.answer p (fail st)) ∧
    (∀ x, d.resumeFrom j rs = .ok x → jobResumeRun p b m d = d.beginStart p j x) := by
  have hstart : j.startable = true := j.startable_iff.2 ⟨hs, hb⟩
  have hrange : ¬(fld b 4 4 < 1 ∨ 65536 < fld b 4 4) := by omega
  refine ⟨fun st hst => ?_, fun x hx => ?_⟩
  · simp only [jobResumeRun, hj, hstart, hrange, hl, Option.bind_some, hr, hst, Bool.true_eq_false, if_false]
  · simp only [jobResumeRun, hj, hstart, hrange, hl, Option.bind_some, hr, hx, Bool.true_eq_false, if_false]

end Resume

/-! ### Sealing (R57, R61) -/

/-- The handle a job is found under is its own. -/
theorem Dev.job_handle {d : Dev} {h : Nat} {j : Job} (hj : d.job h = some j) : j.handle = h :=
  eq_of_beq (List.find?_some (p := fun j : Job => j.handle == h) hj)

/-- A job is found under its own handle. -/
theorem Dev.job_own_handle {d : Dev} {h : Nat} {j : Job} (hj : d.job h = some j) : d.job j.handle = some j := by
  rw [Dev.job_handle hj, hj]

theorem abandonStaged_none {d : Dev} {j : Job} (h : j.staged = none) : d.abandonStaged j = d := by
  simp only [Dev.abandonStaged, h]

/-- A job as its seal begins: SEALING, with the ranks at or beyond the stop cursor stopped, or all of them where there is none. -/
def Job.sealBegun (stop nonce at_ : Nat) (w : List (Nat × Nat × Nat)) (j : Job) : Job :=
  { j with
    state := .sealing
    sealRec := some { nonce := nonce, stop := stop, at_ := at_, waiters := w }
    ranks := j.ranks.map fun (r : Rank) => { r with stopped := r.stopped || stop == 0 || decide (stepOf j.k stop ≤ r.cursor) } }

/-- With no staged change and no barrier open, the seal's beginning touches the job alone. -/
theorem beginSeal_alone {d : Dev} {h stop nonce : Nat} {w : Option (Nat × Nat × Nat)} {j : Job} (hj : d.job h = some j)
    (hs : j.staged = none) (hb : j.barrier.opened = false) :
    d.beginSeal j stop nonce w = d.onJob j.handle (Job.sealBegun stop nonce d.now w.toList) := by
  unfold Dev.beginSeal
  rw [abandonStaged_none hs]
  dsimp only
  rw [Dev.onJob_job]
  · simp only [Dev.job_own_handle hj, Option.map_some, hb, Bool.false_eq_true, false_and, if_false]
    rfl
  · exact fun _ => rfl

section Seal

variable {p : Nat} {b : Bytes} {m : Mem} {d : Dev} {j : Job} {x : Seal}

theorem jobSealRun_running (hj : d.job (fld b 0 4) = some j) (hs : j.state = .running) :
    jobSealRun p b m d = d.beginSeal j (fld b 8 8) (fld b 16 8) (some (p, hostBuf b 24)) := by
  simp only [jobSealRun, hj, hs]

theorem jobSealRun_joins (hj : d.job (fld b 0 4) = some j) (hs : j.state = .sealing) (hx : j.sealRec = some x)
    (hn : x.nonce = fld b 16 8) :
    jobSealRun p b m d = d.onJob j.handle fun j => { j with
      sealRec := some { x with waiters := x.waiters ++ [(p, hostBuf b 24)] } } := by
  simp only [jobSealRun, hj, hs, hx, hn, if_true]

theorem jobSealRun_again (hj : d.job (fld b 0 4) = some j) (hs : j.state = .sealed_) (hx : j.sealRec = some x)
    (hn : x.nonce = fld b 16 8) :
    jobSealRun p b m d = d.answerSeal p (fld b 24 8) (fld b 32 8) x.bytes := by
  simp only [jobSealRun, hj, hs, hx, hn, if_true, hostBuf]

theorem jobSealRun_other_nonce (hj : d.job (fld b 0 4) = some j) (hs : j.state = .sealing ∨ j.state = .sealed_)
    (hx : j.sealRec = some x) (hn : x.nonce ≠ fld b 16 8) :
    jobSealRun p b m d = d.answer p (fail St.PGH_JOB_STATE) := by
  rcases hs with hs | hs <;> simp only [jobSealRun, hj, hs, hx, hn, if_false]

end Seal

/-! ### The cutoff of a seal (R58) -/

theorem exec_sealCutoff (job : Nat) (s : State) : exec (.sealCutoff job) s = .next (s.put (sealCutoffEffect job s.mem s.dev)) := rfl

@[simp] theorem put_dev_job (s : State) (d : Dev) (h : Nat) : (s.put d).dev.job h = d.job h := rfl

theorem sealCutoffEffect_sealing {job : Nat} {m : Mem} {d : Dev} {j : Job} {x : Seal} (hj : d.job job = some j) (hs : j.state = .sealing)
    (hx : j.sealRec = some x) :
    sealCutoffEffect job m d = (if j.ranks.all Rank.drained then d else d.until (x.at_ + 1600000000)).finishSeal j x := by
  simp only [sealCutoffEffect, hj, hs, hx]

@[simp] theorem Dev.programSync_jobs (d : Dev) (p : Nat) : (d.programSync p).jobs = d.jobs := by
  unfold Dev.programSync
  dsimp only
  split
  · rfl
  · simp

@[simp] theorem Dev.pushSync_jobs (d : Dev) (p : Nat) (r : JRec) : (d.pushSync p r).2.jobs = d.jobs := by
  unfold Dev.pushSync
  dsimp only
  split <;> simp

@[simp] theorem Dev.pushAll_jobs (l : List (Nat × JRec)) (d : Dev) : (d.pushAll l).2.jobs = d.jobs := by
  induction l generalizing d with
  | nil => rfl
  | cons x xs ih => simp [Dev.pushAll, ih]

@[simp] theorem Dev.systemObj_jobs (d : Dev) (id : Nat) (isSeal : Bool) (stored : Bytes) : (d.systemObj id isSeal stored).1.jobs = d.jobs := by
  unfold Dev.systemObj
  dsimp only
  split <;> simp

theorem systemObj_jobs_of_eq {d d' : Dev} {id : Nat} {isSeal : Bool} {stored : Bytes} {recs : List (Nat × JRec)}
    (h : d.systemObj id isSeal stored = (d', recs)) : d'.jobs = d.jobs := by
  rw [← d.systemObj_jobs id isSeal stored, h]

theorem checkItems_balanced {d : Dev} {h : Nat} {j : Job} (hj : d.job h = some j) (hc : j.ctrs.difference = 0) : d.checkItems h = d := by
  simp only [Dev.checkItems, hj, hc, if_true]

/-- A job as its seal ends: SEALED, the record kept, nobody waiting, every rank stopped. -/
def Job.sealedWith (x : Seal) (record : Bytes) (j : Job) : Job :=
  { j with
    state := .sealed_
    sealRec := some { x with bytes := record, waiters := [] }
    ranks := j.ranks.map fun (r : Rank) => { r with stopped := true } }

/-- The end of the seal of a job without ranks, its items in balance and nobody waiting, changes of the jobs that one only. -/
theorem finishSeal_idle_jobs {d : Dev} {h : Nat} {j : Job} {x : Seal} (hj : d.job h = some j) (hr : j.ranks = []) (hw : x.waiters = [])
    (hc : j.ctrs.difference = 0) : (d.finishSeal j x).jobs = (d.onJob j.handle (Job.sealedWith x (d.partialRecord j x))).jobs := by
  rw [Dev.finishSeal, hr, hw, List.foldl_nil, checkItems_balanced (Dev.job_own_handle hj) hc]
  split
  next d' recs hobj => exact (Dev.pushAll_jobs recs d').trans (systemObj_jobs_of_eq hobj)

theorem finishSeal_idle_job {d : Dev} {h : Nat} {j : Job} {x : Seal} (hj : d.job h = some j) (hr : j.ranks = []) (hw : x.waiters = [])
    (hc : j.ctrs.difference = 0) : (d.finishSeal j x).job h = some (j.sealedWith x (d.partialRecord j x)) := by
  rw [Dev.job, finishSeal_idle_jobs hj hr hw hc, ← Dev.job, Dev.job_handle hj, Dev.onJob_job, hj, Option.map_some]
  exact fun _ => rfl

/-! ### The statement -/

/-- Settles O28: each command's run by the lemma of the branch the clause's conditions select; the cutoff by what a seal's end leaves of
the jobs. -/
theorem jobRuns : Obligations.JobRuns := by
  unfold Obligations.JobRuns
  refine ⟨fun p frame j s h hj => ⟨fun hno => ?_, fun hs hb _ => ?_, fun st hs hb hr => ?_⟩,
    fun p frame l rs j s h hj hs hb h1 h2 hl hrs => ?_,
    fun p frame j s h hj => ⟨fun hs hst hb => ?_, fun x hs hx hn => ?_, fun x hs hx hn hfits hw => ?_, fun x hs hx hn => ?_⟩,
    fun job j x s hj hs hx => ⟨?_, fun hr hw hc => ?_⟩⟩
  · exact exec_accepted rfl h (jobStartRun_not_startable (m := s.mem) hj hno)
  · exact exec_accepted rfl h (jobStartRun_startable (m := s.mem) hj hs hb)
  · exact exec_accepted rfl h ((jobStartRun_startable (m := s.mem) hj hs hb).trans (beginStart_refused hr))
  · obtain ⟨herror, hok⟩ := jobResumeRun_read hj hs hb h1 h2 hl hrs
    exact ⟨fun st hst => exec_accepted rfl h (herror st hst), fun x hx _ => exec_accepted rfl h (hok x hx)⟩
  · exact exec_accepted rfl h ((jobSealRun_running (m := s.mem) hj hs).trans (beginSeal_alone hj hst hb))
  · exact exec_accepted rfl h (jobSealRun_joins (m := s.mem) hj hs hx hn)
  · exact exec_accepted rfl h ((jobSealRun_again (m := s.mem) hj hs hx hn).trans (answerBuf_written hfits hw))
  · exact exec_accepted rfl h (jobSealRun_other_nonce (m := s.mem) hj hs hx hn)
  · rw [exec_sealCutoff, sealCutoffEffect_sealing hj hs hx]
  · have hd : j.ranks.all Rank.drained = true := by rw [hr]; rfl
    refine ⟨_, j.sealedWith x (s.dev.partialRecord j x), exec_sealCutoff job s, ?_, rfl, rfl, rfl⟩
    rw [put_dev_job, sealCutoffEffect_sealing hj hs hx, if_pos hd, finishSeal_idle_job hj hr hw hc]

end Sys2Proof.Machine
end

section
/-! PROOFS. The permutation of an epoch (R76 to R82): the Feistel network is a bijection of its domain, and walking it until a value below
N comes back is a bijection of the positions. -/

namespace Sys2Proof.Machine

open Sys2Proof

/-! ### Injections of the numbers below a bound -/

/-- f maps the numbers below M to numbers below M, no two to the same one. -/
structure InjectsBelow (f : Nat → Nat) (M : Nat) : Prop where
  maps : ∀ x < M, f x < M
  inj : ∀ x < M, ∀ y < M, f x = f y → x = y

section Injections

variable {f : Nat → Nat} {M n : Nat}

/-- Values below M of more than M numbers cannot all be distinct. -/
theorem exists_eq_of_maps (hn : M < n) (h : ∀ i < n, f i < M) : ∃ i j, i < j ∧ j < n ∧ f i = f j := by
  refine Classical.byContradiction fun hno => ?_
  have hnodup : ((List.range n).map f).Nodup := List.pairwise_iff_getElem.2 fun i j hi hj hij heq => by
    simp only [List.length_map, List.length_range] at hj
    simp only [List.getElem_map, List.getElem_range] at heq
    exact hno ⟨i, j, hij, hj, heq⟩
  have hsub : (List.range n).map f ⊆ List.range M := fun y hy => by
    obtain ⟨x, hx, rfl⟩ := List.mem_map.1 hy
    exact List.mem_range.2 (h x (List.mem_range.1 hx))
  have hlen := hnodup.length_le_of_subset hsub
  simp only [List.length_map, List.length_range] at hlen
  omega

/-- With a value v that is never taken, the M + 1 numbers up to M would have distinct values below M: f's own, and v for M. -/
theorem InjectsBelow.surjective (h : InjectsBelow f M) {v : Nat} (hv : v < M) : ∃ x < M, f x = v := by
  refine Classical.byContradiction fun hno => ?_
  obtain ⟨i, j, hij, hj, heq⟩ := exists_eq_of_maps (f := fun x => if x < M then f x else v) (Nat.lt_succ_self M) fun i _ => by
    split
    · exact h.maps i ‹_›
    · exact hv
  have hi : i < M := by omega
  simp only [hi, if_true] at heq
  split at heq
  · have := h.inj i hi j ‹_› heq
    omega
  · exact hno ⟨i, hi, heq⟩

theorem repeat_add (f : Nat → Nat) (k l x : Nat) : Nat.repeat f (k + l) x = Nat.repeat f k (Nat.repeat f l x) := by
  induction k with
  | zero => rw [Nat.zero_add, Nat.repeat]
  | succ k ih => rw [Nat.succ_add, Nat.repeat, Nat.repeat, ih]

/-- The first of the applications taken apart, where the definition takes the last. -/
theorem repeat_succ_left (f : Nat → Nat) (k x : Nat) : Nat.repeat f (k + 1) x = Nat.repeat f k (f x) := repeat_add f k 1 x

theorem InjectsBelow.repeat (h : InjectsBelow f M) (k : Nat) : InjectsBelow (Nat.repeat f k) M := by
  induction k with
  | zero => exact ⟨fun x hx => hx, fun x _ y _ heq => heq⟩
  | succ k ih => exact ⟨fun x hx => h.maps _ (ih.maps x hx),
      fun x hx y hy heq => ih.inj x hx y hy (h.inj _ (ih.maps x hx) _ (ih.maps y hy) heq)⟩

/-- Among M + 1 iterates two agree, and injectivity carries that back to the start. -/
theorem InjectsBelow.exists_repeat_eq_self (h : InjectsBelow f M) {q : Nat} (hq : q < M) : ∃ m < M, Nat.repeat f (m + 1) q = q := by
  obtain ⟨i, j, hij, hj, heq⟩ := exists_eq_of_maps (f := fun i => Nat.repeat f i q) (Nat.lt_succ_self M) fun i _ => (h.repeat i).maps q hq
  obtain ⟨m, rfl⟩ : ∃ m, j = i + (m + 1) := ⟨j - i - 1, by omega⟩
  simp only [repeat_add f i] at heq
  exact ⟨m, by omega, ((h.repeat i).inj q hq _ ((h.repeat (m + 1)).maps q hq) heq).symm⟩

end Injections

/-! ### The way back below N (R80, R82) -/

/-- p is the first value below n that f reaches from q, in k + 1 steps. -/
structure FirstReturn (f : Nat → Nat) (n q k p : Nat) : Prop where
  reached : Nat.repeat f (k + 1) q = p
  below : p < n
  passed : ∀ j < k, n ≤ Nat.repeat f (j + 1) q

section Return

variable {f : Nat → Nat} {n M q r k l p : Nat}

/-- A return within m + 1 steps has a first one among them. -/
theorem exists_firstReturn_of_return (m : Nat) (h : Nat.repeat f (m + 1) q < n) : ∃ k p, k ≤ m ∧ FirstReturn f n q k p := by
  induction m using Nat.strongRecOn with
  | ind m ih =>
    by_cases hearly : ∃ j < m, Nat.repeat f (j + 1) q < n
    · obtain ⟨j, hj, hlt⟩ := hearly
      obtain ⟨k, p, hk, hfirst⟩ := ih j hj hlt
      exact ⟨k, p, by omega, hfirst⟩
    · exact ⟨m, _, Nat.le_refl m, rfl, h, fun j hj => Nat.le_of_not_lt fun hlt => hearly ⟨j, hj, hlt⟩⟩

/-- From below n the way back to a value below n takes at most M steps. -/
theorem InjectsBelow.exists_firstReturn (h : InjectsBelow f M) (hn : n ≤ M) (hq : q < n) : ∃ k p, k < M ∧ FirstReturn f n q k p := by
  obtain ⟨m, hm, hself⟩ := h.exists_repeat_eq_self (Nat.lt_of_lt_of_le hq hn)
  obtain ⟨k, p, hk, hfirst⟩ := exists_firstReturn_of_return (f := f) m (hself.symm ▸ hq)
  exact ⟨k, p, by omega, hfirst⟩

/-- Two ways to one value are undone together from its end: the longer one would have come below n on its way. -/
theorem FirstReturn.start_eq_of_le (hf : InjectsBelow f M) (hn : n ≤ M) (hq : q < n) (hr : r < n) (hkl : k ≤ l)
    (h : FirstReturn f n q k p) (h' : FirstReturn f n r l p) : q = r := by
  obtain ⟨m, rfl⟩ := Nat.exists_eq_add_of_le hkl
  have heq : Nat.repeat f (k + 1) q = Nat.repeat f (k + 1) (Nat.repeat f m r) := by
    rw [← repeat_add, Nat.add_right_comm, h.reached, h'.reached]
  have hqr : q = Nat.repeat f m r :=
    (hf.repeat (k + 1)).inj q (Nat.lt_of_lt_of_le hq hn) _ ((hf.repeat m).maps r (Nat.lt_of_lt_of_le hr hn)) heq
  cases m with
  | zero => exact hqr
  | succ m =>
    have hpassed := h'.passed m (by omega)
    omega

theorem FirstReturn.start_unique (hf : InjectsBelow f M) (hn : n ≤ M) (hq : q < n) (hr : r < n) (h : FirstReturn f n q k p)
    (h' : FirstReturn f n r l p) : q = r := by
  rcases Nat.le_total k l with hkl | hlk
  · exact FirstReturn.start_eq_of_le hf hn hq hr hkl h h'
  · exact (FirstReturn.start_eq_of_le hf hn hr hq hlk h' h).symm

end Return

/-! ### The domain width (R78) -/

section Width

variable {n : Nat}

theorem two_dvd_domainFrom (f : Nat) {b : Nat} (hb : 2 ∣ b) : 2 ∣ domainFrom n f b := by
  induction f generalizing b with
  | zero => exact hb
  | succ f ih =>
    rw [domainFrom]
    split
    · exact ih (Nat.dvd_add hb (Nat.dvd_refl 2))
    · exact hb

theorem le_two_pow_domainFrom {f b : Nat} (hn : n ≤ 2 ^ (b + 2 * f)) : n ≤ 2 ^ domainFrom n f b := by
  induction f generalizing b with
  | zero => exact hn
  | succ f ih =>
    rw [domainFrom]
    split
    · refine ih ?_
      rwa [Nat.add_assoc, Nat.add_comm 2, ← Nat.mul_succ]
    · exact Nat.le_of_not_lt ‹_›

theorem two_dvd_domainBits (n : Nat) : 2 ∣ domainBits n := two_dvd_domainFrom 64 (Nat.dvd_refl 2)

/-- The domain holds every position: 64 widenings reach far beyond the greatest N. -/
theorem le_two_pow_domainBits (hn : n ≤ 2 ^ 48) : n ≤ 2 ^ domainBits n :=
  le_two_pow_domainFrom (Nat.le_trans hn (Nat.pow_le_pow_right (by decide) (by decide)))

end Width

/-! ### The Feistel network (R79) -/

section Feistel

variable {e seed b x : Nat}

theorem eq_of_xor_eq {l l' c : Nat} (h : l ^^^ c = l' ^^^ c) : l = l' := by
  have hx := congrArg (· ^^^ c) h
  simpa only [Nat.xor_assoc, Nat.xor_self, Nat.xor_zero] using hx

/-- Whatever the round function, a round can be undone, so the rounds are injective. -/
theorem feistelRounds_injective (k : Nat) {i l r l' r' : Nat}
    (h : feistelRounds e seed b k i l r = feistelRounds e seed b k i l' r') : l = l' ∧ r = r' := by
  induction k generalizing i l r l' r' with
  | zero => exact Prod.mk.inj h
  | succ k ih =>
    obtain ⟨rfl, hx⟩ := ih h
    exact ⟨eq_of_xor_eq hx, rfl⟩

theorem feistelRounds_lt (k : Nat) {i l r : Nat} (hl : l < 2 ^ (b / 2)) (hr : r < 2 ^ (b / 2)) :
    (feistelRounds e seed b k i l r).1 < 2 ^ (b / 2) ∧ (feistelRounds e seed b k i l r).2 < 2 ^ (b / 2) := by
  induction k generalizing i l r with
  | zero => exact ⟨hl, hr⟩
  | succ k ih => exact ih hr (Nat.xor_lt_two_pow hl (Nat.mod_lt _ (Nat.two_pow_pos _)))

/-- Half of the width twice is the width, as it is even. -/
theorem two_pow_half_mul_self (hb : 2 ∣ b) : 2 ^ (b / 2) * 2 ^ (b / 2) = 2 ^ b := by
  rw [← Nat.pow_add, ← Nat.two_mul, Nat.mul_div_cancel' hb]

/-- The halves of a value of the domain. -/
theorem halves_lt (hb : 2 ∣ b) (hx : x < 2 ^ b) : x / 2 ^ (b / 2) < 2 ^ (b / 2) ∧ x % 2 ^ (b / 2) < 2 ^ (b / 2) := by
  refine ⟨Nat.div_lt_of_lt_mul ?_, Nat.mod_lt _ (Nat.two_pow_pos _)⟩
  rwa [two_pow_half_mul_self hb]

/-- The two halves that the rounds make of a value of the domain. -/
def feistelHalves (e seed b x : Nat) : Nat × Nat := feistelRounds e seed b 8 0 (x / 2 ^ (b / 2)) (x % 2 ^ (b / 2))

/-- The network's result reads back as its two halves. -/
theorem feistel_halves (hb : 2 ∣ b) (hx : x < 2 ^ b) :
    feistel x e seed b / 2 ^ (b / 2) = (feistelHalves e seed b x).1 ∧ feistel x e seed b % 2 ^ (b / 2) = (feistelHalves e seed b x).2 := by
  obtain ⟨hl, hr⟩ := halves_lt hb hx
  obtain ⟨-, hlt⟩ : _ ∧ (feistelHalves e seed b x).2 < 2 ^ (b / 2) := feistelRounds_lt 8 hl hr
  refine (Nat.div_mod_unique (Nat.two_pow_pos _)).2 ⟨?_, hlt⟩
  rw [Nat.add_comm, Nat.two_pow_add_eq_or_of_lt hlt, Nat.mul_comm]
  rfl

theorem feistel_lt (hb : 2 ∣ b) (hx : x < 2 ^ b) : feistel x e seed b < 2 ^ b := by
  obtain ⟨hl, hr⟩ := halves_lt hb hx
  obtain ⟨hlt, -⟩ : (feistelHalves e seed b x).1 < 2 ^ (b / 2) ∧ _ := feistelRounds_lt 8 hl hr
  obtain ⟨hdiv, -⟩ := feistel_halves (e := e) (seed := seed) hb hx
  rwa [← hdiv, Nat.div_lt_iff_lt_mul (Nat.two_pow_pos _), two_pow_half_mul_self hb] at hlt

theorem feistel_injective {y : Nat} (hb : 2 ∣ b) (hx : x < 2 ^ b) (hy : y < 2 ^ b) (h : feistel x e seed b = feistel y e seed b) :
    x = y := by
  obtain ⟨hxl, hxr⟩ := feistel_halves (e := e) (seed := seed) hb hx
  obtain ⟨hyl, hyr⟩ := feistel_halves (e := e) (seed := seed) hb hy
  rw [h] at hxl hxr
  have hrounds : feistelHalves e seed b x = feistelHalves e seed b y := Prod.ext (hxl.symm.trans hyl) (hxr.symm.trans hyr)
  obtain ⟨hdiv, hmod⟩ := feistelRounds_injective 8 hrounds
  rw [← Nat.div_add_mod x (2 ^ (b / 2)), hdiv, hmod, Nat.div_add_mod]

theorem feistel_injectsBelow (hb : 2 ∣ b) : InjectsBelow (fun x => feistel x e seed b) (2 ^ b) :=
  ⟨fun _ hx => feistel_lt hb hx, fun _ hx _ hy h => feistel_injective hb hx hy h⟩

end Feistel

/-! ### The permutation (R76, R80) -/

section Permute

variable {e seed n q r : Nat}

/-- Enough evaluations allowed, the walk ends at the first value below n. -/
theorem walk_eq_repeat {b y k m fuel : Nat} (hm : m ≤ fuel) (hlt : Nat.repeat (fun y => feistel y e seed b) m y < n)
    (hge : ∀ j < m, n ≤ Nat.repeat (fun y => feistel y e seed b) j y) :
    (walk e seed b n fuel y k).1 = Nat.repeat (fun y => feistel y e seed b) m y := by
  induction m generalizing fuel y k with
  | zero =>
    cases fuel with
    | zero => rfl
    | succ fuel => exact congrArg Prod.fst (if_neg (Nat.not_le.2 hlt))
  | succ m ih =>
    cases fuel with
    | zero => omega
    | succ fuel =>
      have hy : n ≤ y := hge 0 (Nat.succ_pos m)
      rw [repeat_succ_left] at hlt ⊢
      rw [walk, if_pos hy]
      refine ih (Nat.le_of_succ_le_succ hm) hlt fun j hj => ?_
      have hnext := hge (j + 1) (Nat.succ_lt_succ hj)
      rwa [repeat_succ_left] at hnext

/-- permute is the first return of the network below N. -/
theorem permute_firstReturn (hn : n ≤ 2 ^ 48) (hq : q < n) :
    ∃ k, FirstReturn (fun y => feistel y e seed (domainBits n)) n q k (permute q e seed n) := by
  have hb := two_dvd_domainBits n
  obtain ⟨k, p, hk, h⟩ := (feistel_injectsBelow (e := e) (seed := seed) hb).exists_firstReturn (le_two_pow_domainBits hn) hq
  have hreached := h.reached
  have hpassed := h.passed
  simp only [repeat_succ_left] at hreached hpassed
  have hwalk : permute q e seed n = p := (walk_eq_repeat (Nat.le_of_lt hk) (hreached.symm ▸ h.below) hpassed).trans hreached
  exact ⟨k, hwalk ▸ h⟩

theorem permute_injectsBelow (hn : n ≤ 2 ^ 48) : InjectsBelow (fun q => permute q e seed n) n where
  maps q hq := by
    obtain ⟨k, h⟩ := permute_firstReturn (e := e) (seed := seed) hn hq
    exact h.below
  inj q hq r hr heq := by
    obtain ⟨k, h⟩ := permute_firstReturn (e := e) (seed := seed) hn hq
    obtain ⟨l, h'⟩ := permute_firstReturn (e := e) (seed := seed) hn hr
    exact h.start_unique (feistel_injectsBelow (two_dvd_domainBits n)) (le_two_pow_domainBits hn) hq hr (heq.symm ▸ h')

end Permute

/-- Settles O17: the walk is the first return below N of an injective function, hence injective on the positions, and so onto. -/
theorem permutationIsBijection : Obligations.PermutationIsBijection := by
  unfold Obligations.PermutationIsBijection
  intro e seed n _ hn
  have hinj : InjectsBelow (fun q => permute q e seed n) n := permute_injectsBelow hn
  refine ⟨hinj.maps, hinj.inj, fun i hi => hinj.surjective hi, fun q hq => ?_⟩
  obtain ⟨k, h⟩ := permute_firstReturn (e := e) (seed := seed) hn hq
  exact ⟨k, h.reached.symm, h.passed⟩

end Sys2Proof.Machine
end

section
/-! PROOFS. Positions of an epoch and cursors of steps (R69 to R75), and the refusal of an epoch that is less than one batch of every
rank (R70). -/

namespace Sys2Proof.Machine

open Sys2Proof

/-! ### Positions (R69, R71, R72) -/

section Positions

variable {n w b r r' k k' j j' q : Nat}

theorem batches_mul_le (n w b : Nat) : batches n w b * b * w ≤ n := by
  rw [Nat.mul_assoc]
  exact Nat.div_mul_le_self n (b * w)

/-- A position gives back its rank, its batch and its slot. -/
theorem position_digits (hr : r < w) (hj : j < b) :
    position w b r k j % w = r ∧ position w b r k j / w / b = k ∧ position w b r k j / w % b = j := by
  have hdiv : position w b r k j / w = k * b + j := by
    rw [position, Nat.mul_comm, Nat.mul_add_div (by omega), Nat.div_eq_of_lt hr, Nat.add_zero]
  refine ⟨?_, ?_, ?_⟩
  · rw [position, Nat.mul_add_mod_self_right, Nat.mod_eq_of_lt hr]
  · rw [hdiv, Nat.mul_comm, Nat.mul_add_div (by omega), Nat.div_eq_of_lt hj, Nat.add_zero]
  · rw [hdiv, Nat.mul_add_mod_self_right, Nat.mod_eq_of_lt hj]

theorem position_injective (hr : r < w) (hr' : r' < w) (hj : j < b) (hj' : j' < b) (h : position w b r k j = position w b r' k' j') :
    r = r' ∧ k = k' ∧ j = j' := by
  obtain ⟨h1, h2, h3⟩ := position_digits (k := k) hr hj
  obtain ⟨h1', h2', h3'⟩ := position_digits (k := k') hr' hj'
  rw [h] at h1 h2 h3
  exact ⟨h1.symm.trans h1', h2.symm.trans h2', h3.symm.trans h3'⟩

theorem position_of_digits (w b q : Nat) : position w b (q % w) (q / w / b) (q / w % b) = q := by
  rw [position, Nat.div_add_mod', Nat.div_add_mod']

/-- The positions of K batches of b slots and w ranks are below K b w. -/
theorem position_lt {m : Nat} (hr : r < w) (hk : k < m) (hj : j < b) : position w b r k j < m * b * w :=
  calc position w b r k j < (k * b + j + 1) * w := by
        rw [position, Nat.add_one_mul]
        omega
    _ ≤ ((k + 1) * b) * w := Nat.mul_le_mul_right w (by rw [Nat.add_one_mul]; omega)
    _ ≤ m * b * w := Nat.mul_le_mul_right w (Nat.mul_le_mul_right b hk)

end Positions

/-! ### Cursors (R75) -/

/-- A batch number fits below bit 48, so the halves of a cursor are read back. -/
theorem stepOf_cursorOf {k step : Nat} (hk1 : 1 ≤ k) (hk : k ≤ 2 ^ 48) (he : step / k < 65536) : stepOf k (cursorOf k step) = step := by
  have hlow : step % k < 2 ^ 48 := Nat.lt_of_lt_of_le (Nat.mod_lt step hk1) hk
  rw [cursorOf, stepOf, Nat.max_eq_right hk1, Nat.mod_eq_of_lt he, Nat.mul_comm (step / k), Nat.mul_add_div (by decide),
    Nat.div_eq_of_lt hlow, Nat.mul_add_mod, Nat.mod_eq_of_lt hlow, Nat.add_zero, Nat.div_add_mod']

/-- Settles O18: rank, slot and batch are the digits of a position, epoch and batch the halves of a cursor. -/
theorem positionsAndCursors : Obligations.PositionsAndCursors := by
  unfold Obligations.PositionsAndCursors
  refine ⟨fun n w b hw hb => ⟨batches_mul_le n w b, fun r hr k hk j hj => position_lt hr hk hj,
    fun r hr r' hr' k k' j j' hj hj' h => position_injective hr hr' hj hj' h, fun q hq => ?_⟩, fun k step hk1 hk he => stepOf_cursorOf hk1 hk he⟩
  have hbatch : q / w / b < batches n w b := by
    rwa [Nat.div_lt_iff_lt_mul hb, Nat.div_lt_iff_lt_mul hw]
  exact ⟨q % w, Nat.mod_lt q hw, q / w / b, hbatch, q / w % b, Nat.mod_lt _ hb, position_of_digits w b q⟩

/-! ### An empty shard (R70) -/

/-- A field whose default is allowed, read as in range where it is in range or all ones. -/
theorem zeroDefault_le {b : Bytes} {off size dflt limit : Nat} (hd : dflt ≤ limit)
    (h : fld b off size ≤ limit ∨ fld b off size = ones (8 * size)) : zeroDefault b off size dflt ≤ limit := by
  unfold zeroDefault orDefault
  split
  · exact hd
  · split
    · exact hd
    · exact h.resolve_right ‹_›

/-- JOB_CREATE's fields up to B in range, and N below B x W. -/
theorem createRefusal_empty {d : Dev} {b : Bytes} {x : Dataset} (hc : x.closed = true) (hexp : fld b 12 1 ≤ 1)
    (hlook : fld b 13 1 ≤ 64 ∨ fld b 13 1 = 0xFF) (hep : fld b 14 2 ≠ 0) (hw : 1 ≤ fld b 24 4) (hw' : fld b 24 4 ≤ 4194304)
    (hb : 1 ≤ fld b 28 4) (hb' : fld b 28 4 ≤ 65536) (hn : (x.segs.map (·.1)).sum < fld b 28 4 * fld b 24 4) :
    d.createRefusal b x = some St.SRT_SHARD_EMPTY := by
  have hlook' : ¬64 < zeroDefault b 13 1 4 := Nat.not_lt.2 (zeroDefault_le (by decide) hlook)
  have hrange : ¬(fld b 24 4 < 1 ∨ 4194304 < fld b 24 4 ∨ fld b 28 4 < 1 ∨ 65536 < fld b 28 4) := by omega
  simp only [Dev.createRefusal, hc, Nat.not_lt.2 hexp, hlook', hep, hrange, hn, Bool.true_eq_false, if_false, if_true]

/-- An answer changes the pigeonholes and the interrupts sent. -/
theorem answer_eq (d : Dev) (p : Nat) (a : Answer) : ∃ pgh pins, d.answer p a = { d with pgh := pgh, pins := pins } := by
  unfold Dev.answer Dev.respond
  dsimp only
  split
  · exact ⟨_, _, rfl⟩
  · split <;> exact ⟨_, _, rfl⟩

/-- A device without pending writes is put without touching the memories. -/
theorem put_mem_of_no_dma {s : State} {d : Dev} (h : d.dma = []) : (s.put d).mem = s.mem := by
  simp [State.put, h]

/-- Settles O19: the refusal is the first that applies, and an answer alone follows it. -/
theorem emptyShardCreatesNothing : Obligations.EmptyShardCreatesNothing := by
  unfold Obligations.EmptyShardCreatesNothing
  intro p frame x s hs h d b hx hc hexp hlook hep hw hw' hb hb' hn
  have hexec : exec (.jobCreate p frame) s = .next (s.put (d.answer p { status := St.SRT_SHARD_EMPTY })) :=
    exec_accepted rfl h (jobCreateRun_refused hx (createRefusal_empty hc hexp hlook hep hw hw' hb hb' hn))
  refine ⟨hexec, fun t ht => ?_⟩
  obtain rfl := Host.Outcome.next.inj (hexec.symm.trans ht)
  obtain ⟨-, hdma⟩ := hs
  obtain ⟨pgh, pins, ha⟩ := answer_eq d p { status := St.SRT_SHARD_EMPTY }
  rw [ha]
  exact ⟨rfl, rfl, rfl, rfl, put_mem_of_no_dma hdma⟩

end Sys2Proof.Machine
end

section
/-! PROOFS. What giving buffers, window entries and fetches back leaves alone: the time (R59, R108, R499, R500). -/

namespace Sys2Proof.Machine

open Sys2Proof

/-- Steps taken in turn over a list, none of which moves the time. -/
theorem foldl_clk {α : Type} {f : Dev → α → Dev} (hf : ∀ d x, (f d x).clk = d.clk) (l : List α) (d : Dev) : (l.foldl f d).clk = d.clk := by
  induction l generalizing d with
  | nil => rfl
  | cons x xs ih => exact (ih _).trans (hf d x)

/-! ### Buffers given back -/

@[simp] theorem Dev.onPool_clk (d : Dev) (i : Nat) (f : Pool → Pool) : (d.onPool i f).clk = d.clk := rfl

@[simp] theorem Dev.onFetch_clk (d : Dev) (i : Nat) (f : FetchDie → FetchDie) : (d.onFetch i f).clk = d.clk := rfl

@[simp] theorem Dev.returnBuf_clk (d : Dev) (b : Buf) (c : Option Nat) : (d.returnBuf b c).clk = d.clk := by
  unfold Dev.returnBuf
  cases c with
  | none => rfl
  | some k =>
    dsimp only
    split <;> rfl

@[simp] theorem Dev.bufRefuse_clk (d : Dev) (st : Status) (h : BitVec 64) (u : UnitRef) : (d.bufRefuse st h u).clk = d.clk :=
  (Dev.ReportedTo.report _ _ _ _ _).clk

@[simp] theorem Dev.bufFree_clk (d : Dev) (h : BitVec 64) (u : UnitRef) : (d.bufFree h u).clk = d.clk := by
  unfold Dev.bufFree
  split
  · exact d.bufRefuse_clk _ h u
  · split
    · exact d.bufRefuse_clk _ h u
    · split
      · exact d.bufRefuse_clk _ h u
      · split
        · exact d.returnBuf_clk _ _
        · rfl

@[simp] theorem Dev.bufRelease_clk (d : Dev) (h : BitVec 64) (u : UnitRef) : (d.bufRelease h u).clk = d.clk := by
  unfold Dev.bufRelease
  split
  · exact d.bufRefuse_clk _ h u
  · split
    · exact d.bufRefuse_clk _ h u
    · split
      · exact d.bufRefuse_clk _ h u
      · split
        · exact d.returnBuf_clk _ _
        · rfl

@[simp] theorem Dev.freeUse_clk (d : Dev) (stack : Nat) (u : Use) : (d.freeUse stack u).clk = d.clk :=
  foldl_clk (fun d (b : Buf) => d.bufFree_clk b.handle b.lastOwner) _ _

@[simp] theorem Dev.releaseUse_clk (d : Dev) (stack : Nat) (u : Use) (unit : UnitRef) : (d.releaseUse stack u unit).clk = d.clk :=
  foldl_clk (fun d (b : Buf) => d.bufRelease_clk b.handle unit) _ _

/-! ### Items and windows given up -/

@[simp] theorem Dev.freeItem_clk (d : Dev) (i : ItemRef) : (d.freeItem i).clk = d.clk := by
  unfold Dev.freeItem
  split
  · rfl
  · exact (foldl_clk (fun d (b : Buf) => d.bufFree_clk b.handle b.lastOwner) _ _).trans (by simp)

@[simp] theorem Dev.freeStored_clk (d : Dev) (i : ItemRef) : (d.freeStored i).clk = d.clk := by
  unfold Dev.freeStored
  dsimp only
  split <;> simp

@[simp] theorem Dev.itemAbandon_clk (d : Dev) (i : ItemRef) : (d.itemAbandon i).clk = d.clk := by
  unfold Dev.itemAbandon
  split
  · dsimp only
    split <;> simp
  · rfl

@[simp] theorem Dev.abandonWhere_clk (d : Dev) (h rank : Nat) (p : Entry → Bool) : (d.abandonWhere h rank p).clk = d.clk := by
  unfold Dev.abandonWhere
  split
  · exact foldl_clk (fun d (e : Entry) => d.itemAbandon_clk (e.ref h rank)) _ _
  · rfl

@[simp] theorem Dev.dropFetch_clk (d : Dev) (i : ItemRef) : (d.dropFetch i).clk = d.clk := by
  unfold Dev.dropFetch
  dsimp only
  split
  · split <;> rfl
  · rfl

@[simp] theorem Dev.dropWindow_clk (d : Dev) (job rank : Nat) : (d.dropWindow job rank).clk = d.clk := by
  unfold Dev.dropWindow
  split
  · rfl
  · refine (Dev.abandonWhere_clk _ _ _ _).trans (foldl_clk (fun d e => ?_) _ _)
    dsimp only
    split
    · exact d.dropFetch_clk _
    · rfl

end Sys2Proof.Machine
end

section
/-! PROOFS. Deliveries (R56, R102, R103, R304, R308, R318, R322): delivery ticks, cutoffs, final writes, and parcels held too long. -/

namespace Sys2Proof.Machine

open Sys2Proof

/-! ### Delivery ticks and cutoffs (R102, R103) -/

theorem exec_deliveryTick (die : Nat) (s : State) : exec (.deliveryTick die) s = .next (s.put (deliveryTickEffect die s.mem s.dev)) := rfl

theorem exec_expressCutoff (die : Nat) (s : State) : exec (.expressCutoff die) s = .next (s.put (expressCutoffEffect die s.mem s.dev)) := rfl

/-- A die in service, at a tick it has not served yet. -/
theorem tick_due {up : Bool} {last tick : Nat} (hu : up = true) (ht : last < tick) : ¬(up = false ∨ tick ≤ last) := by
  rw [hu, not_or]
  exact ⟨nofun, Nat.not_le.2 ht⟩

section Ticks

variable {die : Nat} {m : Mem} {d : Dev}

theorem deliveryTickEffect_due (hu : d.dieUp die = true) (ht : (d.die die).lastDelivery < d.clk.dieTick.getD die 0) :
    deliveryTickEffect die m d =
      (d.jobs.filter fun j => j.isDelivery (d.clk.dieTick.getD die 0)).foldl
        (fun (d' : Dev) (j : Job) => (j.ranksOn die).foldl (fun (d' : Dev) (r : Rank) => d'.deliverRank m j (d.clk.dieTick.getD die 0) r) d')
        (d.onDie die fun x => { x with lastDelivery := d.clk.dieTick.getD die 0 }) :=
  if_neg (tick_due hu ht)

theorem expressCutoffEffect_due (hu : d.dieUp die = true) (ht : (d.die die).lastCutoff < d.clk.dieTick.getD die 0) :
    expressCutoffEffect die m d =
      (d.jobs.filter fun j => j.express && j.isDelivery (d.clk.dieTick.getD die 0 + 1)).foldl
        (fun (d' : Dev) (j : Job) => (j.ranksOn die).foldl (fun (d' : Dev) (r : Rank) => d'.onRank j.handle r.rank fun r => r.cutoff j) d')
        (d.onDie die fun x => { x with lastCutoff := d.clk.dieTick.getD die 0 }) :=
  if_neg (tick_due hu ht)

end Ticks

/-! ### The next parcel of a rank (R102) -/

section Next

variable {d : Dev} {j : Job} {r : Rank} {rank tick : Nat} {es : List Entry} (hr : d.rank j.handle rank = some r)
  (hm : r.nextStep < j.mapEnd) (hd : r.dormant = false) (hs : r.starved = false)
include hr hm hd hs

theorem deliverNext_incomplete (hc : r.complete j.b = none) : d.deliverNext j rank tick = d.slip j.handle rank false := by
  simp only [Dev.deliverNext, hr, Nat.not_le.2 hm, hd, hs, hc, Bool.false_eq_true, if_false]

theorem deliverNext_released (hc : r.complete j.b = some es) (ho : j.epochOpen r.nextStep tick = true) (hroom : r.held.length < r.prParcels) :
    d.deliverNext j rank tick = d.releaseParcel j r es (tick - j.t0) := by
  simp only [Dev.deliverNext, hr, Nat.not_le.2 hm, hd, hs, hc, ho, Nat.not_le.2 hroom, Bool.false_eq_true, Bool.true_eq_false, if_false]

end Next

/-! ### FINAL_WRITE_ACK (R56, R318, R322) -/

theorem exec_finalWriteAck (job rank step : Nat) (s : State) :
    exec (.finalWriteAck job rank step) s = .next (s.put (finalWriteAckEffect job rank step s.mem s.dev)) := rfl

/-- The parcel at the cursor of a job without a stop step: its buffer is freed and it counts as delivered. -/
theorem finalWriteAckEffect_delivered {job rank step : Nat} {m : Mem} {d : Dev} {j : Job} {r : Rank} {p : Parcel}
    (hj : d.job job = some j) (hr : d.rank job rank = some r) (hp : (r.parcels.find? fun x => x.step == step && x.acked) = some p)
    (hc : step = r.cursor) (hd : j.delivers = true) (hs : j.stopStep = none) :
    finalWriteAckEffect job rank step m d =
      (d.freeUse r.die (.parcel job rank step)).onRank job rank fun r => r.delivered p := by
  have hgo : ¬(step ≠ r.cursor ∨ j.delivers = false) := by
    rw [hd, not_or]
    exact ⟨fun h => h hc, nofun⟩
  simp only [finalWriteAckEffect, hj, hr, hp, hgo, if_false, hs, Option.any_none, Bool.or_false]
  rfl

/-- The counters and sums of a delivered parcel, the lowest step of a run without a delivery being the parcel's own. -/
theorem Rank.delivered_eq (r : Rank) (p : Parcel) : r.delivered p = { r with
    cursor := p.step + 1
    parcels := r.parcels.filter fun x => x.step != p.step
    parcel := { r.parcel with delivered := r.parcel.delivered + 1, slotsFailed := r.parcel.slotsFailed + p.slotsFailed }
    runDepSlots := r.runDepSlots + p.runDep
    parcelCount := r.parcelCount + 1
    parcelSum := r.parcelSum + deliveryTerm "PSUM" r.rank p.step p.crc
    stepLow := some ((r.stepLow.map (min · p.step)).getD p.step)
    stepHigh := max r.stepHigh p.step } := by
  unfold Rank.delivered
  cases r.stepLow <;> rfl

/-! ### PR_HOLD_EXPIRY (R308) -/

theorem exec_prHoldExpiry (job rank : Nat) (s : State) :
    exec (.prHoldExpiry job rank) s = .next (s.put (prHoldExpiryEffect job rank s.mem s.dev)) := rfl

/-- A rank is found under its number after a change that keeps the number. -/
theorem Dev.onRank_rank (d : Dev) (h r : Nat) (f : Rank → Rank) (k : ∀ x, (f x).rank = x.rank) :
    (d.onRank h r f).rank h r = (d.rank h r).map f := by
  unfold Dev.rank Dev.onRank
  rw [Dev.onJob_job d h (fun j => j.onRank r f) fun _ => rfl]
  cases d.job h with
  | none => rfl
  | some j => exact find_updWhere _ _ _ fun x e => by simpa [k] using e

/-- A rank as its held parcels run out: they are gone, and it is dormant. -/
def Rank.expired (r : Rank) : Rank :=
  { r with
    parcels := r.parcels.filter fun p => p.heldSince.isNone
    parcel := { r.parcel with prExpired := r.parcel.prExpired + r.held.length }
    bufferedTo := r.nextStep
    dormant := true }

theorem Rank.expired_held (r : Rank) : r.expired.held = [] := by
  have hno : ∀ p ∈ r.parcels.filter fun p => p.heldSince.isNone, ¬p.heldSince.isSome = true := fun p hp => by
    simpa using (List.mem_filter.1 hp).2
  exact List.filter_eq_nil_iff.2 hno

/-- What an expiry leaves: the rank expired, and the time not gone back. -/
theorem prHoldExpiryEffect_expires {job rank t : Nat} {m : Mem} {d : Dev} {j : Job} {r : Rank} (hj : d.job job = some j)
    (hr : d.rank job rank = some r) (ht : (r.held.head?).bind (·.heldSince) = some t) :
    ∃ d' : Dev, prHoldExpiryEffect job rank m d = d'.onRank job rank Rank.expired ∧ d.now ≤ d'.now := by
  simp only [prHoldExpiryEffect, hj, hr, ht]
  refine ⟨_, rfl, ?_⟩
  rw [Dev.now, Dev.now, Dev.dropWindow_clk, foldl_clk fun d step => d.freeUse_clk r.die (.parcel job rank step)]
  exact Nat.le_max_left _ _

/-! ### The statement -/

/-- Settles O16: each event by the branch of its effect that the clause's conditions select. -/
theorem deliveryEvents : Obligations.DeliveryEvents := by
  unfold Obligations.DeliveryEvents
  refine ⟨fun die s hu ht => ?_, fun d j r rank tick hr hm hd hs => ⟨fun hc => ?_, fun es hc ho hroom => ?_⟩, fun die s hu ht => ?_,
    fun job rank step j r p s hj hr hp hc hd hs => ?_, fun job rank t j r s hj hr ht => ?_⟩
  · rw [exec_deliveryTick, deliveryTickEffect_due hu ht]
  · rw [deliverNext_incomplete hr hm hd hs hc]
    rfl
  · exact deliverNext_released hr hm hd hs hc ho hroom
  · rw [exec_expressCutoff, expressCutoffEffect_due hu ht]
  · rw [exec_finalWriteAck, finalWriteAckEffect_delivered hj hr hp hc hd hs]
    simp only [Rank.delivered_eq]
  · obtain ⟨d', hd', hnow⟩ := prHoldExpiryEffect_expires (m := s.mem) hj hr ht
    refine ⟨_, exec_prHoldExpiry job rank s, ?_, fun r' hr' => ?_⟩
    · rw [hd']
      exact hnow
    · rw [hd'] at hr'
      have hmap := (Dev.onRank_rank d' job rank Rank.expired fun _ => rfl).symm.trans hr'
      obtain ⟨x, -, rfl⟩ := Option.map_eq_some_iff.1 hmap
      exact ⟨rfl, x.expired_held⟩

end Sys2Proof.Machine
end

section
/-! PROOFS. Local reads and buffer grants (R93, R94, R115, R210, R497). -/

namespace Sys2Proof.Machine

open Sys2Proof

/-! ### LOCAL_READ_ISSUE (R94, R115) -/

theorem exec_localReadIssue (die : Nat) (s : State) :
    exec (.localReadIssue die) s = .next (s.put (localReadIssueEffect die s.mem s.dev)) := rfl

section Issue

variable {die b : Nat} {x : Pending} {o : Obj} {e : Entry} {m : Mem} {d d' : Dev}

theorem localReadIssueEffect_idle (h : d.nextLocal die = none) : localReadIssueEffect die m d = d := by
  simp only [localReadIssueEffect, h, ite_self]

/-- The next read, its stored-bytes buffer held: READ_ISSUED, and a read of its object with the store. -/
theorem localReadIssueEffect_granted (hu : d.dieUp die = true) (hn : d.nextLocal die = some (b, x))
    (ho : (d.onFetch die fun f => { f with lastBucket := some b }).sampleObject x.item = some o)
    (he : (d.onFetch die fun f => { f with lastBucket := some b }).entry x.item = some e)
    (hb : (d.onFetch die fun f => { f with lastBucket := some b }).storedBuffer x.item e.storedLen = (d', true)) :
    localReadIssueEffect die m d = (d'.onEntry x.item fun e => { e with state := .readIssued }).onStore fun st => { st with
      reads := st.reads ++ [{ number := d'.store.nextOp, cell := o.firstCell, item := some x.item, id := o.id, full := e.rereads != 0 }]
      nextOp := st.nextOp + 1 } := by
  simp only [localReadIssueEffect, hu, hn, ho, he, hb, Bool.true_eq_false, if_false]
  rfl

end Issue

/-! ### STORE_READ_COMPLETE (R210) -/

theorem exec_storeReadComplete (i : ItemRef) (ok : Bool) (st : Status) (s : State) :
    exec (.storeReadComplete i ok st) s = .next (s.put (storeReadCompleteEffect i ok st s.mem s.dev)) := rfl

/-- The store with the reads of an item dropped. -/
def Dev.dropReads (d : Dev) (i : ItemRef) : Dev := d.onStore fun st => { st with reads := st.reads.filter fun x => x.item != some i }

theorem readObj_intact {d : Dev} {o : Obj} (h : d.store.objReads o = some 0) :
    d.readObj o = (.ok o.stored, d.onCtrs (d.servingDie (partitionOf o.id)) fun c => c) := by
  simp only [Dev.readObj, h, Nat.add_zero]

section Complete

variable {i : ItemRef} {e : Entry} {st : Status} {m : Mem} {d : Dev} {o : Obj} (hr : ∃ x ∈ d.store.reads, x.item = some i)
  (he : d.entry i = some e) (hs : e.state = .readIssued)
include hr he hs

/-- The event's condition holds for an item that waits for its read. -/
theorem read_waited :
    ¬((d.store.reads.any fun x => x.item == some i) = false ∨ (d.entry i).all (fun e => e.state != .readIssued) = true) := by
  simpa [he, hs] using hr

theorem storeReadCompleteEffect_failed :
    storeReadCompleteEffect i false st m d = (d.dropReads i).itemFail i { status := St.SRT_LOCAL_READ, detail := st.toNat } := by
  simp only [storeReadCompleteEffect, read_waited hr he hs, if_false, if_true, Dev.localFailed, Dev.dropReads]

theorem storeReadCompleteEffect_stored (ho : (d.dropReads i).sampleObject i = some o) (hread : (d.dropReads i).store.objReads o = some 0) :
    storeReadCompleteEffect i true st m d =
      ((d.dropReads i).onCtrs ((d.dropReads i).servingDie (partitionOf o.id)) fun c => c).toStored i o.stored := by
  have hrun := readObj_intact hread
  unfold Dev.dropReads at ho hrun
  simp only [storeReadCompleteEffect, read_waited hr he hs, ho, hrun, Bool.true_eq_false, if_false, Dev.dropReads]

theorem storeReadCompleteEffect_no_object (ho : (d.dropReads i).sampleObject i = none) :
    storeReadCompleteEffect i true st m d =
      (d.dropReads i).itemFail i { status := St.SRT_LOCAL_READ, detail := St.STO_NO_OBJECT.toNat } := by
  unfold Dev.dropReads at ho
  simp only [storeReadCompleteEffect, read_waited hr he hs, ho, Bool.true_eq_false, if_false, Dev.localFailed, Dev.dropReads]

end Complete

/-! ### BUFFER_GRANT (R497) -/

theorem exec_bufferGrant (stack : Nat) (s : State) :
    exec (.bufferGrant stack) s = .next (s.put (bufferGrantEffect stack s.mem s.dev)) := rfl

/-! ### The statement -/

/-- Settles O42: each event by the branch of its effect that the clause's conditions select. -/
theorem localReads : Obligations.LocalReads := by
  unfold Obligations.LocalReads
  refine ⟨fun die s hu => ⟨fun hn => ?_, fun b x o e d hn ho he hb => ?_⟩,
    fun i e st s hr he hs => ⟨?_, fun o ho hread => ?_, fun ho => ?_⟩, fun stack s => ⟨fun hn => ?_, fun w hw => ?_⟩⟩
  · rw [exec_localReadIssue, localReadIssueEffect_idle hn]
  · rw [exec_localReadIssue, localReadIssueEffect_granted hu hn ho he hb]
  · rw [exec_storeReadComplete, storeReadCompleteEffect_failed hr he hs]
    rfl
  · rw [exec_storeReadComplete, storeReadCompleteEffect_stored hr he hs ho hread]
    rfl
  · rw [exec_storeReadComplete, storeReadCompleteEffect_no_object hr he hs ho]
    rfl
  · simp only [exec_bufferGrant, bufferGrantEffect, hn]
  · simp only [exec_bufferGrant, bufferGrantEffect, hw]

end Sys2Proof.Machine
end

section
/-! PROOFS. Configuration changes (R134, R136 to R138, R588): staged, prepared, withdrawn, committed. -/

namespace Sys2Proof.Machine

open Sys2Proof

/-! ### DEV_STAGE_CONFIG (R134, R136, R588) -/

section Stage

variable {p : Nat} {b : Bytes} {m : Mem} {d : Dev} {j : Job} {st : Status}

theorem devStageConfigRun_refused (hj : d.job (fld b 0 4) = some j) (hr : d.stageRefusal j b = some st) :
    devStageConfigRun p b m d = d.answer p (fail st) := by
  simp only [devStageConfigRun, hj, hr]

theorem devStageConfigRun_staged (hj : d.job (fld b 0 4) = some j) (hr : d.stageRefusal j b = none) :
    devStageConfigRun p b m d = d.onJob j.handle fun j' => { j' with
      staged := some { id := fld b 4 4, mask := fld b 8 4, conf := stagedConf d j b, waiting := d.stageUnits j, ph := some p,
                       at_ := d.now } } := by
  simp only [devStageConfigRun, hj, hr]

/-- Of a running job with no change under way, the fields a change names decide first. -/
theorem stageRefusal_mask (hs : j.state = .running) (hx : j.stamp ≠ 0xFFFFFFFF) (hn : j.staged = none) (ho : j.oldLive = false)
    (hm : maskRefusal (fld b 8 4) = some st) : d.stageRefusal j b = some st := by
  simp only [Dev.stageRefusal, hs, hx, hn, ho, hm, ne_eq, not_true_eq_false, Option.isSome_none, Bool.false_eq_true, or_self, if_false]

end Stage

section Mask

variable {mask : Nat}

theorem maskRefusal_zero : maskRefusal 0 = some St.PGH_FIELD := rfl

/-- MODE, JOB_TAG and TICK_MULT stay as they are. -/
theorem maskRefusal_fixed_for_life (h : bits mask 5 3 ≠ 0) : maskRefusal mask = some St.RTE_STAGE_FIELD := by
  have hmask : mask ≠ 0 := by
    rintro rfl
    exact h rfl
  simp only [maskRefusal, hmask, h, ne_eq, not_false_eq_true, if_false, if_true]

/-- SEED, W, B, EPOCHS, the dataset and the node map stay as they are. -/
theorem maskRefusal_shard (h : bits mask 5 3 = 0) (h' : bits mask 11 6 ≠ 0) : maskRefusal mask = some St.SRT_SHARD_FIXED := by
  have hmask : mask ≠ 0 := by
    rintro rfl
    exact h' rfl
  simp only [maskRefusal, hmask, h, h', ne_eq, not_true_eq_false, not_false_eq_true, if_false, if_true]

end Mask

/-! ### A change withdrawn, and PREPARE_REPORT (R136) -/

section Prepare

variable {job unit p : Nat} {m : Mem} {d : Dev} {j : Job} {x : Staged} {last st : Status}

/-- A change whose prepare a command waits for, and which no commit names: the job keeps its stamp, and the command answers. -/
theorem withdraw_uncommitted (hx : j.staged = some x) (hp : x.ph = some p) (hc : x.commit = none) :
    d.withdraw j last st = (d.onJob j.handle fun j => { j with
      staged := none, lastStageStatus := last, lastStageId := x.id }).answer p (fail st) := by
  simp only [Dev.withdraw, hx, hp, hc, Dev.answerTo]

theorem exec_prepareReport (job unit : Nat) (ok : Bool) (s : State) :
    exec (.prepareReport job unit ok) s = .next (s.put (prepareReportEffect job unit ok s.mem s.dev)) := rfl

theorem prepareReportEffect_failed (hj : d.job job = some j) (hx : j.staged = some x) (hp : x.ph = some p) (hu : unit ∈ x.waiting) :
    prepareReportEffect job unit false m d = d.withdraw j St.RTE_PREPARE_FAILED St.RTE_PREPARE_FAILED := by
  simp only [prepareReportEffect, hj, hx, hp, List.contains_iff_mem.2 hu, Option.isNone_some, Bool.false_eq_true, Bool.true_eq_false,
    if_false, if_true]

theorem prepareReportEffect_prepared (hj : d.job job = some j) (hx : j.staged = some x) (hp : x.ph = some p) (hu : unit ∈ x.waiting)
    (hr : d.prepareRefusal j x = none) : prepareReportEffect job unit true m d = d.unitPrepared j x unit := by
  simp only [prepareReportEffect, hj, hx, hp, hr, List.contains_iff_mem.2 hu, Option.isNone_some, Bool.false_eq_true, Bool.true_eq_false,
    if_false]

/-- The last unit of those waited for: the windows' sizes are reserved, and the command answers with the stamp. -/
theorem unitPrepared_last (hp : x.ph = some p) (hl : ∀ u ∈ x.waiting, u = unit) :
    d.unitPrepared j x unit = (d.onJob j.handle fun j' => { j' with
      staged := some { x with
        waiting := []
        ph := none
        sizes := if bit x.mask 2 then (d.windows j x.conf.lookahead).getD [] else [] }
      lastStageStatus := St.SUCCESS }).answer p { body := le 4 j.stamp } := by
  have hleft : x.waiting.filter (· != unit) = [] := List.filter_eq_nil_iff.2 fun u hu => by simp [hl u hu]
  simp only [Dev.unitPrepared, hleft, hp, List.isEmpty_nil, if_true, Dev.answerTo]

theorem exec_prepareTimeout (job : Nat) (s : State) :
    exec (.prepareTimeout job) s = .next (s.put (prepareTimeoutEffect job s.mem s.dev)) := rfl

theorem prepareTimeoutEffect_waited (hj : d.job job = some j) (hx : j.staged = some x) (hp : x.ph = some p) :
    prepareTimeoutEffect job m d =
      (d.until (x.at_ + 500000000)).withdraw j St.RTE_PREPARE_FAILED St.RTE_PREPARE_FAILED := by
  simp only [prepareTimeoutEffect, hj, hx, hp, Option.isNone_some, Bool.false_eq_true, if_false]

end Prepare

/-! ### DEV_COMMIT_CONFIG and CONFIG_COMMIT (R137, R138) -/

section Commit

variable {p : Nat} {b : Bytes} {m : Mem} {d : Dev} {j : Job} {x : Staged} {st : Status}

theorem devCommitConfigRun_refused (hj : d.job (fld b 0 4) = some j) (hr : d.commitRefusal j b = some st) :
    devCommitConfigRun p b m d = d.answer p (fail st) := by
  simp only [devCommitConfigRun, hj, hr]

theorem devCommitConfigRun_accepted (hj : d.job (fld b 0 4) = some j) (hx : j.staged = some x) (hr : d.commitRefusal j b = none) :
    devCommitConfigRun p b m d =
      d.onJob j.handle fun j' => { j' with staged := some { x with commit := some (fld b 8 8, fld b 16 8, p) } } := by
  simp only [devCommitConfigRun, hj, hx, hr]

section Refusals

variable (hs : j.state = .running) (he : fld b 16 8 ≠ 0 ∨ j.express = true) (hk : fld b 16 8 = 0 ∨ fld b 16 8 % 2 ^ 48 < j.k)
include he hk

/-- The cursor of a commit passes: 0 for a job of mode EXPRESS, or one within an epoch. -/
theorem commit_cursor_passes : ¬((fld b 16 8 = 0 ∧ j.express = false) ∨ (fld b 16 8 ≠ 0 ∧ j.k ≤ fld b 16 8 % 2 ^ 48)) := by
  rintro (⟨hz, hx⟩ | ⟨hnz, hle⟩)
  · exact he.elim (fun h => h hz) fun h => absurd (h.symm.trans hx) nofun
  · exact hk.elim (fun h => hnz h) fun h => absurd hle (Nat.not_le.2 h)

variable (hx : j.staged = some x)
include hs hx

theorem commitRefusal_other_id (hid : x.id ≠ fld b 4 4) : d.commitRefusal j b = some St.RTE_NO_STAGED := by
  simp only [Dev.commitRefusal, hs, commit_cursor_passes he hk, hx, hid, ne_eq, not_true_eq_false, not_false_eq_true, true_or, or_true,
    if_false, if_true]

theorem commitRefusal_out_of_range (hp : x.ph = none) (hc : x.commit = none) (hid : x.id = fld b 4 4)
    (ht : fld b 8 8 < d.clk.tick + 2 ∨ 10000000000 < (fld b 8 8 - d.clk.tick) * d.clk.period * 10) :
    d.commitRefusal j b = some St.RTE_COMMIT_RANGE := by
  simp only [Dev.commitRefusal, hs, commit_cursor_passes he hk, hx, hp, hc, hid, ht, ne_eq, not_true_eq_false, Option.isSome_none,
    Bool.false_eq_true, or_self, if_false, if_true]

end Refusals

theorem exec_configCommit (job : Nat) (s : State) : exec (.configCommit job) s = .next (s.put (configCommitEffect job s.mem s.dev)) := rfl

theorem configCommitEffect_due {job tick cur : Nat} (hj : d.job job = some j) (hx : j.staged = some x)
    (hc : x.commit = some (tick, cur, p)) (ht : tick ≤ d.clk.tick) :
    configCommitEffect job m d = ((d.commit j x cur).releaseOlds job).answer p { body := le 4 (j.stamp + 1) } := by
  simp only [configCommitEffect, hj, hx, hc, Nat.not_lt.2 ht, if_false]

end Commit

/-! ### The statements -/

/-- Settles O14: each command and event by the lemma of the branch the clause's conditions select. -/
theorem configurationChanges : Obligations.ConfigurationChanges := by
  unfold Obligations.ConfigurationChanges
  refine ⟨fun p frame j s h hj hr => ?_, fun job unit p j x s hj hx hp hu => ⟨fun hc => ?_, fun hr hl => ?_⟩,
    fun job p j x s hj hx hp hc => ?_, fun p frame j x s h hj hx hr => ?_, fun job tick cur p j x s hj hx hc ht => ?_⟩
  · exact exec_accepted rfl h (devStageConfigRun_staged (m := s.mem) hj hr)
  · rw [exec_prepareReport, prepareReportEffect_failed hj hx hp hu, withdraw_uncommitted hx hp hc]
    rfl
  · rw [exec_prepareReport, prepareReportEffect_prepared hj hx hp hu hr, unitPrepared_last hp hl]
  · rw [exec_prepareTimeout, prepareTimeoutEffect_waited hj hx hp, withdraw_uncommitted hx hp hc]
    rfl
  · exact exec_accepted rfl h (devCommitConfigRun_accepted (m := s.mem) hj hx hr)
  · rw [exec_configCommit, configCommitEffect_due hj hx hc ht]

/-- Settles O15: each refusal is the first that applies, and the frame is answered with it alone. -/
theorem stagedChangeRefusals : Obligations.StagedChangeRefusals := by
  unfold Obligations.StagedChangeRefusals
  refine ⟨fun p frame j s h hj hs hst hn ho => ?_, fun p frame j x s h hj hs he hk hx hp hc => ⟨fun hid => ?_, fun hid ht => ?_⟩⟩
  · have hrefused : ∀ st, maskRefusal (fld (devStageConfigOp.bodyOf p frame s.dev) 8 4) = some st →
        exec (.devStageConfig p frame) s = .next (s.put ((s.dev.rung p frame).answer p (fail st))) := fun st hm =>
      exec_accepted rfl h (devStageConfigRun_refused (m := s.mem) hj (stageRefusal_mask hs hst hn ho hm))
    exact ⟨fun hz => hrefused _ (by rw [hz, maskRefusal_zero]), fun h5 => hrefused _ (maskRefusal_fixed_for_life h5),
      fun h5 h11 => hrefused _ (maskRefusal_shard h5 h11)⟩
  · exact exec_accepted rfl h (devCommitConfigRun_refused (m := s.mem) hj (commitRefusal_other_id hs he hk hx hid))
  · exact exec_accepted rfl h (devCommitConfigRun_refused (m := s.mem) hj (commitRefusal_out_of_range hs he hk hx hp hc hid ht))

end Sys2Proof.Machine
end

section
/-! PROOFS. Routes, vocabularies and grammars (R117, R118, R240 to R242, R268, R275, R590): loaded, checked, unloaded. -/

namespace Sys2Proof.Machine

open Sys2Proof

/-! ### The request area -/

/-- A field within a field. -/
theorem cut_cut (b : Bytes) {off len a n : Nat} (h : a + n ≤ len) : cut (cut b off len) a n = cut b (off + a) n := by
  simp only [cut, List.drop_take, List.take_take, List.drop_drop, Nat.min_eq_left (show n ≤ len - a by omega)]

theorem cut_eq_drop_take (b : Bytes) (a n : Nat) : cut b a n = (b.take (a + n)).drop a := by
  rw [cut, List.drop_take, Nat.add_sub_cancel_left]

/-- Bytes written at the start of the request area, which holds 4096, read back. -/
theorem cut_fit_append {a n : Nat} (x y : Bytes) (h : a + n ≤ x.length) (h' : a + n ≤ 4096) :
    cut (fit 4096 (x ++ y)) a n = cut x a n := by
  have hlen : a + n ≤ ((x ++ y).take 4096).length := by
    rw [List.length_take, List.length_append]
    omega
  rw [cut_eq_drop_take, cut_eq_drop_take, fit, List.take_append_of_le_length hlen, List.take_take, Nat.min_eq_left h',
    List.take_append_of_le_length h]

theorem requestAt_of_lt {d : Dev} {p : Nat} (frame : Bytes) (h : p < d.pgh.length) :
    d.requestAt p frame = fit 4096 (frame ++ (d.hole p).request.drop frame.length) := by
  have h' : p < (d.requestWritten p frame).pgh.length := by simpa [Dev.requestWritten] using h
  unfold Dev.requestAt Dev.rung Dev.holeTaken
  rw [Dev.onHole_self _ p _ h', Dev.requestWritten, Dev.onHole_self d p _ h]

theorem requestAt_of_not_lt {d : Dev} {p : Nat} (frame : Bytes) (h : ¬p < d.pgh.length) : d.requestAt p frame = [] := by
  simp [Dev.requestAt, Dev.rung, Dev.holeTaken, Dev.requestWritten, Dev.onHole, Dev.hole, List.getD_eq_getElem?_getD, h]

/-- The KIND of an unload request is the first byte of its body. -/
theorem vocabUnload_kind_zero {d : Dev} {p : Nat} {frame : Bytes} (hl : 33 ≤ frame.length) (hk : unloadKind frame = 0) :
    fld (vocabUnloadOp.bodyOf p frame d) 0 1 = 0 := by
  by_cases h : p < d.pgh.length
  · have hbyte : fld (vocabUnloadOp.bodyOf p frame d) 0 1 = unloadKind frame := by
      rw [PghOp.bodyOf, fld, cut_cut _ (by decide), requestAt_of_lt frame h, cut_fit_append _ _ hl (by decide)]
      rfl
    rw [hbyte, hk]
  · rw [PghOp.bodyOf, requestAt_of_not_lt frame h]
    rfl

/-! ### ROUTE_LOAD, ROUTE_VALIDATE, ROUTE_UNLOAD (R117, R118) -/

section Routes

variable {p : Nat} {b bin : Bytes} {m : Mem} {d : Dev} {st : Status} {stage format : Nat}

section Load

variable (hb : d.binaryIn m p (hostBuf b 0) = .ok bin)
include hb

theorem routeLoadRun_resident (hr : (d.route (sha256 bin)).isSome = true) : routeLoadRun p b m d = d.answer p { body := sha256 bin } := by
  simp only [routeLoadRun, hb, hr, if_true]

theorem routeLoadRun_passed (hr : d.route (sha256 bin) = none) (hc : routeCheck d.semantics (decide (64 ≤ d.routes.length)) bin = none) :
    routeLoadRun p b m d =
      ({ d with routes := d.routes ++ [{ digest := sha256 bin, binary := bin }] } : Dev).answer p { body := sha256 bin } := by
  simp only [routeLoadRun, hb, hr, hc, Option.isSome_none, Bool.false_eq_true, if_false]

theorem routeLoadRun_refused (hr : d.route (sha256 bin) = none)
    (hc : routeCheck d.semantics (decide (64 ≤ d.routes.length)) bin = some (st, stage, format)) :
    routeLoadRun p b m d = d.answer p (fail st (stage + format * 65536)) := by
  simp only [routeLoadRun, hb, hr, hc, routeDetail, Option.isSome_none, Bool.false_eq_true, if_false]

theorem routeValidateRun_passed (hc : routeCheck d.semantics false bin = none) :
    routeValidateRun p b m d = d.answer p { body := sha256 bin } := by
  simp only [routeValidateRun, hb, hc]

theorem routeValidateRun_refused (hc : routeCheck d.semantics false bin = some (st, stage, format)) :
    routeValidateRun p b m d = d.answer p (fail st (stage + format * 65536)) := by
  simp only [routeValidateRun, hb, hc, routeDetail]

end Load

theorem routeUsed_iff {dg : Bytes} : d.routeUsed dg = true ↔ ∃ j ∈ d.jobs, ∃ c ∈ j.confs, c.routeDigest = dg := by
  simp [Dev.routeUsed]

theorem routeUnloadRun_used (h : d.routeUsed (cut b 0 32) = true) : routeUnloadRun p b m d = d.answer p (fail St.RTE_ROUTE_IN_USE) :=
  if_pos h

theorem routeUnloadRun_unused (h : ¬d.routeUsed (cut b 0 32) = true) :
    routeUnloadRun p b m d = ({ d with routes := d.routes.filter fun r => r.digest != cut b 0 32 } : Dev).answer p {} :=
  if_neg h

end Routes

/-! ### VOCAB_LOAD and VOCAB_UNLOAD (R240 to R242) -/

section Vocabs

variable {p slot : Nat} {b : Bytes} {m : Mem} {d : Dev} {v : Vocab}

theorem vocabLoadRun_other_digest (h : sha256 (d.objectBytes (fld b 0 16)) ≠ cut b 16 32) :
    vocabLoadRun p b m d = d.answer p (fail St.TOK_VOCAB_DIGEST) :=
  if_pos h

/-- The lowest slot that holds nothing is the first of the sixteen that does not. -/
theorem find_free_vocab_slot (hs : slot < 16) (hf : d.vocabAt slot = none) (hl : ∀ k < slot, d.vocabAt k ≠ none) :
    (List.range 16).find? (fun s => (d.vocabAt s).isNone) = some slot := by
  rw [List.find?_range_eq_some]
  exact ⟨by simp [hf], by simpa using hs, fun k hk => by simpa [Option.isSome_iff_ne_none] using hl k hk⟩

theorem vocabLoadRun_taken (hg : sha256 (d.objectBytes (fld b 0 16)) = cut b 16 32)
    (hv : d.vocab (sha256 (d.objectBytes (fld b 0 16))) = none)
    (hr : vocabRefusal (d.objectBytes (fld b 0 16)) = none) (hs : (List.range 16).find? (fun s => (d.vocabAt s).isNone) = some slot)
    (hp : d.pinRoom (fld b 0 16) = true) :
    let image := d.objectBytes (fld b 0 16)
    let r := ({ d with vocabs := d.vocabs ++
      [{ slot := slot, digest := sha256 image, object := fld b 0 16, image := image }] } : Dev).pin (fld b 0 16)
    vocabLoadRun p b m d = r.1.answerAfter p { body := le 1 slot } r.2 := by
  intro image r
  have hdiff : ¬sha256 (d.objectBytes (fld b 0 16)) ≠ cut b 16 32 := not_not_intro hg
  simp only [vocabLoadRun, hdiff, hv, hr, hs, hp, Bool.true_eq_false, if_false]
  rfl

section Unload

variable (hk : fld b 0 1 = 0) (hv : d.vocabAt (fld b 4 4) = some v)
include hk hv

theorem vocabUnloadRun_used (h : d.vocabUsed v = true) : vocabUnloadRun p b m d = d.answer p (fail St.TOK_VOCAB_IN_USE) := by
  simp only [vocabUnloadRun, hk, hv, h, ne_eq, not_true_eq_false, if_false, if_true]

theorem vocabUnloadRun_unused (h : d.vocabUsed v = false) :
    vocabUnloadRun p b m d = ({ (d.unpin v.object).1 with
      vocabs := (d.unpin v.object).1.vocabs.filter fun x => x.slot != v.slot } : Dev).answerAfter p {} (d.unpin v.object).2 := by
  simp only [vocabUnloadRun, hk, hv, h, ne_eq, not_true_eq_false, Bool.false_eq_true, if_false]

end Unload

end Vocabs

/-! ### GRAMMAR_LOAD and its unload (R268, R275) -/

section Grammars

variable {p slot : Nat} {b : Bytes} {m : Mem} {d : Dev} {v : Vocab} {g : Grammar}

theorem grammarLoadRun_other_digest (h : sha256 (d.objectBytes (fld b 0 16)) ≠ cut b 16 32) :
    grammarLoadRun p b m d = d.answer p (fail St.GRM_IMAGE_BAD) :=
  if_pos h

/-- An image of a new digest, laid out well, whose vocabulary is resident and whose END_TOKEN is special. -/
theorem grammarLoadRun_checked (hg : sha256 (d.objectBytes (fld b 0 16)) = cut b 16 32)
    (hn : ∀ x ∈ d.grammars, x.digest ≠ sha256 (d.objectBytes (fld b 0 16)))
    (hl : (gramOf (d.objectBytes (fld b 0 16))).layoutOk (d.objectBytes (fld b 0 16)) = true)
    (hv : d.vocab (gramOf (d.objectBytes (fld b 0 16))).vocab = some v)
    (he : (vocOf v.image).isSpecial (gramOf (d.objectBytes (fld b 0 16))).endTok = true) :
    grammarLoadRun p b m d =
      d.grammarTake p (fld b 0 16) (sha256 (d.objectBytes (fld b 0 16))) (d.objectBytes (fld b 0 16)) (vocOf v.image) := by
  have hdiff : ¬sha256 (d.objectBytes (fld b 0 16)) ≠ cut b 16 32 := not_not_intro hg
  have hnew : d.grammars.find? (fun x => x.digest == sha256 (d.objectBytes (fld b 0 16))) = none := by
    simpa [List.find?_eq_none] using hn
  simp only [grammarLoadRun, hdiff, hnew, hl, hv, he, Bool.true_eq_false, if_false]

/-- A grammar quick enough, with a free slot and room for a pin: resident under its slot's next handle. -/
theorem grammarTake_taken {id : Nat} {dg image : Bytes} {x : Voc} (hq : (gramOf image).stepNs x ≤ 34000)
    (hs : freeSlot 256 (d.grammars.map (·.handle)) = some slot) (hp : d.pinRoom id = true) :
    let h := handleOf slot (d.gramGens.getD slot 0)
    let ns := (gramOf image).stepNs x
    let r := ({ d with grammars := d.grammars ++
      [{ handle := h, digest := dg, object := id, image := image, stepNs := ns }] } : Dev).pin id
    d.grammarTake p id dg image x = r.1.answerAfter p { body := le 4 h ++ le 4 ns } r.2 := by
  intro h ns r
  simp only [Dev.grammarTake, Nat.not_lt.2 hq, hs, hp, Bool.true_eq_false, if_false]
  rfl

/-- A constrained stream holds the grammar of a handle. -/
theorem grammar_held_iff {h : Nat} : (d.streams.any fun s => s.kind == 2 && s.grammar == h) = true ↔
    ∃ x ∈ d.streams, x.kind = 2 ∧ x.grammar = h := by
  simp

section Unload

variable (hg : d.grammar (fld b 4 4) = some g)
include hg

theorem grammarUnloadRun_used (h : ∃ x ∈ d.streams, x.kind = 2 ∧ x.grammar = fld b 4 4) :
    grammarUnloadRun p b m d = d.answer p (fail St.GRM_IN_USE) := by
  simp only [grammarUnloadRun, hg, grammar_held_iff, h, if_true]

theorem grammarUnloadRun_unused (h : ¬∃ x ∈ d.streams, x.kind = 2 ∧ x.grammar = fld b 4 4) :
    grammarUnloadRun p b m d = ({ (d.unpin g.object).1 with
      grammars := (d.unpin g.object).1.grammars.filter fun x => x.handle != fld b 4 4
      gramGens := (d.unpin g.object).1.gramGens.modify (slotOf (fld b 4 4)) fun n => (n + 1) % 2 ^ 22 } : Dev).answerAfter p {}
        (d.unpin g.object).2 := by
  simp only [grammarUnloadRun, hg, grammar_held_iff, h, if_false]

end Unload

end Grammars

/-! ### VOCAB_UNLOAD's two commands (Table 20.6) -/

theorem exec_vocabUnload {p : Nat} {frame : Bytes} {s : State} (hk : unloadKind frame ≠ 1) :
    exec (.vocabUnload p frame) s = .next (s.put (vocabUnloadOp.ring p frame s.mem s.dev)) :=
  congrArg (fun d => Host.Outcome.next (s.put d)) (if_neg hk)

theorem exec_grammarUnload {p : Nat} {frame : Bytes} {s : State} (hk : unloadKind frame = 1) :
    exec (.grammarUnload p frame) s = .next (s.put (grammarUnloadOp.ring p frame s.mem s.dev)) :=
  congrArg (fun d => Host.Outcome.next (s.put d)) (if_pos hk)

/-! ### The statement -/

/-- Settles O30: each command's run by the lemma of the branch the clause's conditions select. -/
theorem routeVocabularyGrammarCommands : Obligations.RouteVocabularyGrammarCommands := by
  unfold Obligations.RouteVocabularyGrammarCommands
  refine ⟨fun p frame bin s h hb => ⟨fun hr => ?_, fun hr hc => ?_, fun st stage format hr hc => ?_⟩,
    fun p frame bin s h hb => ⟨fun hc => ?_, fun st stage format hc => ?_⟩,
    fun p frame s h => ⟨fun hu => ?_, fun hu => ?_⟩,
    fun p slot frame s h => ⟨fun hg => ?_, fun hg hv hr hs hf hl hp => ?_⟩,
    fun p frame v s h hk hlen hv => ⟨fun hu => ?_, fun hu => ?_⟩,
    fun p slot frame v s h => ⟨fun hg => ?_, fun hg hn hl hv he hq hs hp => ?_⟩,
    fun p frame g s h hk hg => ⟨fun hu => ?_, fun hu => ?_⟩⟩
  · exact exec_accepted rfl h (routeLoadRun_resident hb hr)
  · exact exec_accepted rfl h (routeLoadRun_passed hb hr hc)
  · exact exec_accepted rfl h (routeLoadRun_refused hb hr hc)
  · exact exec_accepted rfl h (routeValidateRun_passed hb hc)
  · exact exec_accepted rfl h (routeValidateRun_refused hb hc)
  · exact exec_accepted rfl h (routeUnloadRun_used (m := s.mem) (routeUsed_iff.2 hu))
  · exact exec_accepted rfl h (routeUnloadRun_unused (m := s.mem) fun hx =>
      let ⟨j, hj, c, hc, he⟩ := routeUsed_iff.1 hx
      hu j hj c hc he)
  · exact exec_accepted rfl h (vocabLoadRun_other_digest (m := s.mem) hg)
  · exact exec_accepted rfl h (vocabLoadRun_taken (m := s.mem) hg hv hr (find_free_vocab_slot hs hf hl) hp)
  · exact exec_accepted (exec_vocabUnload (by simp [hk])) h (vocabUnloadRun_used (m := s.mem) (vocabUnload_kind_zero hlen hk) hv hu)
  · exact exec_accepted (exec_vocabUnload (by simp [hk])) h (vocabUnloadRun_unused (m := s.mem) (vocabUnload_kind_zero hlen hk) hv hu)
  · exact exec_accepted rfl h (grammarLoadRun_other_digest (m := s.mem) hg)
  · exact exec_accepted rfl h ((grammarLoadRun_checked (m := s.mem) hg hn hl hv he).trans (grammarTake_taken hq hs hp))
  · exact exec_accepted (exec_grammarUnload hk) h (grammarUnloadRun_used (m := s.mem) hg hu)
  · exact exec_accepted (exec_grammarUnload hk) h (grammarUnloadRun_unused (m := s.mem) hg fun ⟨x, hx, h2, he⟩ => hu x hx h2 he)

end Sys2Proof.Machine
end

section
/-! PROOFS. The route sequencer (R113, R120): stages issued to the engines. -/

namespace Sys2Proof.Machine

open Sys2Proof

/-! ### Stages issued (R120) -/

section Issue

variable {c : CoreRef} {i : ItemRef} {engine opcode slot : Nat} {f : StageCtx → Run} {d : Dev} {j : Job} {e : Entry} {st : Stage}

/-- Where no stage is ready, or another operation's, nothing is issued. -/
theorem issue_idle (h : ∀ st, d.readyStage c i = some st → st.engine ≠ engine ∨ st.opcode ≠ opcode) :
    d.issue c i engine opcode f = d := by
  unfold Dev.issue
  split
  next st _ _ hst => exact if_pos ((h st hst).imp_right Or.inl)
  next => rfl

/-- A stage whose turn it is, with an engine of its kind free: the engine holds it, the entry what it gives, the job its counts. -/
theorem issue_run (hj : d.job i.job = some j) (he : d.entry i = some e) (h : d.readyStage c i = some st) (hn : st.engine = engine)
    (ho : st.opcode = opcode) (hf : d.firstReady c (kindOf st) i = true) (hs : d.freeEngine c (kindOf st) = some slot) :
    let r := f { r := j.routeOfEntry i.rank e, s := st, e := e, seed := j.seed, w := j.w, b := j.b, vocabs := d.vocabs }
    d.issue c i engine opcode f = ((d.onCore c fun x =>
      { x with busy := x.busy ++ [{ slot := slot, item := i, stage := e.stage, since := d.now }] }).onEntry i fun e =>
        e.runs r).onJobCtrs i.job (r.count e) := by
  simp only [Dev.issue, hj, he, h, hn, ho, hf, hs, ne_eq, not_true_eq_false, Bool.true_eq_false, or_self, if_false]

end Issue

/-! ### The engines' operations -/

/-- Settles O44: each operation's command issues its stage, and an issue is idle or runs by whether the stage is there and its turn has
come. -/
theorem engineStagesIssued : Obligations.EngineStagesIssued := by
  unfold Obligations.EngineStagesIssued
  intro c i s ops
  have hexec : ∀ op ∈ ops, exec op.1 s = .next (s.put (s.dev.issue c i op.2.1 op.2.2.1 op.2.2.2)) := by
    simp only [ops, List.forall_mem_cons, List.not_mem_nil, false_implies, implies_true, and_true]
    and_intros <;> rfl
  intro op hop
  refine ⟨fun h => ?_, fun st h ho => ?_, fun j e st slot hj he h hn ho hf hs => ?_⟩
  · rw [hexec op hop, issue_idle fun st hst => absurd (h.symm.trans hst) nofun]
  · rw [hexec op hop, issue_idle fun st' hst => Option.some.inj (h.symm.trans hst) ▸ ho]
  · rw [hexec op hop, issue_run hj he h hn ho hf hs]
    rfl

end Sys2Proof.Machine
end

section
/-! PROOFS. The route sequencer (R115, R119, R121, R122, R152, R633): items started, stages completed, the engine watchdog. -/

namespace Sys2Proof.Machine

open Sys2Proof

/-! ### What a change elsewhere leaves of an item and of a core's units -/

section SameJobs

variable {d d' : Dev} (h : d'.jobs = d.jobs) (i : ItemRef)
include h

theorem entry_eq_of_jobs : d'.entry i = d.entry i := by
  simp only [Dev.entry, Dev.rank, Dev.job, h]

theorem postDie_eq_of_jobs : d'.postDie i = d.postDie i := by
  simp only [Dev.postDie, Dev.rank, Dev.job, h]

end SameJobs

/-- A view of the element a key finds, under an update that keeps the key and the view. -/
theorem find_updWhere_bind {α β : Type} (l : List α) (k p : α → Bool) (f : α → α) (v : α → Option β)
    (hk : ∀ x, k (f x) = k x) (hv : ∀ x, v (f x) = v x) : ((updWhere l p f).find? k).bind v = (l.find? k).bind v := by
  have hkeep : k ∘ (fun x => if p x then f x else x) = k := funext fun x => by
    by_cases hp : p x = true <;> simp [hp, hk]
  rw [updWhere, List.find?_map, Option.bind_map, hkeep]
  congr 1
  funext x
  by_cases hp : p x = true <;> simp [hp, hv]

@[simp] theorem Dev.onJobCtrs_entry (d : Dev) (h : Nat) (f : JobCtrs → JobCtrs) (i : ItemRef) :
    (d.onJobCtrs h f).entry i = d.entry i := by
  have hrank : (d.onJobCtrs h f).rank i.job i.rank = d.rank i.job i.rank :=
    find_updWhere_bind d.jobs _ _ _ (fun j => j.rank i.rank) (fun _ => rfl) fun _ => rfl
  simp only [Dev.entry, hrank]

/-- A unit of a core is named by the maps of its die and cluster, which the die's counters leave alone. -/
@[simp] theorem Dev.onCtrs_engineUnit (d : Dev) (die : Nat) (f : DieCtrs → DieCtrs) (c : CoreRef) (slot : Nat) :
    (d.onCtrs die f).engineUnit c slot = d.engineUnit c slot := by
  have hmap : ((d.onCtrs die f).die c.die).map = (d.die c.die).map := Dev.onDie_die_view d die c.die _ Die.map fun _ => rfl
  have hclusters : ((d.onCtrs die f).die c.die).clusters = (d.die c.die).clusters :=
    Dev.onDie_die_view d die c.die _ Die.clusters fun _ => rfl
  have hphysical : (d.onCtrs die f).physical c = d.physical c := by
    unfold Dev.physical Dev.cluster
    rw [hmap, hclusters]
  have hcore : (d.onCtrs die f).core c = d.core c := by
    simp only [Dev.core, Dev.cluster, hphysical, hclusters]
  simp only [Dev.engineUnit, hphysical, hcore]

@[simp] theorem Dev.until_engineUnit (d : Dev) (t : Nat) (c : CoreRef) (slot : Nat) : (d.until t).engineUnit c slot = d.engineUnit c slot :=
  rfl

/-! ### A refused allocation (R497) -/

/-- An allocation not granted moves no window entry: it waits already, or it joins the waiters and is counted. -/
theorem allocate_refused_entry {d d' : Dev} {stack : Nat} {w : BufWait} (h : d.allocate stack w = (d', false)) (i : ItemRef) :
    d'.entry i = d.entry i := by
  unfold Dev.allocate at h
  split at h
  · cases h
  · split at h
    · cases h
      rfl
    · split at h
      · cases h
      · cases h
        have hjoined : ((d.onPool stack fun x => { x with waits := x.waits ++ [w] }).onInteg stack fun c =>
            { c with bufWaits := c.bufWaits + 1 }).entry i = d.entry i := entry_eq_of_jobs rfl i
        split
        · rw [Dev.onJobCtrs_entry, hjoined]
        · exact hjoined

/-! ### ITEM_START (R119, R633) -/

theorem exec_itemStart (c : CoreRef) (s : State) : exec (.itemStart c) s = .next (s.put (itemStartEffect c s.mem s.dev)) := rfl

theorem startWait_counted_once {d : Dev} {i : ItemRef} {e : Entry} (c : CoreRef) (he : d.entry i = some e) :
    d.startWait c i = if e.waitCounted then d
      else (d.onEntry i fun e => { e with waitCounted := true }).onCtrs c.die fun k => { k with startWaits := k.startWaits + 1 } := by
  simp only [Dev.startWait, he, Option.map_some, Option.getD_some]

/-- What an item's start asks of the stack of its core: its path's buffers of PLACE 1, for its job. -/
def Dev.startAsk (d : Dev) (c : CoreRef) (j : Job) (i : ItemRef) (e : Entry) : BufWait :=
  { requester := 4 + i.job, parts := (j.placed i e 1).map fun b => (Use.item i b.1, b.2),
    cluster := (d.physical c).map (·.1), owner := d.seqUnit c }

/-- An item's start: its core gives its buffers their places and puts it in flight, and shares its stored bytes. -/
theorem startNow_eq (d : Dev) (c : CoreRef) (i : ItemRef) (small : List (Nat × Nat)) :
    d.startNow c i small = ((d.onCore c fun y =>
      let y := (y.placeAll i small).getD y
      { y with sack := y.sack.filter (· != i), flight := y.flight ++ [i] }).bufShare (d.postDie i) (.stored i)).onEntry i fun e =>
        { e with started := true, stage := 0 } := by
  simp only [Dev.startNow, postDie_eq_of_jobs (Dev.onCore_jobs d c _)]

section Start

variable {c : CoreRef} {m : Mem} {d d' : Dev} {i : ItemRef} {j : Job} {e : Entry} {st : Status} {x : Core}

theorem itemStartEffect_empty (h : (d.core c).sack = []) : itemStartEffect c m d = d := by
  simp only [itemStartEffect, h, List.head?_nil, ite_self]

variable (hu : d.engineUp c 9 = true) (hs : (d.core c).sack.head? = some i) (hj : d.job i.job = some j) (he : d.entry i = some e)
include hu hs hj he

theorem itemStartEffect_full (hl : 64 ≤ (d.core c).flight.length) : itemStartEffect c m d = d := by
  simp only [itemStartEffect, hu, hs, hj, he, hl, Bool.true_eq_false, if_false, if_true]

variable (hl : (d.core c).flight.length < 64)
include hl

theorem itemStartEffect_failed (hf : d.startFailure j i e = some st) :
    itemStartEffect c m d = (d.itemFail i { status := st }).releaseOlds i.job := by
  simp only [itemStartEffect, hu, hs, hj, he, Nat.not_le.2 hl, hf, Bool.true_eq_false, if_false]

variable (hf : d.startFailure j i e = none)
include hf

/-- No room in the core's SRAM: the item stays in the sack. -/
theorem itemStartEffect_no_place (hp : (d.core c).placeAll i (j.placed i e 0) = none) : itemStartEffect c m d = d.startWait c i := by
  simp only [itemStartEffect, hu, hs, hj, he, Nat.not_le.2 hl, hf, hp, Bool.true_eq_false, Option.isNone_none, if_false, if_true]

/-- No buffers granted: the item stays in the sack. -/
theorem itemStartEffect_no_buffers (hp : (d.core c).placeAll i (j.placed i e 0) = some x)
    (ha : d.allocate c.die (d.startAsk c j i e) = (d', false)) : itemStartEffect c m d = d'.startWait c i := by
  unfold Dev.startAsk at ha
  simp only [itemStartEffect, hu, hs, hj, he, Nat.not_le.2 hl, hf, hp, ha, Bool.true_eq_false, Bool.false_eq_true, Option.isNone_some,
    if_false]

theorem itemStartEffect_started (hp : (d.core c).placeAll i (j.placed i e 0) = some x)
    (ha : d.allocate c.die (d.startAsk c j i e) = (d', true)) : itemStartEffect c m d = d'.startNow c i (j.placed i e 0) := by
  unfold Dev.startAsk at ha
  simp only [itemStartEffect, hu, hs, hj, he, Nat.not_le.2 hl, hf, hp, ha, Bool.true_eq_false, Bool.false_eq_true, Option.isNone_some,
    if_false, if_true]

end Start

/-! ### STAGE_COMPLETE (R115, R121, R152) -/

theorem exec_stageComplete (c : CoreRef) (i : ItemRef) (ranNs : Nat) (s : State) :
    exec (.stageComplete c i ranNs) s = .next (s.put (stageCompleteEffect c i ranNs s.mem s.dev)) := rfl

/-- The device once an engine has let go of an item's stage, which began at an instant and ran for a time: the engine is free, and the
time counts to the engine's kind. -/
def Dev.stageLeft (d : Dev) (c : CoreRef) (i : ItemRef) (st : Stage) (since ranNs : Nat) : Dev :=
  let d := (d.until (since + ranNs)).onCore c fun x => { x with busy := x.busy.filter fun y => y.item != i }
  d.onEntry i fun e => { e with running := false, result := none, ran := e.ran.modify (kindOf st) (· + d.scaled 1 ranNs) }

section Complete

variable {c : CoreRef} {i : ItemRef} {ranNs : Nat} {m : Mem} {d : Dev} {j : Job} {e : Entry} {s : Stage} {b : Busy} {st : Status}
  {detail : Nat} {crc : Option Nat} {out : Bytes}

section Left

variable (hj : d.job i.job = some j) (he : d.entry i = some e) (hs : d.stageAt i = some s)
  (hb : (d.core c).busy.find? (fun b => b.item == i) = some b) (hr : e.running = true) (hc : e.core = some c)
include hj he hs hb hr hc

theorem stageCompleteEffect_passed (ho : e.result = some (.ok out)) :
    stageCompleteEffect c i ranNs m d = (d.stageLeft c i s b.since ranNs).stagePassed c j i e s out := by
  simp only [stageCompleteEffect, hj, he, hs, hb, hr, hc, ho, ne_eq, not_true_eq_false, Bool.true_eq_false, or_self, if_false,
    Dev.stageLeft]

theorem stageCompleteEffect_failed (ho : e.result = some (.err st detail crc)) :
    stageCompleteEffect c i ranNs m d = (d.stageLeft c i s b.since ranNs).stageFailed j i e s st detail crc := by
  simp only [stageCompleteEffect, hj, he, hs, hb, hr, hc, ho, ne_eq, not_true_eq_false, Bool.true_eq_false, or_self, if_false,
    Dev.stageLeft]

end Left

/-- The first failure that doubts the stored bytes. -/
theorem stageFailed_reread (hd : s.doubtsStored st = true) (h0 : e.rereads = 0) :
    d.stageFailed j i e s st detail crc = d.reread i s.index crc :=
  if_pos ⟨hd, h0⟩

/-- A failure that leaves the stored bytes beyond doubt. -/
theorem stageFailed_ends (hd : s.doubtsStored st = false) :
    d.stageFailed j i e s st detail crc = (d.itemFail i
      { status := st, detail := if st = St.INFL_FRANKING then crc.getD 0 else detail, stage := s.index }).releaseOlds i.job := by
  simp only [Dev.stageFailed, hd, Bool.false_eq_true, false_and, if_false]

end Complete

/-! ### ENGINE_WATCHDOG (R122) -/

theorem exec_engineWatchdog (c : CoreRef) (slot : Nat) (s : State) :
    exec (.engineWatchdog c slot) s = .next (s.put (engineWatchdogEffect c slot s.mem s.dev)) := rfl

theorem engineWatchdogEffect_stuck {c : CoreRef} {slot : Nat} {m : Mem} {d : Dev} {b : Busy} (hs : slot < 7)
    (hu : d.engineUp c slot = true) (hb : (d.core c).busy.find? (fun b => b.slot == slot) = some b) :
    engineWatchdogEffect c slot m d = ((d.until (b.since + 10000000)).onCtrs c.die fun k =>
      { k with engineWatchdog := k.engineWatchdog + 1 }).report St.FLT_WATCHDOG (d.engineUnit c slot) := by
  simp only [engineWatchdogEffect, hb, hs, hu, and_self, if_true, Dev.onCtrs_engineUnit, Dev.until_engineUnit]

/-! ### The statement -/

/-- Settles O45: each event by the branch of its effect that the clause's conditions select; a refused allocation leaves the entry that
says whether the wait was counted. -/
theorem itemsStartAndStagesEnd : Obligations.ItemsStartAndStagesEnd := by
  unfold Obligations.ItemsStartAndStagesEnd
  refine ⟨fun c s hu => ⟨fun hn => ?_, fun i j e hs hj he => ⟨fun hl => ?_, fun hl => ⟨fun st hf => ?_, fun hf => ⟨fun hp => ?_,
      fun x d hp ha => ?_, fun x d hp ha => ?_⟩⟩⟩⟩,
    fun c i ranNs j e st b s hj he hs hb hr hc => ⟨fun out ho => ?_, fun st' detail crc ho hd => ?_, fun st' detail crc ho hd h0 => ?_⟩,
    fun c slot b s hs hu hb => ?_⟩
  · rw [exec_itemStart, itemStartEffect_empty hn]
  · rw [exec_itemStart, itemStartEffect_full hu hs hj he hl]
  · rw [exec_itemStart, itemStartEffect_failed hu hs hj he hl hf]
  · rw [exec_itemStart, itemStartEffect_no_place hu hs hj he hl hf hp, startWait_counted_once c he]
  · rw [exec_itemStart, itemStartEffect_no_buffers hu hs hj he hl hf hp ha,
      startWait_counted_once c ((allocate_refused_entry ha i).trans he)]
  · rw [exec_itemStart, itemStartEffect_started hu hs hj he hl hf hp ha, startNow_eq]
  · rw [exec_stageComplete, stageCompleteEffect_passed hj he hs hb hr hc ho]
    rfl
  · rw [exec_stageComplete, stageCompleteEffect_failed hj he hs hb hr hc ho, stageFailed_ends hd]
    rfl
  · rw [exec_stageComplete, stageCompleteEffect_failed hj he hs hb hr hc ho, stageFailed_reread hd h0]
    rfl
  · rw [exec_engineWatchdog, engineWatchdogEffect_stuck hs hu hb]

end Sys2Proof.Machine
end

section
/-! PROOFS. Settlement of a franking value in doubt (R153, R516 to R518): begun, asked for, answered, and given up. -/

namespace Sys2Proof.Machine

open Sys2Proof

/-! ### Where a settlement begins (R153) -/

/-- CHECK_FRANK doubts the stored bytes when the value it computes is not the directory's (R152). -/
theorem Stage.doubtsStored_of_franks {s : Stage} (h : s.franks = true) : s.doubtsStored St.INFL_FRANKING = true := by
  simp only [Stage.doubtsStored, h, beq_self_eq_true, Bool.and_self, Bool.or_true]

/-- CHECK_FRANK computes the same value from the bytes read again. -/
theorem stageFailed_settles {d : Dev} {j : Job} {i : ItemRef} {e : Entry} {s : Stage} {detail crc : Nat} (hf : s.franks = true)
    (hr : e.rereads ≠ 0) (hs : e.settled = false) (hc : e.firstCrc = some crc) :
    d.stageFailed j i e s St.INFL_FRANKING detail (some crc) = d.settleBegin j i e := by
  have hread : ¬(s.doubtsStored St.INFL_FRANKING = true ∧ e.rereads = 0) := fun h => hr h.2
  have hsettle : s.doubtsStored St.INFL_FRANKING = true ∧ e.settled = false ∧ St.INFL_FRANKING = St.INFL_FRANKING ∧
      (some crc).isSome = true ∧ some crc = e.firstCrc ∧ (s.franks = true ∨ hasFormatCheck s.opcode (e.stored.getD []) = true) :=
    ⟨Stage.doubtsStored_of_franks hf, hs, rfl, rfl, hc.symm, .inl hf⟩
  exact (if_neg hread).trans (if_pos hsettle)

/-! ### A SEND that arrives (R325) -/

/-- A connected PEER or CLIENT connection takes a message of up to 65,568 bytes. -/
theorem sendArrived_taken {d : Dev} {qpn : Nat} {c : Conn} {b : Bytes} (hu : d.dieUp (qpnDie qpn) = true) (hc : d.conn qpn = some c)
    (hs : c.state = .connected) (hk : c.kind ≠ 0) (hl : b.length ≤ 65568) :
    d.sendArrived qpn b = (some c, (d.sendArrived qpn b).2) := by
  have hl' : ¬65568 < b.length := Nat.not_lt.2 hl
  simp only [Dev.sendArrived, hu, hc, hs, hk, hl', Bool.true_eq_false, ne_eq, not_true_eq_false, false_and, or_self, if_false]

/-! ### The home node (R516 to R518) -/

section Home

variable {d r : Dev} {qpn : Option Nat} {b v : Bytes} {reply : Option Bytes} {x : Dataset} {m : Manifest} {dir : Nat} {o : Obj}

/-- A message that names no entry of this node is undecided, on the die of its connection (the model's choice, log entry 91). -/
theorem settleHere_no_entry (h : d.settleEntry b = none) :
    d.settleHere qpn b reply =
      ((d.onInteg ((qpn.map qpnDie).getD 0) fun k => { k with settleUndecided := k.settleUndecided + 1 }).report St.INT_SETTLE_UNDECIDED
        (storeUnit ((qpn.map qpnDie).getD 0))).settleSend qpn
        (settleMsg "STLR" St.INT_SETTLE_UNDECIDED (cut b 8 8) (fld b 16 4) (fld b 20 4) (fld b 24 8)) := by
  simp only [Dev.settleHere, h]

/-- Stored bytes that agree with the directory and not with COMPUTED, where no alternate is asked (Table 17.9). -/
theorem settleHere_bytes (he : d.settleEntry b = some (x, m, dir)) (ha : d.settleAlternate x (fld b 16 4) = none)
    (ho : d.object m.id = some o) (hread : d.readObj o = (.ok v, r)) (hdir : o.franking = dir) (hne : dir ≠ fld b 20 4) :
    d.settleHere qpn b reply =
      ((r.onInteg (d.servingDie (partitionOf m.id)) fun k => { k with settleBytes := k.settleBytes + 1 }).report St.INT_SETTLE_BYTES
        (storeUnit (d.servingDie (partitionOf m.id)))).settleSend qpn
        (settleMsg "STLR" St.INT_SETTLE_BYTES (cut b 8 8) (fld b 16 4) (fld b 20 4) (fld b 24 8)) := by
  simp only [Dev.settleHere, he, ha, ho, hread, hdir, hne, false_and, if_false, ne_eq, not_false_eq_true, and_self, if_true]

end Home

/-! ### SETTLE_REQUEST (R516 to R518) -/

theorem exec_settleRequest (qpn : Nat) (b : Bytes) (reply : Option Bytes) (s : State) :
    exec (.settleRequest qpn b reply) s = .next (s.put (settleRequestEffect qpn b reply s.mem s.dev)) := rfl

section Request

variable {qpn : Nat} {c : Conn} {b : Bytes} {reply : Option Bytes} {m : Mem} {d d' : Dev} {x : Dataset} {f : Manifest} {dir : Nat}
  (hq : qpn ≠ ownPost) (hsent : d.sendArrived qpn b = (some c, d'))
include hq hsent

/-- A message outside the layout is dropped (the model's choice, log entry 91). -/
theorem settleRequestEffect_unframed (hb : settleFramed "STLQ" b = false) : settleRequestEffect qpn b reply m d = d' := by
  simp only [settleRequestEffect, hq, hsent, hb, if_false, if_true]

/-- COMPUTED 0 asks for the directory's value (R517; from any peer by log entry 91). -/
theorem settleRequestEffect_asked (hb : settleFramed "STLQ" b = true) (h0 : fld b 20 4 = 0) (he : d'.settleEntry b = some (x, f, dir)) :
    settleRequestEffect qpn b reply m d =
      d'.settleSend (some qpn) (settleMsg "STLR" 0 (cut b 8 8) (fld b 16 4) dir (fld b 24 8)) := by
  simp only [settleRequestEffect, hq, hsent, hb, h0, he, Bool.true_eq_false, if_false, if_true]

theorem settleRequestEffect_compared (hb : settleFramed "STLQ" b = true) (h0 : fld b 20 4 ≠ 0) :
    settleRequestEffect qpn b reply m d = d'.settleHere (some qpn) b reply := by
  simp only [settleRequestEffect, hq, hsent, hb, h0, Bool.true_eq_false, if_false]

end Request

/-! ### An item whose settlement ends (R153) -/

theorem settleFail_of_entry {d : Dev} {i : ItemRef} {e : Entry} (late : Bool) (he : d.entry i = some e) :
    d.settleFail i late = d.itemFail i
      { status := St.INFL_FRANKING, detail := e.firstCrc.getD 0, stage := d.stageIndex i, fault := late, stored := true } := by
  simp only [Dev.settleFail, he]

section Replied

variable {d : Dev} {b : Bytes} {i : ItemRef}

theorem settleReplied_nobody (hi : d.settleItems b = []) : d.settleReplied b = d := by
  simp only [Dev.settleReplied, hi, List.foldl_nil]

/-- The value of the reply becomes the item's franking value, and the item starts again. -/
theorem settleReplied_repaired (hi : d.settleItems b = [i]) (hst : BitVec.ofNat 16 (fld b 4 2) = St.INT_CHECK_REPAIRED) :
    d.settleReplied b = ((d.onEntry i fun e => { e with settling := none, settled := true, franking := fld b 20 4 }).itemRestart i
      (d.stageIndex i) none false).1 := by
  simp only [Dev.settleReplied, hi, List.foldl_cons, List.foldl_nil, hst, if_true]

/-- Any other status ends the item (the model's choice, log entry 93). -/
theorem settleReplied_failed (hi : d.settleItems b = [i]) (hst : BitVec.ofNat 16 (fld b 4 2) ≠ St.INT_CHECK_REPAIRED) :
    d.settleReplied b = d.settleFail i false := by
  simp only [Dev.settleReplied, hi, List.foldl_cons, List.foldl_nil, hst, if_false]

end Replied

/-! ### SETTLE_REPLY and SETTLE_TIMEOUT (R153, R518) -/

theorem exec_settleReply (qpn : Nat) (b : Bytes) (s : State) :
    exec (.settleReply qpn b) s = .next (s.put (settleReplyEffect qpn b s.mem s.dev)) := rfl

section Reply

variable {qpn : Nat} {c : Conn} {b : Bytes} {m : Mem} {d d' : Dev} (hsent : d.sendArrived qpn b = (some c, d'))
include hsent

theorem settleReplyEffect_unframed (hb : settleFramed "STLR" b = false) : settleReplyEffect qpn b m d = d' := by
  simp only [settleReplyEffect, hsent, hb, Bool.false_eq_true, if_false]

theorem settleReplyEffect_framed (hb : settleFramed "STLR" b = true) : settleReplyEffect qpn b m d = d'.settleReplied b := by
  simp only [settleReplyEffect, hsent, hb, if_true]

end Reply

theorem exec_settleTimeout (i : ItemRef) (s : State) : exec (.settleTimeout i) s = .next (s.put (settleTimeoutEffect i s.mem s.dev)) := rfl

theorem settleTimeoutEffect_settling {i : ItemRef} {m : Mem} {d : Dev} {e : Entry} {t : Nat} (he : d.entry i = some e)
    (ht : e.settling = some t) : settleTimeoutEffect i m d = (d.until (t + 2000000000)).settleFail i true := by
  simp only [settleTimeoutEffect, he, Option.bind_some, ht]

/-! ### The statement -/

/-- Settles O46: each event by the branch of its effect that the clause's conditions select. -/
theorem settlement : Obligations.Settlement := by
  unfold Obligations.Settlement
  refine ⟨fun c i ranNs j e st b crc detail s hj he hst hb hrun hc hf ho hr hs hcrc => ?_,
    fun qpn c b reply s hq hu hc hs hk hl => ?_, fun qpn c b s hu hc hs hk hl => ?_, fun i e t s he ht => ?_⟩
  · rw [exec_stageComplete, stageCompleteEffect_failed hj he hst hb hrun hc ho, stageFailed_settles hf hr hs hcrc]
    rfl
  · have hsent := sendArrived_taken hu hc hs hk hl
    refine ⟨fun hb => ?_, fun hb h0 x m dir he => ?_,
      fun hb h0 => ⟨fun he => ?_, fun x m dir o v r he ha ho hread hdir hne => ?_⟩⟩
    · rw [exec_settleRequest, settleRequestEffect_unframed hq hsent hb]
    · rw [exec_settleRequest, settleRequestEffect_asked hq hsent hb h0 he]
      rfl
    · rw [exec_settleRequest, settleRequestEffect_compared hq hsent hb h0, settleHere_no_entry he]
      rfl
    · rw [exec_settleRequest, settleRequestEffect_compared hq hsent hb h0, settleHere_bytes he ha ho hread hdir hne]
      rfl
  · have hsent := sendArrived_taken hu hc hs hk hl
    refine ⟨fun hb => ?_, fun hb hi => ?_, fun i hb hi => ⟨fun hst => ?_, fun hst e he => ?_⟩⟩
    · rw [exec_settleReply, settleReplyEffect_unframed hsent hb]
    · rw [exec_settleReply, settleReplyEffect_framed hsent hb, settleReplied_nobody hi]
    · rw [exec_settleReply, settleReplyEffect_framed hsent hb, settleReplied_repaired hi hst]
    · rw [exec_settleReply, settleReplyEffect_framed hsent hb, settleReplied_failed hi hst, settleFail_of_entry false he]
  · have he' := (entry_eq_of_jobs (Dev.until_jobs s.dev (t + 2000000000)) i).trans he
    rw [exec_settleTimeout, settleTimeoutEffect_settling he ht, settleFail_of_entry true he']

end Sys2Proof.Machine
end

section
/-! PROOFS. Streams opened, requested and closed (R258 to R260, R262, R264, R267). -/

namespace Sys2Proof.Machine

open Sys2Proof

/-! ### STREAM_OPEN (R258, R264) -/

section Open

variable {p n : Nat} {b : Bytes} {m : Mem} {d : Dev} {c : CoreRef}

theorem streamOpenOp_run : streamOpenOp.run = streamOpenRun := rfl

/-- A text stream's slot holds at least the header of a response (Table 8.5). -/
theorem streamFieldsOk_of_text (hk : fld b 0 1 = 1) (hs : 32 ≤ fld b 28 4) : d.streamFieldsOk b = true := by
  simp only [Dev.streamFieldsOk, hk, hs, if_true, decide_true]

/-- A text stream has no grammar and no bound, so it is placed as a shared stream is, and its STEP_NS is 0. -/
theorem streamOpenRun_text (hk : fld b 0 1 = 1) (hs : 32 ≤ fld b 28 4) (hc : d.connected (fld b 8 4) = true)
    (hn : d.freeStream = some n) (hp : d.placeShared = some c) :
    streamOpenRun p b m d = ({ d with streams := d.streams ++ [
      { number := n, kind := 1, qpn := fld b 8 4, respAddr := fld b 16 8, respKey := fld b 24 4, slotSize := fld b 28 4,
        rate := fld b 12 4, bitmap := fld b 2 1 == 1, home := c }] } : Dev).answer p
      { body := le 4 n ++ le 4 0 ++ le 1 c.die ++ le 1 c.cluster ++ le 1 c.core } := by
  have hg : (1 == 2) = false := rfl
  simp only [streamOpenRun, streamFieldsOk_of_text hk hs, hk, hg, hc, hn, hp, Bool.false_and, Bool.true_eq_false, Bool.false_eq_true,
    if_false]
  rfl

end Open

/-! ### A stream looked up by its number -/

section Lookup

variable {d : Dev} {n k : Nat} {x : Stream} {f : Stream → Stream}

theorem stream_number (h : d.stream n = some x) : x.number = n := by
  simpa using List.find?_some h

/-- Changes of a stream that keep its number are seen under that number only. -/
theorem onStream_stream (hf : ∀ s, (f s).number = s.number) :
    (d.onStream n f).stream k = (d.stream k).map fun s => if s.number == n then f s else s := by
  have hkey : ((fun s : Stream => s.number == k) ∘ fun s => if s.number == n then f s else s) = fun s => s.number == k := by
    funext s
    dsimp only [Function.comp]
    split
    · rw [hf]
    · rfl
  simp only [Dev.stream, Dev.onStream, updWhere, List.find?_map, hkey]

theorem onStream_stream_self (hf : ∀ s, (f s).number = s.number) (h : d.stream n = some x) :
    (d.onStream n f).stream n = some (f x) := by
  rw [onStream_stream hf, h, Option.map_some, if_pos (beq_iff_eq.2 (stream_number h))]

theorem onStream_stream_other (hf : ∀ s, (f s).number = s.number) (hk : k ≠ n) : (d.onStream n f).stream k = d.stream k := by
  rw [onStream_stream hf]
  cases h : d.stream k with
  | none => rfl
  | some y =>
    have hy : ¬(y.number == n) = true := by simpa [stream_number h] using hk
    rw [Option.map_some, if_neg hy]

theorem releaseStream_stream_self : (d.releaseStream x).stream x.number = none := by
  simp [Dev.stream, Dev.releaseStream]

theorem releaseStream_stream_other (hk : k ≠ x.number) : (d.releaseStream x).stream k = d.stream k := by
  simp only [Dev.stream, Dev.releaseStream, Dev.onCtrs_streams, List.find?_filter]
  congr 1
  funext s
  by_cases hs : s.number = k
  · simp [hs, hk]
  · simp [hs]

end Lookup

/-! ### STREAM_CLOSE (R267) -/

section Close

variable {d : Dev} {n p : Nat} {x : Stream} {r : StreamReq}

theorem closeCheck_running (hx : d.stream n = some x) (hr : x.running = some r) : d.closeCheck n = d := by
  simp only [Dev.closeCheck, hx, hr, Option.isNone_some, Bool.false_eq_true, if_false]
  split <;> rfl

theorem closeCheck_idle (hx : d.stream n = some x) (hc : x.closing = some p) (hr : x.running = none) :
    d.closeCheck n = (d.releaseStream x).answer p { body := x.counters } := by
  simp only [Dev.closeCheck, hx, hc, hr, Option.isNone_none, if_true]

/-- A stream that STREAM_CLOSE of pigeonhole p has found: its waiting request is discarded. -/
def Stream.closedBy (p : Nat) (x : Stream) : Stream := { x with waiting := none, closing := some p }

variable {b : Bytes} {m : Mem} (hx : d.stream (fld b 0 4) = some x)
include hx

theorem closedBy_stream : (d.onStream (fld b 0 4) (Stream.closedBy p)).stream (fld b 0 4) = some (x.closedBy p) :=
  onStream_stream_self (fun _ => rfl) hx

theorem streamCloseRun_running (hr : x.running = some r) :
    streamCloseRun p b m d = d.onStream (fld b 0 4) fun y => { y with waiting := none, closing := some p } :=
  closeCheck_running (closedBy_stream hx) hr

theorem streamCloseRun_idle (hr : x.running = none) :
    streamCloseRun p b m d =
      ((d.onStream (fld b 0 4) (Stream.closedBy p)).releaseStream (x.closedBy p)).answer p { body := x.counters } :=
  closeCheck_idle (closedBy_stream hx) rfl hr

/-- A closed stream is gone, and every other stands. -/
theorem closedBy_released (k : Nat) : ((d.onStream (fld b 0 4) (Stream.closedBy p)).releaseStream (x.closedBy p)).stream k =
    if k = fld b 0 4 then none else d.stream k := by
  have hn : (x.closedBy p).number = fld b 0 4 := stream_number (closedBy_stream hx)
  split
  · next hk => rw [hk, ← hn, releaseStream_stream_self]
  · next hk => rw [releaseStream_stream_other (hn ▸ hk), onStream_stream_other (f := Stream.closedBy p) (fun _ => rfl) hk]

end Close

/-! ### STREAM_REQUEST (R259, R260, R262) -/

theorem exec_streamRequest (qpn : Nat) (payload : Bytes) (s : State) :
    exec (.streamRequest qpn payload) s = .next (s.put (streamRequestEffect qpn payload s.mem s.dev)) := rfl

section Request

variable {qpn : Nat} {c : Conn} {payload : Bytes} {m : Mem} {d d' : Dev} {x : Stream}

section Arrived

variable (hsent : d.sendArrived qpn payload = (some c, d'))
include hsent

theorem streamRequestEffect_foreign (h : payload.length < 32 ∨ d'.stream (fld payload 8 4) = none) :
    streamRequestEffect qpn payload m d = d'.foreignRequest qpn := by
  simp only [streamRequestEffect, hsent]
  rcases h with hl | hn
  · rw [if_pos hl]
  · rw [hn, ite_self]

theorem streamRequestEffect_taken (hl : 32 ≤ payload.length) (hx : d'.stream (fld payload 8 4) = some x) (hq : x.qpn = qpn)
    (hc : x.closing = none) : streamRequestEffect qpn payload m d = d'.takeRequest x payload := by
  have hmine : ¬(x.qpn ≠ qpn ∨ x.closing.isSome = true) := by simp [hq, hc]
  simp only [streamRequestEffect, hsent, hx, Nat.not_lt.2 hl, hmine, if_false]

end Arrived

theorem takeRequest_malformed (h : requestOk payload = false) :
    d.takeRequest x payload = d.refuseRequest x (fld payload 6 2) (fld payload 12 4) St.TOK_REQUEST_BAD :=
  if_pos h

theorem inDevice_length_lt_two (h : x.running = none ∨ x.waiting = none) :
    ¬2 ≤ (x.running.toList ++ x.waiting.toList).length := by
  rcases h with h | h
  · rw [h]
    cases x.waiting <;> simp
  · rw [h]
    cases x.running <;> simp

theorem inDevice_isEmpty : (x.running.toList ++ x.waiting.toList).isEmpty = (x.running.isNone && x.waiting.isNone) := by
  cases x.running <;> cases x.waiting <;> rfl

/-- The next request of a stream that has room for it: it runs where none runs, and waits otherwise. -/
theorem takeRequest_next (hok : requestOk payload = true) (hseq : fld payload 12 4 = seqAfter x.lastAccepted)
    (hroom : x.running = none ∨ x.waiting = none) :
    let r := requestOf payload d.now (x.running.isNone && x.waiting.isNone)
    d.takeRequest x payload = d.onStream x.number fun y => { y with
      lastAccepted := fld payload 12 4
      running := if y.running.isNone then some r else y.running
      waiting := if y.running.isNone then y.waiting else some r } := by
  simp only [Dev.takeRequest, hok, hseq, inDevice_length_lt_two hroom, inDevice_isEmpty, Bool.true_eq_false, if_true, if_false]

end Request

/-! ### The statement -/

/-- Settles O31: each command by the lemma of the branch the clause's conditions select. -/
theorem streamsOpenRequestClose : Obligations.StreamsOpenRequestClose := by
  unfold Obligations.StreamsOpenRequestClose
  refine ⟨fun p n c frame s h hk hs hc hn hp => ?_,
    fun qpn c payload s hu hc hs hk hl => ?_, fun p frame x s h hx => ⟨fun r hr => ?_, fun hr => ?_⟩⟩
  · refine exec_accepted rfl h ?_
    rw [streamOpenOp_run, streamOpenRun_text hk hs hc hn hp]
  · have hsent := sendArrived_taken hu hc hs hk hl
    refine ⟨fun hf => ?_, fun x h32 hx hq hcl => ?_⟩
    · rw [exec_streamRequest, streamRequestEffect_foreign hsent hf]
      rfl
    · rw [exec_streamRequest, streamRequestEffect_taken hsent h32 hx hq hcl]
      refine ⟨fun hbad => ?_, fun hok hseq hroom => ?_⟩
      · rw [takeRequest_malformed hbad]
        rfl
      · rw [takeRequest_next hok hseq hroom]
  · exact exec_accepted rfl h (streamCloseRun_running (m := s.mem) hx hr)
  · refine ⟨_, exec_accepted rfl h (streamCloseRun_idle (m := s.mem) hx hr), ?_, fun k hk => ?_, rfl, rfl⟩
    · rw [closedBy_released hx, if_pos rfl]
    · rw [closedBy_released hx, if_neg hk]

end Sys2Proof.Machine
end

section
/-! PROOFS. The requests of streams served by their engines: TOKENISE, DETOKENISE, COMMIT (R254 to R257, R261, R269, R271, R274). -/

namespace Sys2Proof.Machine

open Sys2Proof

/-! ### The three commands -/

theorem exec_streamTokenise (n : Nat) (s : State) :
    exec (.streamTokenise n) s = .next (s.put (streamTokeniseEffect n s.mem s.dev)) := rfl

theorem exec_streamDetokenise (n : Nat) (s : State) :
    exec (.streamDetokenise n) s = .next (s.put (streamDetokeniseEffect n s.mem s.dev)) := rfl

theorem exec_streamCommit (n : Nat) (s : State) :
    exec (.streamCommit n) s = .next (s.put (streamCommitEffect n s.mem s.dev)) := rfl

/-! ### What the operations share (Table 8.4, R261) -/

section Shared

variable {d : Dev} {x : Stream} {r : StreamReq} {y : Reply} {f : Stream → Stream}

theorem opAllowed_text : opAllowed 1 1 = true ∧ opAllowed 1 2 = true ∧ opAllowed 1 3 = false := ⟨rfl, rfl, rfl⟩

/-- A response that fits its slot goes out, and the stream changes. -/
theorem passReq_fits (h : y.body.length ≤ x.slotSize - 32) : d.passReq x r y f = (d.onStream x.number f).completeReq x r y :=
  if_neg (by simpa [tooLong] using h)

/-- The range test of DETOKENISE and COMMIT finds nothing when every identifier is below V. -/
theorem any_le_eq_false {v : Nat} {ids : List Nat} (h : ∀ i ∈ ids, i < v) : (ids.any fun t => decide (v ≤ t)) = false := by
  simpa using h

end Shared

/-! ### TOKENISE (R254, R255) -/

section Tokenise

variable {n : Nat} {m : Mem} {d : Dev} {x : Stream} {r : StreamReq} {v : Vocab} {w : Voc}

section Served

variable (h : d.serving n 1 = some (x, r)) (hk : x.kind = 1)
include h hk

theorem streamTokeniseEffect_no_vocab (hv : d.vocabAt r.vocab = none) :
    streamTokeniseEffect n m d = d.failReq x r St.TOK_VOCAB_SLOT := by
  simp only [streamTokeniseEffect, h, hk, opAllowed_text, hv, Bool.true_eq_false, if_false]

theorem streamTokeniseEffect_resident (hv : d.vocabAt r.vocab = some v) :
    streamTokeniseEffect n m d = d.tokeniseReq x r (vocOf v.image) := by
  simp only [streamTokeniseEffect, h, hk, opAllowed_text, hv, Bool.true_eq_false, if_false]

end Served

/-- Held bytes are settled under the slot and PARSE_SPECIAL they were taken with. -/
theorem tokeniseReq_other_context (hc : x.tokCtx ≠ []) (ho : x.tokSlot ≠ r.vocab ∨ x.tokSpecial ≠ bit r.flags 3) :
    d.tokeniseReq x r w = d.failReq x r St.TOK_REQUEST_BAD :=
  if_pos ⟨hc, ho⟩

theorem tokeniseReq_same_context (hc : x.tokCtx = [] ∨ (x.tokSlot = r.vocab ∧ x.tokSpecial = bit r.flags 3)) :
    let o := w.tokens (bit r.flags 3) (bit r.flags 0) (x.tokCtx ++ r.payload)
    let ids := (w.finish (bit r.flags 1 && x.tokCtx.isEmpty) (bit r.flags 2 && bit r.flags 0) 0 o.ids).1
    (ids.flatMap (le 4)).length ≤ x.slotSize - 32 →
    d.tokeniseReq x r w = (d.onStream x.number fun y => { y with
      tokCtx := o.held
      tokSlot := r.vocab
      tokSpecial := bit r.flags 3
      invalidUnits := y.invalidUnits + o.invalid }).completeReq x r
        { flags := b2n (o.invalid != 0) + 2 * b2n (!o.held.isEmpty), body := ids.flatMap (le 4) } := by
  intro o ids hfit
  have hsame : ¬(x.tokCtx ≠ [] ∧ (x.tokSlot ≠ r.vocab ∨ x.tokSpecial ≠ bit r.flags 3)) := by
    rintro ⟨hne, hs | hp⟩
    · exact hs (hc.resolve_left hne).1
    · exact hp (hc.resolve_left hne).2
  exact (if_neg hsame).trans (passReq_fits hfit)

end Tokenise

/-! ### DETOKENISE (R256, R257) -/

section Detokenise

variable {n : Nat} {m : Mem} {d : Dev} {x : Stream} {r : StreamReq} {v : Vocab} {w : Voc}

theorem streamDetokeniseEffect_resident (h : d.serving n 2 = some (x, r)) (hk : x.kind = 1) (hv : d.vocabAt r.vocab = some v) :
    streamDetokeniseEffect n m d = d.detokeniseReq x r (vocOf v.image) := by
  simp only [streamDetokeniseEffect, h, hk, opAllowed_text, hv, Bool.true_eq_false, if_false]

theorem detokeniseReq_range (h : ∃ i ∈ idsOf (r.payload.length + 1) r.payload, w.v ≤ i) :
    d.detokeniseReq x r w = d.failReq x r St.TOK_TOKEN_RANGE :=
  if_pos (by simpa using h)

theorem detokeniseReq_rendered (h : ∀ i ∈ idsOf (r.payload.length + 1) r.payload, i < w.v) :
    let t := renderText w.replace (bit r.flags 0) (x.detCtx ++ w.render (bit r.flags 4) (idsOf (r.payload.length + 1) r.payload))
    t.1.length ≤ x.slotSize - 32 →
    d.detokeniseReq x r w = (d.onStream x.number fun y => { y with
      detCtx := t.2.2
      invalidUnits := y.invalidUnits + t.2.1 }).completeReq x r
        { flags := b2n (t.2.1 != 0) + 2 * b2n (!t.2.2.isEmpty), body := t.1 } := by
  intro t hfit
  have hrange : ¬((idsOf (r.payload.length + 1) r.payload).any fun t => decide (w.v ≤ t)) = true := by
    rw [any_le_eq_false h]
    exact Bool.false_ne_true
  exact (if_neg hrange).trans (passReq_fits hfit)

end Detokenise

/-! ### COMMIT (R269, R271, R274) -/

section Commit

variable {n : Nat} {m : Mem} {d : Dev} {x : Stream} {r : StreamReq}

section Served

variable (h : d.serving n 3 = some (x, r))
include h

theorem streamCommitEffect_text (hk : x.kind = 1) : streamCommitEffect n m d = d.failReq x r St.TOK_STREAM_KIND := by
  simp only [streamCommitEffect, h, hk, opAllowed_text, if_true]

theorem streamCommitEffect_grammar {gr : Grammar} {v : Voc} (hk : x.kind = 2) (hg : d.grammar x.grammar = some gr)
    (hv : d.vocabOf gr = some v) : streamCommitEffect n m d = d.commitReq x r (gramOf gr.image) v := by
  have hop : opAllowed 2 3 = true := rfl
  simp only [streamCommitEffect, h, hk, hop, hg, hv, Bool.true_eq_false, if_false]

end Served

/-- No identifier is committed after the end token (R274). -/
theorem not_past_end {y : GramPos} {ids : List Nat} (h : y.finished = false ∨ ids = []) : ¬(y.finished = true ∧ ids ≠ []) := by
  rintro ⟨hfin, hne⟩
  exact h.elim (fun ho => Bool.false_ne_true (ho.symm.trans hfin)) hne

variable {g : Gram} {v : Voc} {y z : GramPos} {i : Nat} (hw : x.pos.withdraw r.rollback = some y)
  (hr : ∀ t ∈ idsOf (r.payload.length + 1) r.payload, t < v.v) (hf : y.finished = false ∨ idsOf (r.payload.length + 1) r.payload = [])
include hw hr hf

/-- The first identifier not allowed rejects the whole request. -/
theorem commitReq_rejected (ha : y.apply g v 0 (idsOf (r.payload.length + 1) r.payload) = .error i) :
    d.commitReq x r g v = (d.onStream x.number fun z => { z with rejected := z.rejected + 1 }).failReq x r
      St.GRM_TOKEN_REJECTED (le 4 i) := by
  simp only [Dev.commitReq, hw, any_le_eq_false hr, not_past_end hf, ha, Bool.false_eq_true, if_false]

/-- A stream without a bound has no time its mask is due by (R276). -/
theorem commitReq_applied (ha : y.apply g v 0 (idsOf (r.payload.length + 1) r.payload) = .ok z) (hb : x.bounded = false)
    (hfit : (z.reply g v x.bitmap).body.length ≤ x.slotSize - 32) :
    d.commitReq x r g v = (d.onStream x.number fun w => w.committedTo z none).completeReq x r (z.reply g v x.bitmap) := by
  simp only [Dev.commitReq, hw, any_le_eq_false hr, not_past_end hf, ha, hb, Bool.false_and, Bool.false_eq_true, if_false,
    passReq_fits hfit]

end Commit

/-! ### The statement -/

/-- Settles O32: each operation by the lemma of the branch the clause's conditions select; a failed request is completed with its
status alone. -/
theorem streamRequestsServed : Obligations.StreamRequestsServed := by
  unfold Obligations.StreamRequestsServed
  refine ⟨fun n x r s h hk => ⟨fun hv => ?_, fun v hv => ⟨fun hc ho => ?_, fun hc hfit => ?_⟩⟩,
    fun n x r v s h hk hv => ⟨fun hbad => ?_, fun hids hfit => ?_⟩,
    fun n x r gr v y s h => ⟨fun hk => ?_, fun hk hg hv hw hr hf => ⟨fun i ha => ?_, fun z ha hfit hb => ?_⟩⟩⟩
  · rw [exec_streamTokenise, streamTokeniseEffect_no_vocab h hk hv]
    rfl
  · rw [exec_streamTokenise, streamTokeniseEffect_resident h hk hv, tokeniseReq_other_context hc ho]
    rfl
  · rw [exec_streamTokenise, streamTokeniseEffect_resident h hk hv, tokeniseReq_same_context hc hfit]
  · rw [exec_streamDetokenise, streamDetokeniseEffect_resident h hk hv, detokeniseReq_range hbad]
    rfl
  · rw [exec_streamDetokenise, streamDetokeniseEffect_resident h hk hv, detokeniseReq_rendered hids hfit]
  · rw [exec_streamCommit, streamCommitEffect_text h hk]
    rfl
  · rw [exec_streamCommit, streamCommitEffect_grammar h hk hg hv, commitReq_rejected hw hr hf ha]
    rfl
  · rw [exec_streamCommit, streamCommitEffect_grammar h hk hg hv, commitReq_applied hw hr hf ha hb hfit]

end Sys2Proof.Machine
end

section
/-! PROOFS. The courier's connections and regions: what is found under a QPN and under a region entry after a change of the device. -/

namespace Sys2Proof.Machine

open Sys2Proof

/-! ### A die the device does not have -/

section NoDie

variable {d : Dev} {i : Nat} (h : ¬i < d.dies.length)
include h

theorem die_of_not_lt : d.die i = {} := by
  simp [Dev.die, List.getD_eq_getElem?_getD, h]

theorem onDie_die_of_not_lt (f : Die → Die) : (d.onDie i f).die i = {} :=
  die_of_not_lt (by rwa [Dev.onDie_length])

end NoDie

/-! ### A connection under its QPN (Table 11.2) -/

section Conns

variable {d d' : Dev} {qpn : Nat} {c : Conn}

theorem conn_localQpn (h : d.conn qpn = some c) : c.localQpn = qpn := by
  simpa using List.find?_some h

theorem conn_eq_of_conns (h : (d'.die (qpnDie qpn)).conns = (d.die (qpnDie qpn)).conns) : d'.conn qpn = d.conn qpn := by
  rw [Dev.conn, Dev.conn, h]

theorem conn_eq_of_dies (h : d'.dies = d.dies) : d'.conn qpn = d.conn qpn := by
  simp only [Dev.conn, Dev.die, h]

/-- A change of a die that leaves its connections. -/
theorem onDie_conn {die : Nat} {f : Die → Die} (hf : ∀ x, (f x).conns = x.conns) : (d.onDie die f).conn qpn = d.conn qpn :=
  conn_eq_of_conns (Dev.onDie_die_view d die _ f Die.conns hf)

@[simp] theorem onCur_conn (die : Nat) (f : CurCtrs → CurCtrs) : (d.onCur die f).conn qpn = d.conn qpn := onDie_conn fun _ => rfl

@[simp] theorem onPort_conn (port : Nat) (f : EthPort → EthPort) : (d.onPort port f).conn qpn = d.conn qpn := rfl

@[simp] theorem control_conn (x : Conn) (y : Ctl) : (d.control x y).conn qpn = d.conn qpn := rfl

/-- A device that lists a die's connection has that die. -/
theorem qpnDie_lt_of_conn (h : d.conn qpn = some c) : qpnDie qpn < d.dies.length := by
  refine Decidable.byContradiction fun hd => ?_
  rw [Dev.conn, die_of_not_lt hd] at h
  cases h

/-- A change of a connection that keeps its QPN is found under it. -/
theorem onConn_conn {f : Conn → Conn} (h : d.conn qpn = some c) (hf : ∀ x, (f x).localQpn = x.localQpn) :
    (d.onConn qpn f).conn qpn = some (f c) := by
  have hfind : (updWhere (d.die (qpnDie qpn)).conns (fun x => x.localQpn == qpn) f).find? (fun x => x.localQpn == qpn) = some (f c) := by
    rw [find_updWhere _ _ _ fun x hx => by simpa [hf] using hx, ← Dev.conn, h, Option.map_some]
  rw [Dev.conn, Dev.onConn, Dev.onDie_die_self _ _ _ (qpnDie_lt_of_conn h)]
  exact hfind

/-- A freed connection's QPN names none (R351). -/
theorem freeConn_conn (x : Conn) : (d.freeConn x).conn x.localQpn = none := by
  unfold Dev.freeConn
  rw [onCur_conn, onPort_conn, Dev.conn]
  by_cases hd : qpnDie x.localQpn < d.dies.length
  · rw [Dev.onDie_die_self _ _ _ hd]
    simp
  · rw [onDie_die_of_not_lt hd]
    rfl

end Conns

@[simp] theorem put_dev_conn (s : State) (d : Dev) (qpn : Nat) : (s.put d).dev.conn qpn = d.conn qpn := rfl

@[simp] theorem put_dev_port (s : State) (d : Dev) (port : Nat) : (s.put d).dev.port port = d.port port := rfl

/-! ### A region under its entry (R345, R348) -/

section Regions

variable {d d' : Dev} {die entry : Nat} {r : Region}

theorem region_entry (h : d.region die entry = some r) : r.entry = entry := by
  simpa using List.find?_some h

/-- Messages are unfinished on the connections of a die. -/
theorem unfinished_eq_of_conns (h : (d'.die die).conns = (d.die die).conns) : d'.unfinished die entry = d.unfinished die entry := by
  rw [Dev.unfinished, Dev.unfinished, h]

@[simp] theorem onRegion_unfinished (f : Region → Region) : (d.onRegion die entry f).unfinished die entry = d.unfinished die entry :=
  unfinished_eq_of_conns (Dev.onDie_die_view d die die _ Die.conns fun _ => rfl)

/-- The device once a region's entry is released, its key value in quarantine (R348, R349). -/
def Dev.entryReleased (d : Dev) (r : Region) : Dev :=
  d.onDie r.die fun x => { x with
    regions := x.regions.filter fun y => y.entry != r.entry
    freedEntries := x.freedEntries ++ [(r.entry, r.gen, d.now)]
    goneKeys := (x.goneKeys.filter fun k => decide (d.now - k.2.2 < second)) ++ [(r.entry, (r.gen + 255) % 256, d.now)] }

/-- A completed revocation that a command waits for, of a region no staging buffer is behind, answers it once the entry is released. -/
theorem revoked_waited {t p : Nat} {st : Status} (hs : r.staging = none) (hr : r.revoking = some (t, some p)) :
    d.revoked r st = (d.entryReleased r).answer p (if st = St.SUCCESS then {} else fail st) := by
  simp only [Dev.revoked, hs, hr, Dev.answerTo, Dev.entryReleased]

theorem entryReleased_region : (d.entryReleased r).region r.die r.entry = none := by
  unfold Dev.region Dev.entryReleased
  by_cases hd : r.die < d.dies.length
  · rw [Dev.onDie_die_self _ _ _ hd]
    simp
  · rw [onDie_die_of_not_lt hd]
    rfl

@[simp] theorem entryReleased_conns (i : Nat) : ((d.entryReleased r).die i).conns = (d.die i).conns :=
  Dev.onDie_die_view d r.die i _ Die.conns fun _ => rfl

end Regions

end Sys2Proof.Machine
end

section
/-! PROOFS. The end of a revocation (R348, R349): complete, or cut. -/

namespace Sys2Proof.Machine

open Sys2Proof

theorem exec_revocationComplete (die entry : Nat) (s : State) :
    exec (.revocationComplete die entry) s = .next (s.put (revocationCompleteEffect die entry s.mem s.dev)) := rfl

theorem exec_revocationCut (die entry : Nat) (s : State) :
    exec (.revocationCut die entry) s = .next (s.put (revocationCutEffect die entry s.mem s.dev)) := rfl

section Ends

variable {die entry t : Nat} {q : Option Nat} {m : Mem} {d : Dev} {r : Region} (h : d.region die entry = some r)
  (hr : r.revoking = some (t, q))
include h hr

theorem revocationCompleteEffect_finished (hu : d.unfinished die entry = false) :
    revocationCompleteEffect die entry m d = d.revoked r St.SUCCESS := by
  simp only [revocationCompleteEffect, h, hr, hu, Option.isSome_some, and_self, if_true]

omit hr in
theorem revocationCompleteEffect_unfinished (hu : d.unfinished die entry = true) : revocationCompleteEffect die entry m d = d := by
  simp only [revocationCompleteEffect, h, hu, Bool.true_eq_false, and_false, if_false]

theorem revocationCutEffect_unfinished (hu : d.unfinished die entry = true) :
    revocationCutEffect die entry m d = ((d.until (t + 10000000)).cutMessages die entry).revoked r St.CUR_REVOKE_CUT := by
  have hu' : (d.until (t + 10000000)).unfinished die entry = true := hu
  simp only [revocationCutEffect, h, hr, hu', if_true]

end Ends

/-! ### What a cut leaves of the messages (R348 step 4) -/

/-- A connection with the unfinished messages of a region cut: its WRITEs marked, its READ responses at an end. -/
def Conn.cutMessages (entry : Nat) (c : Conn) : Conn :=
  { c with
    inbound := (c.inbound.filter fun y => y.write || y.entry != entry).map fun y => if y.entry = entry then { y with cut := true } else y }

theorem cutMessages_conns (d : Dev) (die entry : Nat) :
    ((d.cutMessages die entry).die die).conns = (d.die die).conns.map (Conn.cutMessages entry) := by
  change ((d.onDie die fun x => { x with conns := x.conns.map (Conn.cutMessages entry) }).die die).conns = _
  by_cases hd : die < d.dies.length
  · rw [Dev.onDie_die_self _ _ _ hd]
  · rw [onDie_die_of_not_lt hd, die_of_not_lt hd]
    rfl

/-- A message left of the region is a WRITE, marked cut. -/
theorem cutMessages_inbound {c : Conn} {entry : Nat} {y : InMsg} (hy : y ∈ (c.cutMessages entry).inbound) (he : y.entry = entry) :
    y.write = true ∧ y.cut = true := by
  obtain ⟨z, hz, rfl⟩ := List.mem_map.1 hy
  have hkept : z.write = true ∨ z.entry ≠ entry := by simpa using (List.mem_filter.1 hz).2
  by_cases hze : z.entry = entry
  · rw [if_pos hze]
    exact ⟨hkept.resolve_right (not_not_intro hze), rfl⟩
  · rw [if_neg hze] at he
    exact absurd he hze

/-- The same once the entry is released, of every connection of the die. -/
theorem cut_released_inbound {d : Dev} {r : Region} {c : Conn} {y : InMsg}
    (hc : c ∈ (((d.cutMessages r.die r.entry).entryReleased r).die r.die).conns) (hy : y ∈ c.inbound) (he : y.entry = r.entry) :
    y.write = true ∧ y.cut = true := by
  rw [entryReleased_conns, cutMessages_conns] at hc
  obtain ⟨x, -, rfl⟩ := List.mem_map.1 hc
  exact cutMessages_inbound hy he

/-! ### The statement -/

/-- Settles O26: each event's effect is the release of the entry, after a cut where messages are unfinished. -/
theorem revocationEnds : Obligations.RevocationEnds := by
  unfold Obligations.RevocationEnds
  rintro die entry t p r s h rfl rfl hr hs
  refine ⟨fun hu => ⟨s.dev.entryReleased r, ?_, entryReleased_region, rfl⟩, fun hu => ⟨?_, ?_⟩⟩
  · rw [exec_revocationComplete, revocationCompleteEffect_finished h hr hu, revoked_waited hs hr, if_pos rfl]
  · rw [exec_revocationComplete, revocationCompleteEffect_unfinished h hu]
  · refine ⟨((s.dev.until (t + 10000000)).cutMessages r.die r.entry).entryReleased r, ?_, entryReleased_region, rfl, ?_,
      fun x hx y hy he => (cut_released_inbound hx hy he).1⟩
    · rw [exec_revocationCut, revocationCutEffect_unfinished h hr hu, revoked_waited hs hr, if_neg (by decide)]
    · refine List.any_eq_false.2 fun x hx => ?_
      simpa using fun y hy he => (cut_released_inbound hx hy he).2

end Sys2Proof.Machine
end

section
/-! PROOFS. The courier's pigeonhole commands (R328, R345, R346, R348, R351): regions registered and revoked, connections installed and
removed. -/

namespace Sys2Proof.Machine

open Sys2Proof

/-! ### CUR_REGISTER_REGION (R345, R346) -/

section Register

variable {p : Nat} {b : Bytes} {m : Mem} {d : Dev} {sc : Scope} {e g : Nat}

theorem register_free {die : Nat} (mk : Nat → Nat → Region) (hf : (d.die die).freeEntry d.now = some (e, g)) :
    d.register die mk = some (mk e g, d.onDie die fun x => { x with
      regions := x.regions ++ [mk e g]
      nextEntry := if x.nextEntry < 131072 then x.nextEntry + 1 else x.nextEntry
      freedEntries := x.freedEntries.filter fun y => y.1 != e }) := by
  simp only [Dev.register, hf]

/-- The region a body asks for, under an entry and its generation (R345). -/
def bodyRegion (b : Bytes) (sc : Scope) (e g : Nat) : Region :=
  { die := fld b 0 1, entry := e, gen := g, base := fld b 8 8, len := fld b 16 8, read := bit (fld b 1 1) 0, write := bit (fld b 1 1) 1,
    atomic := bit (fld b 1 1) 2, scope := sc, owner := if fld b 2 1 = 1 then fld b 4 4 + 1 else 0 }

theorem curRegisterRegionRun_registered (hsc : d.scopeOf (fld b 0 1) (fld b 2 1) (fld b 4 4) = some sc) (hu : d.dieUp (fld b 0 1) = true)
    (h1 : 1 ≤ fld b 16 8) (h2 : fld b 16 8 ≤ 2 ^ 32) (h3 : fld b 8 8 + fld b 16 8 ≤ 2 ^ 39)
    (hf : (d.die (fld b 0 1)).freeEntry d.now = some (e, g)) :
    curRegisterRegionRun p b m d = (d.onDie (fld b 0 1) fun x => { x with
      regions := x.regions ++ [bodyRegion b sc e g]
      nextEntry := if x.nextEntry < 131072 then x.nextEntry + 1 else x.nextEntry
      freedEntries := x.freedEntries.filter fun y => y.1 != e }).answer p { body := le 4 (bodyRegion b sc e g).key } := by
  have hok : ¬(d.dieUp (fld b 0 1) = false ∨ fld b 16 8 = 0 ∨ 2 ^ 32 < fld b 16 8 ∨ 2 ^ 39 < fld b 8 8 + fld b 16 8) := by
    rintro (hdown | hbad)
    · exact Bool.false_ne_true (hdown.symm.trans hu)
    · omega
  simp only [curRegisterRegionRun, hsc, if_neg hok, register_free _ hf]
  rfl

end Register

/-! ### CUR_REVOKE_REGION (R348) -/

section Revoke

variable {p : Nat} {d : Dev} {r : Region}

/-- The region as its revocation begins, with a command waiting (R348 steps 1 and 2). -/
def Region.revokedAt (r : Region) (now p : Nat) : Region := { r with gen := (r.gen + 1) % 256, revoking := some (now, some p) }

theorem revoke_unfinished (h : d.region r.die r.entry = some r) (hr : r.revoking = none) (hu : d.unfinished r.die r.entry = true) :
    d.revoke r.die r.entry (some p) = d.onRegion r.die r.entry fun _ => r.revokedAt d.now p := by
  simp only [Dev.revoke, h, hr, onRegion_unfinished, hu, Option.isSome_none, Bool.false_eq_true, if_false, if_true]
  rfl

theorem revoke_finished (h : d.region r.die r.entry = some r) (hr : r.revoking = none) (hu : d.unfinished r.die r.entry = false) :
    d.revoke r.die r.entry (some p) =
      (d.onRegion r.die r.entry fun _ => r.revokedAt d.now p).revoked (r.revokedAt d.now p) St.SUCCESS := by
  simp only [Dev.revoke, h, hr, onRegion_unfinished, hu, Option.isSome_none, Bool.false_eq_true, if_false]
  rfl

theorem curRevokeRegionRun_current {b : Bytes} {m : Mem} (h : d.region (bits (fld b 0 4) 31 29) (bits (fld b 0 4) 28 8) = some r)
    (hg : r.gen = bits (fld b 0 4) 7 0) (hr : r.revoking = none) :
    curRevokeRegionRun p b m d = d.revoke r.die r.entry (some p) := by
  have hcur : r.gen = bits (fld b 0 4) 7 0 ∧ r.revoking.isNone = true := ⟨hg, by rw [hr]; rfl⟩
  simp only [curRevokeRegionRun, h, if_pos hcur]

/-- A change of a die that leaves its connections leaves them on every die. -/
theorem onDie_map_conns {die : Nat} {f : Die → Die} (hf : ∀ x, (f x).conns = x.conns) :
    (d.onDie die f).dies.map Die.conns = d.dies.map Die.conns := by
  refine List.ext_getElem? fun i => ?_
  simp only [Dev.onDie, List.getElem?_map, List.getElem?_modify]
  split
  · simp [Function.comp_def, hf]
  · simp

theorem entryReleased_frame (die entry : Nat) (f : Region → Region) :
    ((d.onRegion die entry f).entryReleased r).dies.map Die.conns = d.dies.map Die.conns := by
  unfold Dev.entryReleased Dev.onRegion
  refine (onDie_map_conns ?_).trans (onDie_map_conns ?_) <;> exact fun _ => rfl

end Revoke

/-! ### CUR_CONNECT (R328, R329) -/

theorem curConnectRun_installed {p : Nat} {b : Bytes} {m : Mem} {d : Dev} {c : Conn}
    (hc : c = connOf b (d.die (fld b 0 1 / 2)).connOrder) (hin : c.inRange = true) (hg : d.groupOk c = true)
    (hq : d.qpnHeld c.localQpn = false) (hu : d.dieUp (fld b 0 1 / 2) = true) (hl : (d.die (fld b 0 1 / 2)).conns.length < 131072) :
    curConnectRun p b m d = ((d.onDie (fld b 0 1 / 2) fun x => { x with
      conns := x.conns ++ [c]
      connOrder := x.connOrder + 1
      freedQpns := x.freedQpns.filter fun y => y.1 != c.localQpn }).installed c.localQpn).answer p
        { body := le 4 (c.localQpn % 2 ^ 21) } := by
  subst hc
  have hl' : ¬131072 ≤ (d.die (fld b 0 1 / 2)).conns.length := Nat.not_le.2 hl
  simp only [curConnectRun, hin, hg, hq, hu, hl', Bool.true_eq_false, Bool.false_eq_true, or_self, if_false]

/-! ### CUR_DISCONNECT (R351) -/

section Disconnect

variable {p qpn : Nat} {b : Bytes} {m : Mem} {d : Dev} {c : Conn}

/-- A connection whose drain a command waits for (R351). -/
def Conn.draining (p : Nat) (c : Conn) : Conn := { c with state := if c.state = .error then .error else .disconnecting, drain := some p }

section Drain

variable (h : d.conn qpn = some c)
include h

theorem draining_conn : (d.onConn qpn (Conn.draining p)).conn qpn = some (c.draining p) := onConn_conn h fun _ => rfl

theorem drainCheck_waits (hq : c.queue ≠ []) :
    (d.onConn qpn (Conn.draining p)).drainCheck qpn = d.onConn qpn (Conn.draining p) := by
  have hq' : ¬c.queue.isEmpty = true := by simpa using hq
  rw [Dev.drainCheck, draining_conn h]
  exact if_neg hq'

theorem drainCheck_empty (hq : c.queue = []) : (d.onConn qpn (Conn.draining p)).drainCheck qpn =
    ((d.onConn qpn (Conn.draining p)).freeConn (c.draining p)).answer p {} := by
  have hq' : c.queue.isEmpty = true := by rw [hq]; rfl
  rw [Dev.drainCheck, draining_conn h]
  exact if_pos hq'

end Drain

/-- Nothing uses the connection, or FORCE is set (R351). -/
theorem not_refused_in_use {force used : Bool} (h : force = true ∨ used = false) : ¬(force = false ∧ used = true) := by
  rintro ⟨rfl, rfl⟩
  exact h.elim nofun nofun

variable (h : d.conn (fld b 0 4) = some c) (hs : c.state ≠ .disconnecting)
  (hf : bit (fld b 4 4) 1 = true ∨ d.connInUse (fld b 0 4) = false)
include h hs hf

theorem curDisconnectRun_drain (hd : bit (fld b 4 4) 0 = true) :
    curDisconnectRun p b m d = (d.onConn (fld b 0 4) (Conn.draining p)).drainCheck (fld b 0 4) := by
  simp only [curDisconnectRun, h, hs, not_refused_in_use hf, hd, if_false, if_true]
  rfl

theorem curDisconnectRun_at_once (hd : bit (fld b 4 4) 0 = false) :
    ∃ u : Dev, curDisconnectRun p b m d = u.answer p {} ∧ u.conn (fld b 0 4) = none := by
  simp only [curDisconnectRun, h, hs, not_refused_in_use hf, hd, Bool.false_eq_true, if_false]
  split
  next x hx =>
    exact ⟨_, rfl, by rw [← conn_localQpn hx, freeConn_conn]⟩
  next hx => exact ⟨_, rfl, hx⟩

end Disconnect

/-! ### The statement -/

/-- Settles O22: each command's run by the lemma of the branch the clause's conditions select. -/
theorem courierCommands : Obligations.CourierCommands := by
  unfold Obligations.CourierCommands
  refine ⟨fun p frame sc e g s h hsc hu h1 h2 h3 hf => ?_, fun p frame r s h hreg hdie hg hr hs => ?_,
    fun p frame s h hin hg hq hu hl => ?_, fun p frame c s h hc hst hf => ⟨fun hd hq => ?_, fun hd => ?_⟩⟩
  · exact exec_accepted rfl h (curRegisterRegionRun_registered (m := s.mem) hsc hu h1 h2 h3 hf)
  · have hown : (s.dev.rung p frame).region r.die r.entry = some r := by rw [hdie, region_entry hreg, hreg]
    have hrun := curRevokeRegionRun_current (p := p) (m := s.mem) hreg hg hr
    refine ⟨fun hun => exec_accepted rfl h (hrun.trans (revoke_unfinished hown hr hun)), fun hun => ?_⟩
    exact ⟨_, exec_accepted rfl h (hrun.trans ((revoke_finished hown hr hun).trans (revoked_waited hs rfl))),
      entryReleased_region, entryReleased_frame _ _ _, rfl, rfl⟩
  · exact exec_accepted rfl h (curConnectRun_installed (m := s.mem) rfl hin hg hq hu hl)
  · exact exec_accepted rfl h ((curDisconnectRun_drain (m := s.mem) hc hst hf hd).trans (drainCheck_waits hc hq))
  · cases hb : bit (fld (curDisconnectOp.bodyOf p frame s.dev) 4 4) 0 with
    | false =>
      obtain ⟨u, hrun, hgone⟩ := curDisconnectRun_at_once (p := p) (m := s.mem) hc hst hf hb
      exact ⟨u, exec_accepted rfl h hrun, hgone⟩
    | true =>
      have hq : c.queue = [] := hd.resolve_left (by rw [hb]; exact nofun)
      refine ⟨_, exec_accepted rfl h ((curDisconnectRun_drain (m := s.mem) hc hst hf hb).trans (drainCheck_empty hc hq)), ?_⟩
      rw [← conn_localQpn hc]
      exact freeConn_conn (c.draining p)

end Sys2Proof.Machine
end

section
/-! PROOFS. A write to package DRAM read back (R4, R15): the memories after one write, and the u64 at its address. -/

namespace Sys2Proof.Machine

open Sys2Proof

/-! ### Little-endian numbers (R4) -/

@[simp] theorem le_length (n v : Nat) : (le n v).length = n := by
  induction n generalizing v with
  | zero => rfl
  | succ n ih => simp [le, ih]

theorem leNat_le (n v : Nat) : leNat (le n v) = v % 256 ^ n := by
  induction n generalizing v with
  | zero => simp [le, leNat, Nat.mod_one]
  | succ n ih =>
    rw [le, leNat, ih, BitVec.toNat_ofNat, Nat.pow_succ' (m := 256)]
    exact Nat.mod_mul.symm

/-! ### One write to package DRAM -/

theorem cellsClear_zero (c : List Host.Cell) (a : Nat) : cellsClear c a 0 = c :=
  List.filter_eq_self.2 fun x _ => by simpa using Nat.lt_or_ge x.1 a

/-- A command whose one write goes to package DRAM leaves its bytes there, and the rest as it was. -/
theorem put_dramHolds {s : State} {d : Dev} {a : Nat} {b : Bytes} (hm : memWf s.mem = true)
    (hd : d.dma = [{ space := .dram, addr := a, bytes := b }]) : DramHolds s.mem (s.put d).mem a b := by
  have hwf : cellsWf s.mem.dram = true := by
    simp only [memWf, Bool.and_eq_true] at hm
    exact hm.1.1
  have hmem : (s.put d).mem = { s.mem with dram := cellsPut s.mem.dram a b } := by
    simp only [State.put, hd, List.foldl_cons, List.foldl_nil, memApply, cellsClear_zero]
  rw [hmem]
  exact ⟨fun i hi => cellsGet_put_same b hwf hi, fun x hx => cellsGet_put_other b hwf hx, rfl, rfl⟩

theorem cellsRead_of_dramHolds {m m' : Mem} {a : Nat} {b : Bytes} (h : DramHolds m m' a b) : cellsRead m'.dram a b.length = b := by
  obtain ⟨hin, -, -, -⟩ := h
  refine List.ext_getElem (by simp [cellsRead]) fun i _ hi => ?_
  simp only [cellsRead, List.getElem_map, List.getElem_range]
  exact hin i hi

theorem dramU64_of_dramHolds {m m' : Mem} {a : Nat} {v : BitVec 64} (h : DramHolds m m' a (le 8 v.toNat)) : dramU64 m' a = v := by
  have hread : cellsRead m'.dram a 8 = le 8 v.toNat := by simpa using cellsRead_of_dramHolds h
  rw [dramU64, hread, leNat_le]
  exact BitVec.eq_of_toNat_eq (by simpa using v.isLt)

/-! ### The device's write (R531) -/

section DramWrite

variable (d : Dev) (a : Nat) (b : Bytes)

theorem dramPlant_conns (x : Die) (off len : Nat) : (x.dramPlant off len).conns = x.conns := by
  unfold Die.dramPlant
  split <;> rfl

@[simp] theorem dramWrite_conn (qpn : Nat) : (d.dramWrite a b).conn qpn = d.conn qpn := by
  unfold Dev.dramWrite
  split
  · rfl
  · exact onDie_conn fun x => dramPlant_conns x _ _

@[simp] theorem dramWrite_ports : (d.dramWrite a b).ports = d.ports := by
  unfold Dev.dramWrite
  split <;> rfl

theorem dramWrite_dma (hs : (d.die (a / 2 ^ 36)).safe = false) :
    (d.dramWrite a b).dma = d.dma ++ [{ space := .dram, addr := a, bytes := b }] := by
  simp only [Dev.dramWrite, hs, Bool.false_eq_true, if_false, Dev.onDie_dma]

end DramWrite

end Sys2Proof.Machine
end

section
/-! PROOFS. The next request of a connection in service (R333, R337, R341, R347, R350): WRITE, READ and ATOMIC. -/

namespace Sys2Proof.Machine

open Sys2Proof

/-! ### What stands when a request is acted on (R326, R331, R333, R369) -/

@[simp] theorem pause_control (p : EthPort) : p.pause.control = p.control := by
  unfold EthPort.pause
  split
  · rfl
  · split <;> rfl

/-- A view of a port that the change keeps is kept on every port. -/
theorem onPort_port_view {α : Type} (d : Dev) (p q : Nat) (f : EthPort → EthPort) (v : EthPort → α) (h : ∀ x, v (f x) = v x) :
    v ((d.onPort p f).port q) = v (d.port q) := by
  by_cases hpq : q = p
  · subst hpq
    by_cases hl : q < d.ports.length
    · rw [Dev.onPort_self d q f hl, h]
    · simp [Dev.onPort, Dev.port, List.getD_eq_getElem?_getD, hl]
  · rw [Dev.onPort_other d p q f hpq]

section LeaveIngress

variable (d : Dev) (port qpn psn : Nat)

@[simp] theorem leaveIngress_dies : (d.leaveIngress port qpn psn).1.dies = d.dies := by
  unfold Dev.leaveIngress
  split <;> rfl

@[simp] theorem leaveIngress_dma : (d.leaveIngress port qpn psn).1.dma = d.dma := by
  unfold Dev.leaveIngress
  split <;> rfl

@[simp] theorem leaveIngress_ports_length : (d.leaveIngress port qpn psn).1.ports.length = d.ports.length := by
  unfold Dev.leaveIngress
  split
  · rfl
  · simp [Dev.onPort]

@[simp] theorem leaveIngress_control (q : Nat) : ((d.leaveIngress port qpn psn).1.port q).control = (d.port q).control := by
  unfold Dev.leaveIngress
  split
  · rfl
  · exact onPort_port_view d port q _ EthPort.control fun x => pause_control _

end LeaveIngress

section CtxTouch

variable (d : Dev) (qpn : Nat)

@[simp] theorem ctxTouch_ports : (d.ctxTouch qpn).ports = d.ports := by
  unfold Dev.ctxTouch
  dsimp only
  split <;> rfl

@[simp] theorem ctxTouch_dma : (d.ctxTouch qpn).dma = d.dma := by
  unfold Dev.ctxTouch
  dsimp only
  split <;> rfl

/-- Loading a context changes the die's context cache and its misses only (R331). -/
theorem ctxTouch_die_view {α : Type} (i : Nat) (v : Die → α)
    (hv : ∀ (x : Die) (k : CurCtrs) (l : List Nat), v { x with cur := k, ctxCache := l } = v x) :
    v ((d.ctxTouch qpn).die i) = v (d.die i) := by
  unfold Dev.ctxTouch
  dsimp only
  split
  · exact Dev.onDie_die_view _ _ _ _ v fun x => hv x x.cur _
  · exact (Dev.onDie_die_view _ _ _ _ v fun x => hv x x.cur _).trans (Dev.onDie_die_view _ _ _ _ v fun x => hv x _ x.ctxCache)

end CtxTouch

@[simp] theorem onConn_dma (d : Dev) (qpn : Nat) (f : Conn → Conn) : (d.onConn qpn f).dma = d.dma := rfl

@[simp] theorem onConn_ports (d : Dev) (qpn : Nat) (f : Conn → Conn) : (d.onConn qpn f).ports = d.ports := rfl

@[simp] theorem onConn_safe (d : Dev) (qpn : Nat) (f : Conn → Conn) (i : Nat) : ((d.onConn qpn f).die i).safe = (d.die i).safe :=
  Dev.onDie_die_view _ _ _ _ Die.safe fun _ => rfl

section InTurn

variable {d : Dev} {h : RoceHdr} {c : Conn}

theorem accept_conn (ha : d.accept h = .ok c) : d.conn h.qpn = some c := by
  unfold Dev.accept at ha
  dsimp only at ha
  split at ha
  · cases ha
  · split at ha
    · cases ha
    · split at ha
      · cases ha
      next hc =>
        split at ha
        · cases ha
        · cases ha
          exact hc

theorem Dev.Expects.conn (he : d.Expects h c) : d.conn h.qpn = some c := accept_conn he.1

theorem Dev.Expects.localQpn (he : d.Expects h c) : c.localQpn = h.qpn := conn_localQpn he.conn

/-- The next request of a connection in service is acted on. -/
theorem onRequest_expected {dup act : Dev → Conn → Dev} (he : d.Expects h c) : d.onRequest h dup act = act (d.inTurn h c) c := by
  obtain ⟨ha, hs, hce, hmark, hp⟩ := he
  unfold Dev.onRequest Dev.inTurn
  rw [ha]
  dsimp only
  rw [hce, hmark, hp]
  rcases hs with hs | hs
  · rw [hs]
    rfl
  · rw [hs]
    rfl

theorem inTurn_conn (he : d.Expects h c) : (d.inTurn h c).conn h.qpn = some { c with gapNaked := false } := by
  have hc : ((d.leaveIngress c.port h.qpn h.psn).1.ctxTouch h.qpn).conn h.qpn = some c := by
    rw [conn_eq_of_conns (ctxTouch_die_view _ _ _ Die.conns fun _ _ _ => rfl), conn_eq_of_dies (leaveIngress_dies _ _ _ _), he.conn]
  rw [Dev.inTurn]
  exact onConn_conn hc fun _ => rfl

@[simp] theorem inTurn_safe (i : Nat) : ((d.inTurn h c).die i).safe = (d.die i).safe := by
  rw [Dev.inTurn, onConn_safe, ctxTouch_die_view _ _ _ Die.safe fun _ _ _ => rfl, Dev.die, leaveIngress_dies, ← Dev.die]

@[simp] theorem inTurn_dma : (d.inTurn h c).dma = d.dma := by
  simp [Dev.inTurn]

theorem inTurn_ports : (d.inTurn h c).ports = (d.leaveIngress c.port h.qpn h.psn).1.ports := by
  simp [Dev.inTurn]

end InTurn

/-! ### INBOUND_WRITE (R341, R347) -/

theorem exec_inboundWrite (h : RoceHdr) (first last imm : Bool) (key addr len : Nat) (payload : Bytes) (s : State) :
    exec (.inboundWrite h first last imm key addr len payload) s =
      .next (s.put (inboundWriteEffect h first last imm key addr len payload s.mem s.dev)) := rfl

section Write

variable {d : Dev} {h : RoceHdr} {c : Conn} {r : Region} {key addr len : Nat} {last : Bool} {payload : Bytes} {m : Mem} {x : InMsg}

@[simp] theorem sendAck_dma (d : Dev) (qpn : Nat) : (d.sendAck qpn).dma = d.dma := by
  unfold Dev.sendAck
  split <;> rfl

@[simp] theorem packetTaken_dma (d : Dev) (qpn : Nat) (ackReq : Bool) : (d.packetTaken qpn ackReq).dma = d.dma := by
  unfold Dev.packetTaken
  dsimp only
  split
  · rfl
  · split
    · exact sendAck_dma _ _
    · rfl

/-- A connection that counts one more packet to acknowledge (R333). -/
def Conn.packetCounted (now : Nat) (c : Conn) : Conn :=
  { c with unacked := c.unacked + 1, unackedSince := if c.unacked = 0 then now else c.unackedSince }

theorem sendAck_conn {qpn : Nat} (hc : d.conn qpn = some c) : (d.sendAck qpn).conn qpn = some { c with unacked := 0 } := by
  rw [Dev.sendAck, hc]
  exact onConn_conn ((control_conn _ _).trans hc) fun _ => rfl

/-- An accepted packet changes of its connection what an acknowledgement is owed for (R333). -/
theorem packetTaken_conn {qpn : Nat} (hc : d.conn qpn = some c) (ackReq : Bool) :
    ∃ n t, (d.packetTaken qpn ackReq).conn qpn = some { c with unacked := n, unackedSince := t } := by
  have hcount : (d.onConn qpn (Conn.packetCounted d.now)).conn qpn = some (c.packetCounted d.now) := onConn_conn hc fun _ => rfl
  unfold Dev.packetTaken
  dsimp only
  split
  · exact ⟨_, _, hcount⟩
  · split
    · have hack := sendAck_conn hcount
      exact ⟨_, _, hack⟩
    · exact ⟨_, _, hcount⟩

/-- A connection one of whose WRITE packets has been placed: EXP_PSN moves on, and the message goes on or ends (R341). -/
def Conn.packetPlaced (last : Bool) (x : InMsg) (n : Nat) (c : Conn) : Conn :=
  { c with
    expPsn := psnAdd c.expPsn 1
    bytesRx := c.bytesRx + n
    inbound := if last then c.inbound.erase x
      else c.inbound.map fun y => if y = x then { x with addr := x.addr + n, left := x.left - n } else y }

theorem placeWrite_eq : d.placeWrite h last x payload =
    ((d.dramWrite x.addr payload).onConn h.qpn (Conn.packetPlaced last x payload.length)).packetTaken h.qpn h.ackReq := rfl

theorem placeWrite_dma (hs : (d.die (x.addr / 2 ^ 36)).safe = false) :
    (d.placeWrite h last x payload).dma = d.dma ++ [{ space := .dram, addr := x.addr, bytes := payload }] := by
  rw [placeWrite_eq, packetTaken_dma, onConn_dma, dramWrite_dma _ _ _ hs]

theorem placeWrite_conn (hc : d.conn h.qpn = some c) : ∃ c', (d.placeWrite h last x payload).conn h.qpn = some c' ∧
    c'.state = c.state ∧ c'.expPsn = psnAdd c.expPsn 1 ∧ c'.bytesRx = c.bytesRx + payload.length ∧ c'.gapNaked = c.gapNaked := by
  have hplaced : ((d.dramWrite x.addr payload).onConn h.qpn (Conn.packetPlaced last x payload.length)).conn h.qpn =
      some (c.packetPlaced last x payload.length) := onConn_conn ((dramWrite_conn _ _ _ _).trans hc) fun _ => rfl
  obtain ⟨n, t, htaken⟩ := packetTaken_conn hplaced h.ackReq
  exact ⟨_, htaken, rfl, rfl, rfl, rfl⟩

/-- A checked WRITE of one packet. -/
def oneWrite (r : Region) (h : RoceHdr) (addr len : Nat) : InMsg :=
  { write := true, entry := r.entry, addr := addr, left := len, psn := h.psn }

/-- A connection with one more checked message (R341). -/
def Conn.messageChecked (x : InMsg) (c : Conn) : Conn := { c with inbound := c.inbound ++ [x] }

/-- The device a checked WRITE of one packet leaves. -/
def Dev.writeServed (d : Dev) (h : RoceHdr) (c : Conn) (x : InMsg) (payload : Bytes) : Dev :=
  ((d.inTurn h c).onConn h.qpn (Conn.messageChecked x)).placeWrite h true x payload

theorem inboundWriteEffect_checked (he : d.Expects h c)
    (hk : (d.inTurn h c).checkKey c key addr payload.length .write = .ok r) :
    inboundWriteEffect h true true false key addr payload.length payload m d =
      d.writeServed h c (oneWrite r h addr payload.length) payload := by
  rw [inboundWriteEffect, onRequest_expected he]
  simp only [hk, Bool.false_eq_true, if_false, if_true, Nat.lt_irrefl, ne_eq, not_true_eq_false, and_false, or_self]
  rfl

theorem writeServed_dma (hs : (d.die (x.addr / 2 ^ 36)).safe = false) :
    (d.writeServed h c x payload).dma = d.dma ++ [{ space := .dram, addr := x.addr, bytes := payload }] := by
  rw [Dev.writeServed, placeWrite_dma ((onConn_safe _ _ _ _).trans ((inTurn_safe _).trans hs)), onConn_dma, inTurn_dma]

theorem writeServed_conn (he : d.Expects h c) : ∃ c', (d.writeServed h c x payload).conn h.qpn = some c' ∧
    c'.state = c.state ∧ c'.expPsn = psnAdd c.expPsn 1 ∧ c'.bytesRx = c.bytesRx + payload.length ∧ c'.gapNaked = false := by
  have hchecked : ((d.inTurn h c).onConn h.qpn (Conn.messageChecked x)).conn h.qpn =
      some (({ c with gapNaked := false } : Conn).messageChecked x) := onConn_conn (inTurn_conn he) fun _ => rfl
  exact placeWrite_conn hchecked

theorem inboundWriteEffect_refused (he : d.Expects h c) (hk : (d.inTurn h c).checkKey c key addr len .write = .refused) :
    inboundWriteEffect h true last false key addr len payload m d = (d.inTurn h c).nakAccess c h.psn 1 false := by
  rw [inboundWriteEffect, onRequest_expected he]
  simp only [hk, Bool.false_eq_true, if_false, if_true]

theorem inboundWriteEffect_stale (he : d.Expects h c) (hk : (d.inTurn h c).checkKey c key addr len .write = .stale) :
    inboundWriteEffect h true last false key addr len payload m d = (d.inTurn h c).nakAccess c h.psn 1 true := by
  rw [inboundWriteEffect, onRequest_expected he]
  simp only [hk, Bool.false_eq_true, if_false, if_true]

/-- On a PEER connection a refusal draws a NAK, and service goes on at the PSN that follows (R337). -/
theorem nakAccess_peer (hk : c.kind = 1) (psn packets : Nat) (stale : Bool) :
    d.nakAccess c psn packets stale =
      ((if stale then d.onCur (qpnDie c.localQpn) fun k => { k with keyRefusedGen := k.keyRefusedGen + 1 }
        else d.onConn c.localQpn fun c => { c with keyRefused := c.keyRefused + 1 }).control c
          (.nakRemoteAccess c.localQpn psn)).onConn c.localQpn fun c => { c with expPsn := psnAdd psn packets, gapNaked := false } :=
  if_pos hk

end Write

/-! ### INBOUND_READ_REQUEST (R350) -/

theorem exec_inboundReadRequest (h : RoceHdr) (key addr len : Nat) (s : State) :
    exec (.inboundReadRequest h key addr len) s = .next (s.put (inboundReadRequestEffect h key addr len s.mem s.dev)) := rfl

section Read

variable {d : Dev} {h : RoceHdr} {c : Conn} {r : Region} {key addr len : Nat} {m : Mem}

/-- Responses joining the CONTROL class leave the connections. -/
theorem foldl_control_conn {α : Type} (f : α → Ctl) (l : List α) (d : Dev) (qpn : Nat) :
    (l.foldl (fun (d : Dev) k => d.control c (f k)) d).conn qpn = d.conn qpn := by
  induction l generalizing d with
  | nil => rfl
  | cons k ks ih => rw [List.foldl_cons, ih, control_conn]

/-- The responses of a READ leave of its connection all but the messages it serves. -/
theorem answerRead_conn {x : Conn} {qpn : Nat} (hq : c.localQpn = qpn) (hx : d.conn qpn = some x) (psn entry : Nat) :
    ∃ l, (d.answerRead c psn entry addr len).conn qpn = some { x with inbound := l } := by
  subst hq
  exact ⟨_, (foldl_control_conn _ _ _ _).trans (onConn_conn hx fun _ => rfl)⟩

theorem inboundReadRequestEffect_checked (he : d.Expects h c) (hk : (d.inTurn h c).checkKey c key addr len .read = .ok r)
    (hi : (c.inbound.filter fun x => !x.write).length < c.ird) (hl : len ≤ 2 ^ 31) :
    inboundReadRequestEffect h key addr len m d = ((d.inTurn h c).answerRead c h.psn r.entry addr len).onConn h.qpn fun c =>
      { c with expPsn := psnAdd c.expPsn (readPackets c.pmtu len), unacked := 0 } := by
  have hroom : ¬(c.ird ≤ (c.inbound.filter fun x => !x.write).length ∨ 2 ^ 31 < len) := by omega
  obtain ⟨l, hans⟩ := answerRead_conn (addr := addr) (len := len) he.localQpn (inTurn_conn he) h.psn r.entry
  have hgoes : ¬(c.state = .error ∨ c.expPsn ≠ c.expPsn) := by
    obtain ⟨-, hs, -, -, -⟩ := he
    rcases hs with hs | hs <;> simp [hs]
  rw [inboundReadRequestEffect, onRequest_expected he]
  simp only [if_neg hroom, Dev.doRead, hk, hans, if_neg hgoes]

end Read

/-! ### INBOUND_ATOMIC (R341, R350) -/

theorem exec_inboundAtomic (h : RoceHdr) (compareSwap : Bool) (key addr : Nat) (add : BitVec 64) (s : State) :
    exec (.inboundAtomic h compareSwap key addr add) s = .next (s.put (inboundAtomicEffect h compareSwap key addr add s.mem s.dev)) := rfl

section Atomic

variable {d : Dev} {h : RoceHdr} {c : Conn} {r : Region} {key addr : Nat} {old add : BitVec 64} {m : Mem}

/-- A connection that has served an ATOMIC: EXP_PSN moved on, the original value kept for a replay among the last 16 (R350). -/
def Conn.servedAtomic (psn : Nat) (old : BitVec 64) (c : Conn) : Conn :=
  { c with
    expPsn := psnAdd c.expPsn 1
    unacked := 0
    atomics := (if 16 ≤ c.atomics.length then c.atomics.tail else c.atomics) ++ [(psn, old)] }

theorem servedAtomic_last (psn : Nat) (old : BitVec 64) (c : Conn) : (c.servedAtomic psn old).atomics.getLast? = some (psn, old) :=
  List.getLast?_concat

/-- The device an ATOMIC leaves: the sum in DRAM, the original value recorded and answered (R341, R350). -/
def Dev.atomicServed (d : Dev) (h : RoceHdr) (c : Conn) (addr : Nat) (old add : BitVec 64) : Dev :=
  (((d.inTurn h c).dramWrite addr (le 8 (old + add).toNat)).onConn h.qpn (Conn.servedAtomic h.psn old)).control c
    (.atomicResp h.qpn h.psn old)

theorem inboundAtomicEffect_checked (he : d.Expects h c) (hk : (d.inTurn h c).checkKey c key addr 8 .atomic = .ok r) :
    inboundAtomicEffect h false key addr add m d = d.atomicServed h c addr (dramU64 m addr) add := by
  rw [inboundAtomicEffect, onRequest_expected he]
  simp only [hk, Bool.false_eq_true, if_false]
  rfl

theorem atomicServed_dma (hs : (d.die (addr / 2 ^ 36)).safe = false) : (d.atomicServed h c addr old add).dma =
    d.dma ++ [{ space := .dram, addr := addr, bytes := le 8 (old + add).toNat }] := by
  change ((d.inTurn h c).dramWrite addr _).dma = _
  rw [dramWrite_dma _ _ _ ((inTurn_safe _).trans hs), inTurn_dma]

theorem atomicServed_conn (he : d.Expects h c) :
    (d.atomicServed h c addr old add).conn h.qpn = some (({ c with gapNaked := false } : Conn).servedAtomic h.psn old) :=
  (control_conn _ _).trans (onConn_conn ((dramWrite_conn _ _ _ _).trans (inTurn_conn he)) fun _ => rfl)

/-- The CONTROL queue of a connection's port after one more message. -/
theorem control_port_ctl (d : Dev) (c : Conn) (x : Ctl) :
    ((d.control c x).port c.port).control.map (·.ctl) =
      (d.port c.port).control.map (·.ctl) ++ (if c.port < d.ports.length then [some x] else []) := by
  by_cases hp : c.port < d.ports.length
  · rw [Dev.control, Dev.onPort_self _ _ _ hp, if_pos hp]
    simp
  · simp [Dev.control, Dev.onPort, Dev.port, List.getD_eq_getElem?_getD, hp]

/-- The response joins the CONTROL queue, which nothing else of the ATOMIC touches (R354). -/
theorem atomicServed_control : ((d.atomicServed h c addr old add).port c.port).control.map (·.ctl) =
    (d.port c.port).control.map (·.ctl) ++ (if c.port < d.ports.length then [some (.atomicResp h.qpn h.psn old)] else []) := by
  have hports : (((d.inTurn h c).dramWrite addr (le 8 (old + add).toNat)).onConn h.qpn (Conn.servedAtomic h.psn old)).ports =
      (d.leaveIngress c.port h.qpn h.psn).1.ports := by rw [onConn_ports, dramWrite_ports, inTurn_ports]
  rw [Dev.atomicServed, control_port_ctl, hports, leaveIngress_ports_length, Dev.port, hports, ← Dev.port, leaveIngress_control]

end Atomic

/-! ### The statement -/

/-- Settles O23: the effect of each request by the lemma of the branch the clause's conditions select; its one write by what it leaves of
the memories. -/
theorem inboundRequests : Obligations.InboundRequests := by
  unfold Obligations.InboundRequests
  refine ⟨fun h c r key addr payload s hsound he hk hsafe => ?_,
    fun h c last key addr len payload s he hkind => ⟨fun hk => ?_, fun hk => ?_⟩,
    fun h c r key addr len s he hk hi hl => ?_, fun h c r key addr add s hsound he hk hsafe => ?_⟩
  · obtain ⟨hmem, hdma⟩ := hsound
    have hexec := exec_inboundWrite h true true false key addr payload.length payload s
    rw [inboundWriteEffect_checked he hk] at hexec
    have hheld := put_dramHolds (d := s.dev.writeServed h c (oneWrite r h addr payload.length) payload) hmem (by
      rw [writeServed_dma hsafe, hdma]
      rfl)
    obtain ⟨c', hc'⟩ := writeServed_conn (x := oneWrite r h addr payload.length) (payload := payload) he
    exact ⟨_, c', hexec, hheld, hc'⟩
  · rw [exec_inboundWrite, inboundWriteEffect_refused he hk, nakAccess_peer hkind, he.localQpn]
    rfl
  · rw [exec_inboundWrite, inboundWriteEffect_stale he hk, nakAccess_peer hkind, he.localQpn]
    rfl
  · rw [exec_inboundReadRequest, inboundReadRequestEffect_checked he hk hi hl]
  · obtain ⟨hmem, hdma⟩ := hsound
    have hexec := exec_inboundAtomic h false key addr add s
    rw [inboundAtomicEffect_checked he hk] at hexec
    have hheld := put_dramHolds (d := s.dev.atomicServed h c addr (dramU64 s.mem addr) add) hmem (by
      rw [atomicServed_dma hsafe, hdma]
      rfl)
    refine ⟨_, ({ c with gapNaked := false } : Conn).servedAtomic h.psn (dramU64 s.mem addr), hexec, dramU64_of_dramHolds hheld, hheld,
      atomicServed_conn he, rfl, servedAtomic_last _ _ _, ?_⟩
    rw [put_dev_port]
    exact atomicServed_control

end Sys2Proof.Machine
end

section
/-! PROOFS. The dispatch unit's pigeonhole commands (R358, R363, R366): node settings, ingress meters and gate schedules. -/

namespace Sys2Proof.Machine

open Sys2Proof

/-! ### DSP_SET_NODE (R358) -/

/-- A field below all ones is taken as given (R579). -/
theorem orDefault_given {b : Bytes} {off size dflt : Nat} (h : fld b off size < ones (8 * size)) :
    orDefault b off size dflt = fld b off size :=
  if_neg (Nat.ne_of_lt h)

theorem dspSetNodeRun_known {p : Nat} {b : Bytes} {m : Mem} {d : Dev} (hl : 1 ≤ fld b 0 1) (hl' : fld b 0 1 ≤ 3)
    (hport : fld b 1 1 ≤ 15) (hw : 1 ≤ fld b 2 1) (hw' : fld b 2 1 ≤ 254) (hr : fld b 12 4 ≤ 800000) (hb : 4325 ≤ fld b 16 4)
    (hb' : fld b 16 4 ≤ 16777216)
    (hn : ((d.port (fld b 1 1)).node (levelKey (fld b 0 1) (fld b 4 4) (fld b 8 4))).isSome = true) :
    dspSetNodeRun p b m d = (d.onPort (fld b 1 1) fun x => x.onNode (levelKey (fld b 0 1) (fld b 4 4) (fld b 8 4)) fun n =>
      { n with next := some (fld b 2 1, fld b 12 4, fld b 16 4) }).answer p {} := by
  have h0 : fld b 0 1 ≠ 0 := by omega
  have h4 : fld b 0 1 ≠ 4 := by omega
  have hweight : ∀ dflt, orDefault b 2 1 dflt = fld b 2 1 := fun _ => orDefault_given (Nat.lt_of_le_of_lt hw' (by decide))
  have hrate : ∀ dflt, orDefault b 12 4 dflt = fld b 12 4 := fun _ => orDefault_given (Nat.lt_of_le_of_lt hr (by decide))
  have hburst : ∀ dflt, orDefault b 16 4 dflt = fld b 16 4 := fun _ => orDefault_given (Nat.lt_of_le_of_lt hb' (by decide))
  have hrange : ¬(4 < fld b 0 1 ∨ 15 < fld b 1 1 ∨ fld b 2 1 = 0 ∨ 800000 < fld b 12 4 ∨ fld b 16 4 < 4325 ∨ 16777216 < fld b 16 4) := by
    omega
  have hknown : ¬((d.port (fld b 1 1)).node (levelKey (fld b 0 1) (fld b 4 4) (fld b 8 4))).isNone = true := by
    simpa [Option.isSome_iff_ne_none] using hn
  simp [dspSetNodeRun, hweight, hrate, hburst, h0, h4, hrange, hknown]

/-! ### DSP_SET_METER (R366) -/

section Meters

variable {p : Nat} {b : Bytes} {m : Mem} {d : Dev} {x : Binding}

/-- The meter a body asks for at a binding, under its number, with full buckets. -/
def bodyMeter (b : Bytes) (x : Binding) (n now : Nat) : Meter :=
  { number := n, byConn := x.byConn, qpn := x.qpn, port := x.port, prio := x.prio, cir := fld b 12 4, pir := fld b 16 4,
    cbs := fld b 20 4, pbs := fld b 24 4, yellowMarks := bit (fld b 7 1) 0, redMarks := bit (fld b 7 1) 1,
    tc := fld b 20 4 * 65536, tp := fld b 24 4 * 65536, refilled := now }

/-- A meter given a body's values: refilled until now, then its buckets clamped to the new depths. -/
def Meter.retuned (w : Meter) (b : Bytes) (now : Nat) : Meter :=
  { w.refill now with
    cir := fld b 12 4, pir := fld b 16 4, cbs := fld b 20 4, pbs := fld b 24 4
    yellowMarks := bit (fld b 7 1) 0
    redMarks := bit (fld b 7 1) 1
    tc := min (w.refill now).tc (fld b 20 4 * 65536)
    tp := min (w.refill now).tp (fld b 24 4 * 65536) }

/-- The lowest number no meter of the die has is the first of the 4,096 that is free. -/
theorem find_free_meter_number {ms : List Meter} {i : Nat} (hi : i < 4096) (hf : ∀ w ∈ ms, w.number ≠ i + 1)
    (hl : ∀ k < i, ∃ w ∈ ms, w.number = k + 1) :
    (List.range 4096).find? (fun i => !(ms.any fun w => w.number == i + 1)) = some i := by
  rw [List.find?_range_eq_some]
  exact ⟨by simpa using hf, by simpa using hi, fun k hk => by simpa using hl k hk⟩

variable (h : d.bindingOf b = some x)
include h

theorem dspSetMeterRun_made {i : Nat} (hn : fld b 0 4 = 0) (hv : meterValuesOk b = true)
    (hb : ∀ w ∈ (d.die x.die).meters, w.binding ≠ x)
    (hf : (List.range 4096).find? (fun i => !((d.die x.die).meters.any fun w => w.number == i + 1)) = some i) :
    dspSetMeterRun p b m d = (d.onDie x.die fun y => { y with meters := y.meters ++ [bodyMeter b x (i + 1) d.now] }).answer p
      { body := le 4 (i + 1) } := by
  have hfree : (d.die x.die).meters.find? (fun w => w.binding == x) = none := List.find?_eq_none.2 (by simpa using hb)
  simp [dspSetMeterRun, h, hn, hv, hfree, hf, bodyMeter]

theorem dspSetMeterRun_removed {w : Meter} (hn : fld b 0 4 = 0xFFFFFFFF)
    (hb : (d.die x.die).meters.find? (fun w => w.binding == x) = some w) :
    dspSetMeterRun p b m d = (d.onDie x.die fun y => { y with meters := y.meters.filter fun z => z.number != w.number }).answer p
      { body := le 4 w.number } := by
  simp only [dspSetMeterRun, h, hn, hb, if_true]

theorem dspSetMeterRun_retuned {w : Meter} (hn : 1 ≤ fld b 0 4) (hn' : fld b 0 4 ≤ 4096) (hv : meterValuesOk b = true)
    (hf : (d.die x.die).meters.find? (fun w => w.number == fld b 0 4) = some w) (hb : w.binding = x) :
    dspSetMeterRun p b m d = (d.onDie x.die fun z =>
      { z with meters := updWhere z.meters (fun w => w.number == fld b 0 4) fun _ => w.retuned b d.now }).answer p
        { body := le 4 (fld b 0 4) } := by
  have hremove : fld b 0 4 ≠ 0xFFFFFFFF := by omega
  have hmake : fld b 0 4 ≠ 0 := by omega
  simp [dspSetMeterRun, h, hremove, hmake, hv, hf, hb, Meter.retuned]

end Meters

/-! ### DSP_SET_GATES (R363) -/

theorem dspSetGatesRun_waits {p : Nat} {b : Bytes} {m : Mem} {d : Dev} (hg : gatesWellFormed b = true)
    (hw : windowsOk (d.tickLenAt (fld b 8 8)) (gatesOf b) = true) (ht : d.clk.tick + 2 ≤ fld b 8 8) :
    dspSetGatesRun p b m d =
      (d.onPort (fld b 0 1) fun x => { x with nextGates := some (fld b 8 8, gatesOf b) }).answer p {} := by
  have ht' : ¬fld b 8 8 < d.clk.tick + 2 := Nat.not_lt.2 ht
  simp only [dspSetGatesRun, hg, hw, ht', Bool.true_eq_false, if_false]

/-! ### The statement -/

/-- Settles O20: each command's run by the lemma of the branch the clause's conditions select. -/
theorem dispatchSettingsCommands : Obligations.DispatchSettingsCommands := by
  unfold Obligations.DispatchSettingsCommands
  refine ⟨fun p frame s h hl hl' hport hw hw' hr hb hb' hn => ?_,
    fun p frame s h x hx => ⟨fun i hn hv hb hi hf hlow => ?_, fun w hn hb => ?_, fun w hn hn' hv hf hb => ?_⟩,
    fun p frame s h hg hw ht => ?_⟩
  · exact exec_accepted rfl h (dspSetNodeRun_known (m := s.mem) hl hl' hport hw hw' hr hb hb' hn)
  · exact exec_accepted rfl h (dspSetMeterRun_made (m := s.mem) hx hn hv hb (find_free_meter_number hi hf hlow))
  · exact exec_accepted rfl h (dspSetMeterRun_removed (m := s.mem) hx hn hb)
  · exact ⟨_, w.retuned _ _, exec_accepted rfl h (dspSetMeterRun_retuned (m := s.mem) hx hn hn' hv hf hb), rfl, hb, rfl, rfl, rfl, rfl,
      rfl, Nat.min_le_right _ _, Nat.min_le_right _ _, rfl, rfl, rfl⟩
  · exact exec_accepted rfl h (dspSetGatesRun_waits (m := s.mem) hg hw ht)

end Sys2Proof.Machine
end

section
/-! PROOFS. Frames of the dispatch unit (R338, R354, R363, R366 to R369): sent, admitted, paused and gated. -/

namespace Sys2Proof.Machine

open Sys2Proof

/-- A command leaves what its effect makes of the device. -/
theorem exec_of_effect {c : Instr} {s : State} {e d : Dev} (hc : exec c s = .next (s.put e)) (h : e = d) : exec c s = .next (s.put d) := by
  rw [hc, h]

/-! ### FRAME_TRANSMIT (R354) -/

theorem frameTransmitEffect_control {port : Nat} {k : Pkt} {m : Mem} {d : Dev} (hp : port < 16) (hu : d.ethUp port = true)
    (hl : port < d.ports.length) (hk : (d.port port).control.find? (fun k => (d.port port).unpaused k.prio) = some k) :
    let t := d.until (d.port port).txUntil
    let t := t.onPort port fun p => { p with nodes := p.nodes.map fun n => n.refill t.now }
    frameTransmitEffect port m d = (t.onPort port fun p => { p with control := p.control.erase k }).sendFrame m port k := by
  intro t u
  have hrun : ¬(16 ≤ port ∨ d.ethUp port = false) := by simpa using ⟨hp, hu⟩
  have hport : u.port port = { d.port port with nodes := (d.port port).nodes.map fun n => n.refill t.now } := Dev.onPort_self t port _ hl
  have hfind : (u.port port).control.find? (fun k => (u.port port).unpaused k.prio) = some k := by
    rw [hport]
    exact hk
  rw [frameTransmitEffect, if_neg hrun]
  simp only [u, t] at hfind ⊢
  rw [hfind]

/-! ### INGRESS_FRAME (R366 to R369) -/

theorem ingressFrameEffect_response (port len pcp : Nat) (hdr : RoceHdr) (m : Mem) (d : Dev) :
    ingressFrameEffect port len pcp hdr true m d = d :=
  if_pos (by simp)

/-- A frame above the peak bucket of a meter that drops it is red: it counts, and no bucket moves (R367). -/
theorem take_dropped {w : Meter} {n : Nat} (hr : w.redMarks = false) (ht : w.tp < n * 65536) :
    w.take n = ({ w with red := w.red + n, dropped := w.dropped + 1 }, true, false) := by
  simp only [Meter.take, if_pos ht, hr, Bool.not_false, b2n, if_true]

section Requests

variable {port len pcp : Nat} {hdr : RoceHdr} {m : Mem} {d : Dev} (hp : port < 16) (hu : d.ethUp port = true)
  (hq : d.isRespPrio port pcp = false)
include hp hu hq

/-- A request on a data priority of a running port is metered (R368). -/
theorem request_not_passed : ¬(16 ≤ port ∨ d.ethUp port = false ∨ false = true ∨ d.isRespPrio port pcp = true) := by
  simpa [hu, hq] using hp

theorem ingressFrameEffect_unmetered (hm : (d.die (port / 2)).meterOf hdr.qpn port pcp = none) (hl : len ≤ (d.port port).ingressFree) :
    ingressFrameEffect port len pcp hdr false m d = d.onPort port fun p =>
      ({ p with ingress := p.ingress ++ [{ qpn := hdr.qpn, psn := hdr.psn, len := len, prio := pcp, ce := hdr.ce }] } : EthPort).pause := by
  have hroom : ¬(false = true ∨ (d.port port).ingressFree < len) := by simpa using hl
  simp only [ingressFrameEffect, if_neg (request_not_passed hp hu hq), hm, if_neg hroom, Bool.or_false]

theorem ingressFrameEffect_dropped {w : Meter} (hm : (d.die (port / 2)).meterOf hdr.qpn port pcp = some w) (hr : w.redMarks = false)
    (ht : (w.refill d.now).tp < (d.port port).counted len * 65536) :
    ingressFrameEffect port len pcp hdr false m d = d.onDie (port / 2) fun y =>
      { y with meters := updWhere y.meters (fun z => z.number == w.number) fun _ => { w.refill d.now with
        red := w.red + (d.port port).counted len
        dropped := w.dropped + 1 } } := by
  simp only [ingressFrameEffect, if_neg (request_not_passed hp hu hq), hm, take_dropped (w := w.refill d.now) hr ht, true_or, if_true]
  rfl

end Requests

/-! ### PAUSE_FRAME and PAUSE_EXPIRY (R338) -/

theorem pauseFrameEffect_counted {port prio quanta : Nat} {m : Mem} {d : Dev} (hp : port < 16) (hk : prio < 8) (hu : d.ethUp port = true) :
    pauseFrameEffect port prio quanta m d = d.onPort port fun p => { p with
      pauseRx := p.pauseRx.modify prio (· + 1)
      paused := p.paused.set prio (if quanta = 0 then none else some (d.now + (quanta * 64 + 99) / 100)) } :=
  if_neg (by simpa [hu] using ⟨hp, hk⟩)

theorem pauseExpiryEffect_paused {port prio t : Nat} {m : Mem} {d : Dev} (h : (d.port port).paused[prio]? = some (some t)) :
    pauseExpiryEffect port prio m d = (d.until t).onPort port fun p => { p with paused := p.paused.set prio none } := by
  simp only [pauseExpiryEffect, List.getD_eq_getElem?_getD, h, Option.getD_some]

/-! ### GATE_ENTRY and GATE_SCHEDULE_CHANGE (R363) -/

theorem gateEntryEffect_reached {port entry : Nat} {e : Nat × Nat} {m : Mem} {d : Dev}
    (h : ((d.port port).gates.beyond (d.clk.period * 10))[entry]? = some e) :
    gateEntryEffect port entry m d = (d.until (d.clk.tickStart + e.1 * 10)).onPort port fun p => { p with open_ := e.2 } := by
  simp only [gateEntryEffect, h]

theorem gateScheduleChangeEffect_due {port t mask : Nat} {g : Gates} {m : Mem} {d : Dev}
    (h : (d.port port).nextGates = some (t, (0, mask) :: g)) (ht : d.clk.dieTick[port / 2]? = some t) :
    gateScheduleChangeEffect port m d =
      d.onPort port fun p => { p with gates := (0, mask) :: g, nextGates := none, open_ := mask } := by
  have hdue : ¬d.clk.dieTick.getD (port / 2) 0 < t := by simp [List.getD_eq_getElem?_getD, ht]
  simp only [gateScheduleChangeEffect, h, if_neg hdue, List.head?_cons, Option.getD_some]

/-! ### The statement -/

/-- Settles O21: each event by the branch of its effect that the clause's conditions select. -/
theorem dispatchEvents : Obligations.DispatchEvents := by
  unfold Obligations.DispatchEvents
  refine ⟨fun port k s hp hu hl hk => ?_,
    fun port len pcp hdr s hp hu _ => ⟨?_, fun hq hm hroom => ?_, fun w hq hm hr ht => ?_⟩,
    fun port prio quanta s hp hk hu => ?_, fun port prio t s h => ?_, fun port entry e s h => ?_, fun port t mask g s h ht => ?_⟩
  · exact exec_of_effect rfl (frameTransmitEffect_control hp hu hl hk)
  · exact exec_of_effect rfl (ingressFrameEffect_response port len pcp hdr s.mem s.dev)
  · exact exec_of_effect rfl (ingressFrameEffect_unmetered hp hu hq hm hroom)
  · exact exec_of_effect rfl (ingressFrameEffect_dropped hp hu hq hm hr ht)
  · exact exec_of_effect rfl (pauseFrameEffect_counted hp hk hu)
  · exact exec_of_effect rfl (pauseExpiryEffect_paused h)
  · exact exec_of_effect rfl (gateEntryEffect_reached h)
  · exact exec_of_effect rfl (gateScheduleChangeEffect_due h ht)

end Sys2Proof.Machine
end

section
/-! PROOFS. Barrier messages (R387 to R391, R393, R395): what an ARRIVE, a RELEASE and an ABORT make of the job they name. -/

namespace Sys2Proof.Machine

open Sys2Proof

/-! ### A barrier message as a SEND (R387) -/

section Message

variable {d d' : Dev} {qpn : Nat} {c : Conn} {b : Bytes} (hsent : d.sendArrived qpn b = (some c, d'))
include hsent

theorem barrierMessage_unframed (hb : barrierFramed b = false) (kind : Nat) (act : Dev → Dev) :
    d.barrierMessage qpn b kind act = d'.onCtrs (qpnDie qpn) fun k => { k with barrierBadMsg := k.barrierBadMsg + 1 } := by
  simp only [Dev.barrierMessage, hsent, hb, Bool.false_eq_true, false_and, if_false]

theorem barrierMessage_framed {kind : Nat} (hb : barrierFramed b = true) (hk : fld b 6 1 = kind) (act : Dev → Dev) :
    d.barrierMessage qpn b kind act = act d' := by
  simp only [Dev.barrierMessage, hsent, hb, hk, ne_eq, not_true_eq_false, and_false, if_false, if_true]

/-- Whatever its KIND, a message outside the layout is counted. -/
theorem exec_barrier_unframed {s : State} (hs : s.dev = d) (hb : barrierFramed b = false) :
    ∀ e ∈ [Instr.barrierArrive qpn b, .barrierRelease qpn b, .barrierAbort qpn b],
      exec e s = .next (s.put (d'.onCtrs (qpnDie qpn) fun k => { k with barrierBadMsg := k.barrierBadMsg + 1 })) := by
  subst hs
  have hbad := barrierMessage_unframed hsent hb
  simp only [List.forall_mem_cons, List.not_mem_nil, false_implies, implies_true, and_true]
  exact ⟨exec_of_effect rfl (hbad _ _), exec_of_effect rfl (hbad _ _), exec_of_effect rfl (hbad _ _)⟩

end Message

/-! ### ARRIVE (R388, R391, R395) -/

section Arrive

variable {d : Dev} {j : Job} {b : Bytes}

/-- The box has taken this ARRIVE, at the open barrier or the one before, or holds it for a barrier not yet open (R395). -/
def Job.hasSeen (j : Job) (b : Bytes) : Prop :=
  untimed b ∈ j.barrier.accepted ∨ untimed b ∈ j.barrier.before ∨ ∃ x ∈ j.barrier.early, x.body = untimed b

/-- The test of `Dev.arrive` for a duplicate. -/
theorem hasSeen_iff (now : Nat) : j.hasSeen b ↔ j.barrier.accepted.contains (arrivalOf b now).body ∨
    j.barrier.before.contains (arrivalOf b now).body ∨ j.barrier.early.any (fun x => x.body == (arrivalOf b now).body) := by
  simp only [Job.hasSeen, arrivalOf, List.contains_iff_mem, List.any_eq_true, beq_iff_eq]

theorem arrive_seen (h : j.hasSeen b) : d.arrive j b = d.onJobCtrs j.handle fun k => { k with dupBarrier := k.dupBarrier + 1 } :=
  if_pos ((hasSeen_iff d.now).1 h)

section Unseen

variable (h : ¬j.hasSeen b) (hh : j.barrier.held = false) (ha : j.barrier.aborted = false)
include h hh ha

/-- An ARRIVE not seen before, at a barrier that is not ended, waits or enters the box. -/
theorem arrive_unseen : d.arrive j b = if j.barrier.opened = false ∨ fld b 32 4 = j.barrier.number + 1 then
    d.onBarrier j.handle fun x => { x with early := x.early ++ [arrivalOf b d.now] } else d.arriveTaken j.handle (arrivalOf b d.now) := by
  rw [hasSeen_iff d.now] at h
  have hlive : ¬(j.barrier.held = true ∨ j.barrier.aborted = true) := by simp [hh, ha]
  exact (if_neg h).trans (if_neg hlive)

theorem arrive_early (ho : j.barrier.opened = false) :
    d.arrive j b = d.onBarrier j.handle fun x => { x with early := x.early ++ [arrivalOf b d.now] } :=
  (arrive_unseen h hh ha).trans (if_pos (.inl ho))

theorem arrive_open (ho : j.barrier.opened = true) (hn : fld b 32 4 ≠ j.barrier.number + 1) :
    d.arrive j b = d.arriveTaken j.handle (arrivalOf b d.now) :=
  (arrive_unseen h hh ha).trans (if_neg (by simp [ho, hn]))

end Unseen

variable (hj : d.job j.handle = some j)
include hj

theorem barrierFault_of_job (st : Status) (origin : Nat) :
    d.barrierFault j.handle st origin =
      (d.report st { kind := 0x11, die := j.barrier.die } (BitVec.ofNat 64 origin)).abortRise j.handle st origin := by
  simp only [Dev.barrierFault, hj, barrierUnit]

/-- The first comparison of R391 that fails is recorded, and the abort sent on its way. -/
theorem arriveTaken_fault {a : Arrival} {st : Status} (hf : d.arriveFault j a.body = some st) :
    d.arriveTaken j.handle a =
      (d.report st { kind := 0x11, die := j.barrier.die } (BitVec.ofNat 64 a.from_)).abortRise j.handle st a.from_ := by
  simp only [Dev.arriveTaken, hj, hf, barrierFault_of_job hj]

theorem arriveTaken_enters {a : Arrival} (hf : d.arriveFault j a.body = none) (hn : ∀ x ∈ j.barrier.arrivals, x.from_ ≠ a.from_) :
    d.arriveTaken j.handle a = (d.onBarrier j.handle fun x => { x with
      arrivals := x.arrivals ++ [a]
      accepted := x.accepted ++ [a.body] }).boxCheck j.handle := by
  have hfirst : ¬(j.barrier.arrivals.any (fun x => x.from_ == a.from_) = true) := by simpa using hn
  simp only [Dev.arriveTaken, hj, hf, if_neg hfirst]

end Arrive

theorem barrierArriveEffect_of_job {d d' : Dev} {qpn : Nat} {c : Conn} {b : Bytes} {m : Mem} {j : Job}
    (hsent : d.sendArrived qpn b = (some c, d')) (hb : barrierFramed b = true) (hk : fld b 6 1 = 1)
    (hj : d'.jobOfChild qpn b = some j) : barrierArriveEffect qpn b m d = d'.arrive j b := by
  simp only [barrierArriveEffect, barrierMessage_framed hsent hb hk, hj]

/-! ### RELEASE (R389, R390, R393, R395) -/

section Release

variable {d : Dev} {j : Job} {b : Bytes} (ha : untimed b ∉ j.barrier.accepted) (hbe : untimed b ∉ j.barrier.before)
include ha hbe

/-- A RELEASE not taken before is taken only by the box that waits for it. -/
theorem releaseArrives_fresh : d.releaseArrives j b =
    if j.barrier.opened = false ∨ fld b 32 4 ≠ j.barrier.number ∨ j.barrier.release.isSome ∨ j.barrier.sentAt.isNone then d
    else (((d.onBarrier j.handle fun x => { x with accepted := x.accepted ++ [untimed b] }).offsetTaken j
      (releaseOffset b d.now)).releaseDown j.handle (fld b 96 8)).releaseTaken j.handle (fld b 96 8) :=
  if_neg (by simp [ha, hbe])

theorem releaseArrives_other_barrier (hn : fld b 32 4 ≠ j.barrier.number) : d.releaseArrives j b = d :=
  (releaseArrives_fresh ha hbe).trans (if_pos (.inr (.inl hn)))

theorem releaseArrives_awaited (ho : j.barrier.opened = true) (hn : fld b 32 4 = j.barrier.number) (hr : j.barrier.release = none)
    (hs : j.barrier.sentAt.isSome = true) : d.releaseArrives j b =
      (((d.onBarrier j.handle fun x => { x with accepted := x.accepted ++ [untimed b] }).offsetTaken j
        (releaseOffset b d.now)).releaseDown j.handle (fld b 96 8)).releaseTaken j.handle (fld b 96 8) :=
  (releaseArrives_fresh ha hbe).trans (if_neg (by simp [ho, hn, hr, Option.isSome_iff_ne_none.1 hs]))

end Release

theorem barrierReleaseEffect_of_job {d d' : Dev} {qpn : Nat} {c : Conn} {b : Bytes} {m : Mem} {j : Job}
    (hsent : d.sendArrived qpn b = (some c, d')) (hb : barrierFramed b = true) (hk : fld b 6 1 = 2)
    (hj : d'.jobOfParent qpn b = some j) : barrierReleaseEffect qpn b m d = d'.releaseArrives j b := by
  simp only [barrierReleaseEffect, barrierMessage_framed hsent hb hk, hj]

/-! ### ABORT (R391) -/

theorem abortFalls_open {d : Dev} {j : Job} (hh : j.barrier.held = false) (ho : j.barrier.opened = true) (st : Status) (origin : Nat) :
    d.abortFalls j st origin = (d.abortDown j.handle st origin).abortActed j.handle st origin :=
  if_neg (by simp [hh, ho])

theorem barrierAbortEffect_of_parent {d d' : Dev} {qpn : Nat} {c : Conn} {b : Bytes} {m : Mem} {j : Job}
    (hsent : d.sendArrived qpn b = (some c, d')) (hb : barrierFramed b = true) (hk : fld b 6 1 = 3)
    (hj : d'.jobOfParent qpn b = some j) : barrierAbortEffect qpn b m d =
      if fld b 32 4 = j.barrier.number then d'.abortFalls j (BitVec.ofNat 16 (fld b 108 2)) (fld b 112 4) else d' := by
  simp only [barrierAbortEffect, barrierMessage_framed hsent hb hk, hj]

/-! ### The statement -/

/-- Settles O47: the message is taken in as a SEND, and the job it names takes the branch the clause's conditions select. -/
theorem barrierMessages : Obligations.BarrierMessages := by
  unfold Obligations.BarrierMessages
  intro qpn c b s hu hc hs hkind hl d
  have hsent : s.dev.sendArrived qpn b = (some c, d) := sendArrived_taken hu hc hs hkind hl
  refine ⟨exec_barrier_unframed hsent rfl, fun hb hk j hj hown => ⟨fun hseen => ?_, fun hnew hh ha ho => ?_,
    fun hnew hh ha ho hn => ⟨fun st hf => ?_, fun hf hfirst => ?_⟩⟩,
    fun hb hk j hj ha hbe => ⟨fun ho hn hr hs => ?_, fun hn => ?_⟩, fun hb hk j hj => ⟨fun hn => ?_, fun hn hh ho => ?_⟩⟩
  · exact exec_of_effect rfl ((barrierArriveEffect_of_job hsent hb hk hj).trans (arrive_seen hseen))
  · exact exec_of_effect rfl ((barrierArriveEffect_of_job hsent hb hk hj).trans (arrive_early hnew hh ha ho))
  · exact exec_of_effect rfl ((barrierArriveEffect_of_job hsent hb hk hj).trans ((arrive_open hnew hh ha ho hn).trans
      (arriveTaken_fault hown hf)))
  · exact exec_of_effect rfl ((barrierArriveEffect_of_job hsent hb hk hj).trans ((arrive_open hnew hh ha ho hn).trans
      (arriveTaken_enters hown hf hfirst)))
  · exact exec_of_effect rfl ((barrierReleaseEffect_of_job hsent hb hk hj).trans (releaseArrives_awaited ha hbe ho hn hr hs))
  · exact exec_of_effect rfl ((barrierReleaseEffect_of_job hsent hb hk hj).trans (releaseArrives_other_barrier ha hbe hn))
  · exact exec_of_effect rfl ((barrierAbortEffect_of_parent hsent hb hk hj).trans (if_neg hn))
  · exact exec_of_effect rfl ((barrierAbortEffect_of_parent hsent hb hk hj).trans ((if_pos hn).trans (abortFalls_open hh ho _ _)))

end Sys2Proof.Machine
end

section
/-! PROOFS. Barriers (R386, R388, R390, R391, R394): completed at the release's tick, timed out, and the device box looked at. -/

namespace Sys2Proof.Machine

open Sys2Proof

/-! ### BARRIER_COMPLETE (R390) -/

section Complete

variable {d : Dev} {job : Nat} {j : Job} {m : Mem} (hj : d.job job = some j)
include hj

theorem barrierCompleteEffect_unreleased (hr : j.barrier.release = none) : barrierCompleteEffect job m d = d := by
  simp only [barrierCompleteEffect, hj, hr]

theorem barrierCompleteEffect_released {t : Nat} (hr : j.barrier.release = some t) : barrierCompleteEffect job m d =
    if d.clk.tickStart < t then d
    else if j.barrier.number = 0 then d.startComplete j (d.releaseTick t) else d.epochComplete j (d.releaseTick t) := by
  simp only [barrierCompleteEffect, hj, hr]

theorem barrierCompleteEffect_early {t : Nat} (hr : j.barrier.release = some t) (ht : d.clk.tickStart < t) :
    barrierCompleteEffect job m d = d :=
  (barrierCompleteEffect_released hj hr).trans (if_pos ht)

theorem barrierCompleteEffect_start {t : Nat} (hr : j.barrier.release = some t) (ht : t ≤ d.clk.tickStart) (hn : j.barrier.number = 0) :
    barrierCompleteEffect job m d = d.startComplete j (d.releaseTick t) :=
  (barrierCompleteEffect_released hj hr).trans ((if_neg (Nat.not_lt.2 ht)).trans (if_pos hn))

theorem barrierCompleteEffect_epoch {t : Nat} (hr : j.barrier.release = some t) (ht : t ≤ d.clk.tickStart) (hn : j.barrier.number ≠ 0) :
    barrierCompleteEffect job m d = d.epochComplete j (d.releaseTick t) :=
  (barrierCompleteEffect_released hj hr).trans ((if_neg (Nat.not_lt.2 ht)).trans (if_neg hn))

end Complete

/-! ### BARRIER_TIMEOUT (R394) -/

theorem barrierTimeoutEffect_waiting {d : Dev} {job t : Nat} {j : Job} {m : Mem} (hj : d.job job = some j)
    (ho : j.barrier.opened = true) (hr : j.barrier.release = none) (hh : j.barrier.held = false) (ht : j.barrier.timerFrom = some t) :
    let d' := (d.until (t + j.barrierTimeout * 1000000000)).report St.SYN_BARRIER_TIMEOUT (barrierUnit j.barrier.die)
      (BitVec.ofNat 64 j.deviceIndex)
    barrierTimeoutEffect job m d = ((d'.abortUp job St.SYN_BARRIER_TIMEOUT j.deviceIndex).abortDown job St.SYN_BARRIER_TIMEOUT
      j.deviceIndex).abortActed job St.SYN_BARRIER_TIMEOUT j.deviceIndex := by
  have hlive : ¬(j.barrier.opened = false ∨ j.barrier.release.isSome = true ∨ j.barrier.held = true) := by simp [ho, hr, hh]
  simp only [barrierTimeoutEffect, hj, ht, if_neg hlive]

/-! ### The device box (R388, R389) -/

section Box

variable {d : Dev} {job : Nat} {j : Job} (hj : d.job job = some j)
include hj

theorem boxCheck_not_full (hf : j.boxFull = false) : d.boxCheck job = d := by
  simp only [Dev.boxCheck, hj, hf, true_or, if_true]

section Full

variable (hf : j.boxFull = true) (hs : j.barrier.sentAt = none) (ha : j.barrier.aborted = false)
include hf hs ha

/-- A full box acts once: ARRIVE to the parent, at the root a release or the report of a wrong binding. -/
theorem boxCheck_full : d.boxCheck job =
    let d' := d.onBarrier job fun b => { b with sentAt := some d.now }
    if j.deviceIndex ≠ 0 then d'.sendUp job (d'.barrierBytes j
      { kind := 1, barrier := j.barrier.number, from_ := j.deviceIndex, count := j.sums.count, sumR := j.sums.sumR,
        sumR2 := j.sums.sumR2, sealed_ := j.sums.sealed_, recordCrc := if j.barrier.number = 0 then j.barrier.recordCrc else 0 })
    else if sumsMatch j.w j.sums then d'.rootRelease job
    else d'.barrierFault job St.SYN_RANK_BINDING 0 := by
  have hact : ¬(j.boxFull = false ∨ j.barrier.sentAt.isSome = true ∨ j.barrier.aborted = true) := by simp [hf, hs, ha]
  simp only [Dev.boxCheck, hj, if_neg hact]

theorem boxCheck_arrives (hi : j.deviceIndex ≠ 0) :
    d.boxCheck job = (d.onBarrier job fun b => { b with sentAt := some d.now }).sendUp job (d.barrierBytes j
      { kind := 1, barrier := j.barrier.number, from_ := j.deviceIndex, count := j.sums.count, sumR := j.sums.sumR,
        sumR2 := j.sums.sumR2, sealed_ := j.sums.sealed_, recordCrc := if j.barrier.number = 0 then j.barrier.recordCrc else 0 }) :=
  (boxCheck_full hj hf hs ha).trans (if_pos hi)

theorem boxCheck_releases (hi : j.deviceIndex = 0) (hm : sumsMatch j.w j.sums = true) :
    d.boxCheck job = (d.onBarrier job fun b => { b with sentAt := some d.now }).rootRelease job :=
  (boxCheck_full hj hf hs ha).trans ((if_neg (not_not_intro hi)).trans (if_pos hm))

end Full

/-- An abort at an epoch barrier holds the job (R392). -/
theorem abortActed_epoch (hn : j.barrier.number ≠ 0) (st : Status) (origin : Nat) : d.abortActed job st origin =
    (d.onJob job fun j => { j with
      abortStatus := st, abortOrigin := origin, barrier := { j.barrier with aborted := true } }).holdJob job := by
  simp only [Dev.abortActed, hj, if_neg hn]

end Box

/-! ### The statement -/

/-- Settles O48: each event and the box by the branch that the clause's conditions select. -/
theorem barriersEnd : Obligations.BarriersEnd := by
  unfold Obligations.BarriersEnd
  refine ⟨fun job j s hj => ⟨fun hr => ?_, fun t hr => ⟨fun ht => ?_, fun ht => ⟨fun hn => ?_, fun hn => ?_⟩⟩⟩,
    fun job t j s hj ho hr hh ht => ?_,
    fun job j d hj => ⟨boxCheck_not_full hj, boxCheck_arrives hj, boxCheck_releases hj, fun st origin hn => abortActed_epoch hj hn st origin⟩⟩
  · exact exec_of_effect rfl (barrierCompleteEffect_unreleased hj hr)
  · exact exec_of_effect rfl (barrierCompleteEffect_early hj hr ht)
  · exact exec_of_effect rfl (barrierCompleteEffect_start hj hr ht hn)
  · exact exec_of_effect rfl (barrierCompleteEffect_epoch hj hr ht hn)
  · exact exec_of_effect rfl (barrierTimeoutEffect_waiting hj ho hr hh ht)

end Sys2Proof.Machine
end

section
/-! PROOFS. Core scratch (R373, R374, R377, R379, R380): a word read after a write, who a word's new state wakes, and watch slots. -/

namespace Sys2Proof.Machine

open Sys2Proof

/-! ### Words (R373) -/

section Words

variable {w : Word64} {l : List Word64}

theorem mem_insertWord {y : Word64} (h : y ∈ insertWord l w) : y = w ∨ y ∈ l := by
  induction l with
  | nil =>
    simp only [insertWord] at h
    split at h
    · cases h
    · exact .inl (List.mem_singleton.1 h)
  | cons x r ih =>
    simp only [insertWord] at h
    split at h
    · split at h
      · exact .inr h
      · exact List.mem_cons.1 h
    · split at h
      · split at h
        · exact .inr (List.mem_cons_of_mem x h)
        · exact (List.mem_cons.1 h).imp_right (List.mem_cons_of_mem x)
      · rcases List.mem_cons.1 h with rfl | h
        · exact .inr List.mem_cons_self
        · exact (ih h).imp_right (List.mem_cons_of_mem x)

theorem insertWord_sorted (hl : l.Pairwise fun p q => p.addr < q.addr) : (insertWord l w).Pairwise fun p q => p.addr < q.addr := by
  induction l with
  | nil =>
    simp only [insertWord]
    split
    · exact .nil
    · exact List.pairwise_singleton _ _
  | cons x r ih =>
    obtain ⟨hx, hr⟩ := List.pairwise_cons.1 hl
    simp only [insertWord]
    split
    next hlt =>
      split
      · exact hl
      · exact List.pairwise_cons.2 ⟨List.forall_mem_cons.2 ⟨hlt, fun y hy => Nat.lt_trans hlt (hx y hy)⟩, hl⟩
    next hge =>
      split
      next heq =>
        split
        · exact hr
        · exact List.pairwise_cons.2 ⟨fun y hy => heq ▸ hx y hy, hr⟩
      next hne =>
        refine List.pairwise_cons.2 ⟨fun y hy => ?_, ih hr⟩
        rcases mem_insertWord hy with rfl | hy
        · omega
        · exact hx y hy

/-- The word at another address is found as before. -/
theorem find_insertWord_other {b : Nat} (hb : b ≠ w.addr) :
    (insertWord l w).find? (fun y => y.addr == b) = l.find? (fun y => y.addr == b) := by
  have hw : (w.addr == b) = false := beq_false_of_ne hb.symm
  induction l with
  | nil =>
    simp only [insertWord]
    split
    · rfl
    · simp only [List.find?_cons, hw]
  | cons x r ih =>
    simp only [insertWord]
    split
    · split
      · rfl
      · simp only [List.find?_cons, hw]
    · split
      next heq =>
        have hx : (x.addr == b) = false := heq ▸ hw
        split
        · simp only [List.find?_cons, hx]
        · simp only [List.find?_cons, hx, hw]
      · simp only [List.find?_cons, ih]

theorem find_eq_none_of_above {a : Nat} (h : ∀ y ∈ l, a < y.addr) : l.find? (fun y => y.addr == a) = none :=
  List.find?_eq_none.2 fun y hy => by simpa using Nat.ne_of_gt (h y hy)

/-- The word written is found, unless it is an empty 0, which is not listed. -/
theorem find_insertWord_self (hl : l.Pairwise fun p q => p.addr < q.addr) :
    (insertWord l w).find? (fun y => y.addr == w.addr) = if w.value = 0 ∧ w.full = false then none else some w := by
  induction l with
  | nil =>
    simp only [insertWord]
    split
    · rfl
    · rw [List.find?_cons_of_pos (by simp)]
  | cons x r ih =>
    obtain ⟨hx, hr⟩ := List.pairwise_cons.1 hl
    simp only [insertWord]
    split
    next hlt =>
      split
      · exact find_eq_none_of_above (List.forall_mem_cons.2 ⟨hlt, fun y hy => Nat.lt_trans hlt (hx y hy)⟩)
      · rw [List.find?_cons_of_pos (by simp)]
    next hge =>
      split
      next heq =>
        split
        · exact find_eq_none_of_above fun y hy => heq ▸ hx y hy
        · rw [List.find?_cons_of_pos (by simp)]
      next hne => rw [List.find?_cons_of_neg (by simpa using Ne.symm hne), ih hr]

end Words

section SetWord

variable {x : Core} {a : Nat} {v : BitVec 64} {f : Bool}

theorem setWord_word_self (hx : x.scratch.Pairwise fun p q => p.addr < q.addr) :
    (x.setWord a v f).word a = { addr := a, value := v, full := f } := by
  have hfind := find_insertWord_self (w := { addr := a, value := v, full := f }) hx
  dsimp only at hfind
  rw [Core.word, Core.setWord, hfind]
  split
  next h => simp [h]
  · rfl

theorem setWord_word_other {b : Nat} (hb : b ≠ a) : (x.setWord a v f).word b = x.word b :=
  congrArg (fun o => Option.getD o _) (find_insertWord_other (w := { addr := a, value := v, full := f }) hb)

end SetWord

/-! ### Wakes (R380) -/

/-- A watch in a slot that waits for this state of this word. -/
def Watch.waitsFor (a : Nat) (full : Bool) (w : Watch) : Bool := w.addr == a && w.awaitFull == full && !w.woken

theorem Watch.waitsFor_iff {a : Nat} {full : Bool} {w : Watch} :
    w.waitsFor a full = true ↔ w.addr = a ∧ w.awaitFull = full ∧ w.woken = false := by
  simp only [Watch.waitsFor, Bool.and_eq_true, beq_iff_eq, Bool.not_eq_true', and_assoc]

section Wake

variable (x : Core) (a : Nat) (full : Bool)

theorem wake_eq : x.wake a full = { x with
    wakes := x.wakes ++ (x.watches.filter (Watch.waitsFor a full)).map fun w => (w.waiter, w.tag, w.addr)
    watches := (x.watches.filter fun w => !(w.waitsFor a full && w.access == .explicit)).map fun w =>
      if w.waitsFor a full then { w with woken := true } else w } := rfl

/-- What a wake leaves waits for something else, or has been woken. -/
theorem waitsFor_of_mem_wake {w : Watch} (hw : w ∈ (x.wake a full).watches) : w.waitsFor a full = false := by
  rw [wake_eq] at hw
  obtain ⟨u, -, rfl⟩ := List.mem_map.1 hw
  split
  · simp [Watch.waitsFor]
  next h => simpa using h

theorem mem_wake_of_not_waitsFor {w : Watch} (hw : w ∈ x.watches) (h : w.waitsFor a full = false) : w ∈ (x.wake a full).watches := by
  rw [wake_eq]
  exact List.mem_map.2 ⟨w, List.mem_filter.2 ⟨hw, by simp [h]⟩, if_neg (by simp [h])⟩

/-- The slots that stay in use are those of the watches not hit. -/
theorem wake_slotsUsed : (x.wake a full).slotsUsed = (x.watches.filter fun w => !w.waitsFor a full).countP fun w => !w.woken := by
  rw [Core.slotsUsed, wake_eq, List.filter_map, List.length_map, List.filter_filter, List.countP_eq_length_filter, List.filter_filter]
  congr 1
  refine List.filter_congr fun w _ => ?_
  cases h : w.waitsFor a full <;> simp [h]

/-- A wake frees the slots of the watches it hits. -/
theorem wake_slotsUsed_add : (x.wake a full).slotsUsed + (x.watches.filter (Watch.waitsFor a full)).length = x.slotsUsed := by
  have hhit : (x.watches.filter (Watch.waitsFor a full)).countP (fun w => !w.woken) = (x.watches.filter (Watch.waitsFor a full)).length :=
    List.countP_eq_length.2 fun w hw => by simpa using (Watch.waitsFor_iff.1 (List.mem_filter.1 hw).2).2.2
  rw [wake_slotsUsed, ← hhit, Nat.add_comm, Core.slotsUsed, ← List.countP_eq_length_filter]
  exact (List.countP_eq_countP_filter_add x.watches _ (Watch.waitsFor a full)).symm

end Wake

/-! ### Registration (R377, R379) -/

section Register

variable {x : Core} {w : Watch}

theorem Core.register_free (h : x.slotsUsed < 256) : x.register w = { x with watches := x.watches ++ [w] } := if_pos h

theorem Core.register_full (h : ¬x.slotsUsed < 256) : x.register w = { x with slotless := x.slotless ++ [w], slotWaits := x.slotWaits + 1 } :=
  if_neg h

theorem slotsUsed_append (hw : w.woken = false) : ({ x with watches := x.watches ++ [w] } : Core).slotsUsed = x.slotsUsed + 1 := by
  simp [Core.slotsUsed, List.filter_append, hw]

theorem Core.register_slotsUsed_le (hw : w.woken = false) (h : x.slotsUsed ≤ 256) : (x.register w).slotsUsed ≤ 256 := by
  by_cases hfree : x.slotsUsed < 256
  · rw [Core.register_free hfree, slotsUsed_append hw]
    exact hfree
  · rw [Core.register_full hfree]
    exact h

end Register

/-! ### The statement -/

/-- Settles O50: a written word read back in the sorted list, the watches a wake hits counted apart, and the bound of a registration. -/
theorem scratchWordsAndWakes : Obligations.ScratchWordsAndWakes := by
  unfold Obligations.ScratchWordsAndWakes
  refine ⟨fun x a v f hx => ⟨?_, ?_, fun b hb => setWord_word_other hb, insertWord_sorted hx⟩, fun x a full => ?_,
    fun x w hw h => ⟨Core.register_slotsUsed_le hw h, fun hfree => ?_, fun hfull => ?_⟩⟩
  · rw [setWord_word_self hx]
  · rw [setWord_word_self hx]
  · have hhit : (fun w : Watch => decide (w.addr = a ∧ w.awaitFull = full ∧ w.woken = false)) = Watch.waitsFor a full :=
      funext fun w => Bool.eq_iff_iff.2 (by rw [decide_eq_true_iff, Watch.waitsFor_iff])
    have hmiss : ∀ w : Watch, w.waitsFor a full = false ↔ ¬(w.addr = a ∧ w.awaitFull = full ∧ w.woken = false) := fun w => by
      rw [← Watch.waitsFor_iff, Bool.not_eq_true]
    dsimp only
    rw [hhit]
    exact ⟨rfl, fun w hw => (hmiss w).1 (waitsFor_of_mem_wake x a full hw), fun w hw h => mem_wake_of_not_waitsFor x a full hw ((hmiss w).2 h),
      wake_slotsUsed_add x a full, rfl, rfl⟩
  · rw [Core.register_free hfree]
    exact List.mem_append_right _ List.mem_cons_self
  · rw [Core.register_full (Nat.not_lt.2 (Nat.le_of_eq hfull.symm))]
    exact ⟨rfl, rfl⟩

end Sys2Proof.Machine
end

section
/-! PROOFS. Scratch accesses (R374 to R381, R528): dropped, done, or left waiting for a word. -/

namespace Sys2Proof.Machine

open Sys2Proof

/-! ### Whose access is done (R528) -/

section Access

variable {d : Dev} {c : CoreRef} {i : Issuer} (hr : d.coreRuns c = true)
include hr

theorem scratchAccess_fenced (hf : d.isFenced (d.engineUnit c (issuerSlot i)) = true) (act : Dev → Dev) :
    d.scratchAccess c i act = d.fenceDrop c.die := by
  simp only [Dev.scratchAccess, hr, hf, Bool.true_eq_false, if_false, if_true]

theorem scratchAccess_done (hf : d.isFenced (d.engineUnit c (issuerSlot i)) = false) (act : Dev → Dev) :
    d.scratchAccess c i act = act d := by
  simp only [Dev.scratchAccess, hr, hf, Bool.true_eq_false, Bool.false_eq_true, if_false]

end Access

/-- Every access that names its issuer is dropped when that issuer is fenced. -/
theorem exec_access_fenced {c : CoreRef} {i : Issuer} {s : State} (hr : s.dev.coreRuns c = true)
    (hf : s.dev.isFenced (s.dev.engineUnit c (issuerSlot i)) = true) (addr : Nat) (v : BitVec 64) (full : Bool) (tag : BitVec 16) :
    ∀ e ∈ [Instr.load c i addr, .store c i addr v, .loadTake c i addr, .loadPeek c i addr, .storeFill c i addr v,
      .watch c i addr full tag, .watchRetry c i], exec e s = .next (s.put (s.dev.fenceDrop c.die)) := by
  have hdrop := scratchAccess_fenced hr hf
  simp only [List.forall_mem_cons, List.not_mem_nil, false_implies, implies_true, and_true]
  exact ⟨exec_of_effect rfl (hdrop _), exec_of_effect rfl (hdrop _), exec_of_effect rfl (hdrop _), exec_of_effect rfl (hdrop _),
    exec_of_effect rfl (hdrop _), exec_of_effect rfl (hdrop _), exec_of_effect rfl (hdrop _)⟩

/-! ### One core of the device changed -/

/-- Two changes of a list's element that agree on the element it has. -/
theorem modify_congr {α : Type} {l : List α} {n : Nat} {dflt : α} {f g : α → α} (h : f (l.getD n dflt) = g (l.getD n dflt)) :
    l.modify n f = l.modify n g := by
  rw [List.getD_eq_getElem?_getD] at h
  refine List.ext_getElem? fun k => ?_
  simp only [List.getElem?_modify]
  cases hx : l[k]? with
  | none => rfl
  | some x =>
    simp only [Option.map_eq_map, Option.map_some]
    split
    next hk =>
      subst hk
      rw [hx] at h
      exact congrArg some h
    · rfl

theorem onDie_congr {d : Dev} {i : Nat} {f g : Die → Die} (h : f (d.die i) = g (d.die i)) : d.onDie i f = d.onDie i g :=
  congrArg (fun l => { d with dies := l }) (modify_congr h)

theorem onCluster_congr {d : Dev} {i c : Nat} {f g : Cluster → Cluster} (h : f (d.cluster i c) = g (d.cluster i c)) :
    d.onCluster i c f = d.onCluster i c g :=
  onDie_congr (congrArg (fun l => { d.die i with clusters := l }) (modify_congr h))

/-- Two changes of a core that agree on the core it is. -/
theorem onCore_congr {d : Dev} {c : CoreRef} {f g : Core → Core} (h : f (d.core c) = g (d.core c)) : d.onCore c f = d.onCore c g := by
  unfold Dev.core at h
  unfold Dev.onCore
  split
  next pc pk hp =>
    simp only [hp] at h
    exact onCluster_congr (congrArg (fun l => { d.cluster c.die pc with cores := l }) (modify_congr h))
  · rfl

/-! ### Reading a word without planted errors (R502) -/

section Read

variable {d : Dev} {c : CoreRef} {a : Nat}

theorem sramRead_clean {die memory : Nat} (h : ∀ p ∈ (d.die die).scb.planted, p.1 = true ∨ p.2.1 ≠ memory) (off : Nat) (u : UnitRef) :
    d.sramRead die memory off u = (d, true) := by
  have hnone : (d.die die).scb.planted.filter
      (fun p => p.1 == false && p.2.1 == memory && decide (off ≤ p.2.2.1 ∧ p.2.2.1 < off + 8)) = [] := by
    refine List.filter_eq_nil_iff.2 fun p hp => ?_
    rcases h p hp with h1 | h2
    · simp [h1]
    · simp [h2]
  simp only [Dev.sramRead, hnone, List.foldl_nil, List.all_nil]

theorem deliverWord_clean (h : ∀ p ∈ (d.die c.die).scb.planted, p.1 = true ∨ p.2.1 ≠ d.macroOf c a) (i : Issuer) :
    d.deliverWord c i a = d.onCore c fun x => x.gave i (x.word a).value := by
  simp only [Dev.deliverWord, sramRead_clean h, if_true]
  exact onCore_congr rfl

end Read

/-! ### A conditional access (R374, R377, R380) -/

@[simp] theorem Dev.onCore_self (d : Dev) (c : CoreRef) : d.onCore c (fun x => x) = d := by
  have hid : ∀ {α : Type} (l : List α) (n : Nat), l.modify n (fun x => x) = l := fun l n => List.modify_id n l
  unfold Dev.onCore
  split
  · simp only [Dev.onCluster, Dev.onDie, hid]
  · rfl

section Try

variable {d : Dev} {c : CoreRef} {i : Issuer} {a : Nat} {acc : Access} (hw : (d.core c).wokenFor a i acc = none)
include hw

/-- In the required state, with nobody before it, the access takes effect. -/
theorem scratchTry_met (hp : (d.core c).precedent a = none) (hm : ((d.core c).word a).full = needsFull acc) :
    d.scratchTry c i a acc = d.scratchDo c i a acc := by
  simp [Dev.scratchTry, hw, hp, hm]

/-- In the other state the issuer waits, with a tag of its own choice (free in the model). -/
theorem scratchTry_unmet (hm : ((d.core c).word a).full ≠ needsFull acc) : d.scratchTry c i a acc =
    { (d.onCore c fun x => x.register { addr := a, awaitFull := needsFull acc, waiter := i, tag := Config.freeTag d.free, access := acc }) with
      free := d.free + 1 } := by
  simp [Dev.scratchTry, hw, hm]

end Try

/-! ### WATCH_RETRY (R377, R380) -/

section Retry

variable {d : Dev} {c : CoreRef} {i : Issuer} {m : Mem} {w : Watch} (hr : d.coreRuns c = true)
  (hf : d.isFenced (d.engineUnit c (issuerSlot i)) = false) (hw : (d.core c).slotless.find? (fun w => w.waiter == i) = some w)
include hr hf hw

/-- The word is still in the other state, and a slot is free. -/
theorem watchRetryEffect_registers (hm : ((d.core c).word w.addr).full ≠ w.awaitFull) (hs : (d.core c).slotsUsed < 256) :
    watchRetryEffect c i m d = (d.onCore c fun x => { x with slotless := x.slotless.erase w }).onCore c fun x =>
      { x with watches := x.watches ++ [w] } := by
  simp [watchRetryEffect, scratchAccess_done hr hf, hw, hm, hs]

/-- The word is still in the other state, and no slot is free: the wait counts again (the model's choice, log entry 61). -/
theorem watchRetryEffect_counts (hm : ((d.core c).word w.addr).full ≠ w.awaitFull) (hs : 256 ≤ (d.core c).slotsUsed) :
    watchRetryEffect c i m d = d.onCore c fun x => { x with slotWaits := x.slotWaits + 1 } := by
  simp [watchRetryEffect, scratchAccess_done hr hf, hw, hm, Nat.not_lt.2 hs]

theorem watchRetryEffect_wakes (hm : ((d.core c).word w.addr).full = w.awaitFull) (he : w.access = .explicit) :
    watchRetryEffect c i m d = (d.onCore c fun x => { x with slotless := x.slotless.erase w }).onCore c fun x =>
      { x with wakes := x.wakes ++ [(w.waiter, w.tag, w.addr)] } := by
  simp [watchRetryEffect, scratchAccess_done hr hf, hw, hm, he]

theorem watchRetryEffect_does (hm : ((d.core c).word w.addr).full = w.awaitFull) (he : w.access ≠ .explicit)
    (hp : (d.core c).precedent w.addr = none) : watchRetryEffect c i m d =
      (d.onCore c fun x => { x with slotless := x.slotless.erase w }).scratchDo c i w.addr w.access := by
  simp [watchRetryEffect, scratchAccess_done hr hf, hw, hm, he, hp]

end Retry

/-! ### The statement -/

/-- Settles O49: a fenced issuer's access is dropped, and any other takes the branch that its word's state selects. -/
theorem scratchAccesses : Obligations.ScratchAccesses := by
  unfold Obligations.ScratchAccesses
  intro c i addr v full tag s d a x hr
  refine ⟨fun hf => exec_access_fenced hr hf addr v full tag, fun hf hp hpre hwok => ?_, fun hf => ?_, fun hf w hw =>
    ⟨fun hm hs => ?_, fun hm hs => ?_, fun hm he => ?_, fun hm he hpre => ?_⟩⟩
  · have hdo := scratchAccess_done hr hf
    have hload := deliverWord_clean hp i
    refine ⟨?_, ?_, fun hm => ⟨?_, ?_⟩, fun hm => ⟨?_, ?_, ?_⟩, fun hm => ?_, ?_⟩
    · exact exec_of_effect rfl ((hdo _).trans hload)
    · exact exec_of_effect rfl (hdo _)
    · exact exec_of_effect rfl ((hdo _).trans ((scratchTry_met (hwok .take) hpre hm).trans
        (congrArg (fun d : Dev => d.onCore c fun x => (x.setWord a (x.word a).value false).wake a false) hload)))
    · exact exec_of_effect rfl ((hdo _).trans ((scratchTry_met (hwok .peek) hpre hm).trans hload))
    · exact exec_of_effect rfl ((hdo _).trans (scratchTry_met (hwok (.fill v)) hpre hm))
    · exact exec_of_effect rfl ((hdo _).trans (scratchTry_unmet (hwok .take) (hm ▸ Bool.false_ne_true)))
    · exact exec_of_effect rfl ((hdo _).trans (scratchTry_unmet (hwok .peek) (hm ▸ Bool.false_ne_true)))
    · exact exec_of_effect rfl ((hdo _).trans (scratchTry_unmet (hwok (.fill v)) (hm ▸ Ne.symm Bool.false_ne_true)))
    · exact exec_of_effect rfl (hdo _)
  · exact exec_of_effect rfl (scratchAccess_done (i := .seq) hr hf _)
  · exact exec_of_effect rfl (watchRetryEffect_registers hr hf hw hm hs)
  · exact exec_of_effect rfl (watchRetryEffect_counts hr hf hw hm hs)
  · exact exec_of_effect rfl (watchRetryEffect_wakes hr hf hw hm he)
  · exact exec_of_effect rfl (watchRetryEffect_does hr hf hw hm he hpre)

end Sys2Proof.Machine
end

section
/-! PROOFS. The cores of a device (R11, R13) after a change of its dies or of one core, and R376 for every core. -/

namespace Sys2Proof.Machine

open Sys2Proof

/-! ### What of the dies the cores depend on -/

/-- Maps and clusters of the dies. -/
def Dev.coreParts (d : Dev) : List (List Nat × List Cluster) := d.dies.map fun x => (x.map, x.clusters)

section SameParts

variable {d d' : Dev} {c : CoreRef} (h : d'.coreParts = d.coreParts)
include h

theorem length_of_coreParts : d'.dies.length = d.dies.length := by
  simpa only [Dev.coreParts, List.length_map] using congrArg List.length h

theorem die_of_coreParts (i : Nat) : (d'.die i).map = (d.die i).map ∧ (d'.die i).clusters = (d.die i).clusters := by
  have hview (x : Dev) : x.coreParts.getD i (({} : Die).map, ({} : Die).clusters) = ((x.die i).map, (x.die i).clusters) := by
    simp only [Dev.coreParts, Dev.die, List.getD_eq_getElem?_getD, List.getElem?_map]
    cases x.dies[i]? <;> rfl
  have hi := congrArg (fun l => l.getD i (({} : Die).map, ({} : Die).clusters)) h
  exact Prod.mk.inj ((hview d').symm.trans (hi.trans (hview d)))

theorem cluster_of_coreParts (i k : Nat) : d'.cluster i k = d.cluster i k := by
  rw [Dev.cluster, (die_of_coreParts h i).2, Dev.cluster]

theorem physical_of_coreParts : d'.physical c = d.physical c := by
  simp only [Dev.physical, cluster_of_coreParts h, (die_of_coreParts h _).1]

theorem core_of_coreParts : d'.core c = d.core c := by
  simp only [Dev.core, physical_of_coreParts h, cluster_of_coreParts h]

end SameParts

section Parts

variable (d : Dev)

theorem onDie_coreParts (i : Nat) {f : Die → Die} (hf : ∀ x, ((f x).map, (f x).clusters) = (x.map, x.clusters)) :
    (d.onDie i f).coreParts = d.coreParts := by
  refine List.ext_getElem? fun n => ?_
  simp only [Dev.coreParts, Dev.onDie, List.getElem?_map, List.getElem?_modify]
  cases d.dies[n]? with
  | none => rfl
  | some x =>
    simp only [Option.map_eq_map, Option.map_some]
    split
    · rw [hf x]
    · rfl

@[simp] theorem onFc_coreParts (i : Nat) (f : Collector → Collector) : (d.onFc i f).coreParts = d.coreParts :=
  onDie_coreParts d i fun _ => rfl

@[simp] theorem fenceDrop_coreParts (die : Nat) : (d.fenceDrop die).coreParts = d.coreParts := onFc_coreParts d die _

@[simp] theorem onInteg_coreParts (i : Nat) (f : IntCtrs → IntCtrs) : (d.onInteg i f).coreParts = d.coreParts :=
  onDie_coreParts d i fun _ => rfl

@[simp] theorem drivePins_coreParts : d.drivePins.coreParts = d.coreParts := by
  unfold Dev.drivePins
  split <;> rfl

@[simp] theorem dieSafe_coreParts (i : Nat) (noRestart : Bool) : (d.dieSafe i noRestart).coreParts = d.coreParts :=
  (drivePins_coreParts _).trans (onDie_coreParts d i fun _ => rfl)

@[simp] theorem packageSafe_coreParts (st : Status) : (d.packageSafe st).coreParts = d.coreParts :=
  (drivePins_coreParts _).trans (List.map_map ..)

@[simp] theorem reportAt_coreParts (v : Nat) (st : Status) (u : UnitRef) (detail : BitVec 64) (injected : Bool) :
    (d.reportAt v st u detail injected).coreParts = d.coreParts := by
  unfold Dev.reportAt
  split
  · simp
  · dsimp only
    rw [drivePins_coreParts, apply_ite Dev.coreParts, packageSafe_coreParts, ite_self, apply_ite Dev.coreParts, dieSafe_coreParts, ite_self,
      apply_ite Dev.coreParts, onFc_coreParts, ite_self, onFc_coreParts]

@[simp] theorem report_coreParts (st : Status) (u : UnitRef) (detail : BitVec 64) (injected : Bool) :
    (d.report st u detail injected).coreParts = d.coreParts := reportAt_coreParts d _ _ _ _ _

theorem sramWritten_coreParts (die memory off : Nat) : (d.sramWritten die memory off).coreParts = d.coreParts := by
  unfold Dev.sramWritten
  dsimp only
  split
  · exact onDie_coreParts d die fun _ => rfl
  · exact onDie_coreParts d die fun _ => rfl

theorem foldl_coreParts {α : Type} {f : Dev → α → Dev} (hf : ∀ d x, (f d x).coreParts = d.coreParts) (l : List α) :
    (l.foldl f d).coreParts = d.coreParts := by
  induction l generalizing d with
  | nil => rfl
  | cons x xs ih => exact (ih _).trans (hf d x)

theorem sramRead_coreParts (die memory off : Nat) (u : UnitRef) : (d.sramRead die memory off u).1.coreParts = d.coreParts := by
  refine foldl_coreParts d (fun d p => ?_) _
  dsimp only
  split
  · rw [report_coreParts]
    refine (onDie_coreParts _ die fun x => ?_).trans (onInteg_coreParts _ _ _)
    rfl
  · exact (report_coreParts _ _ _ _ _).trans (onInteg_coreParts _ _ _)

end Parts

/-! ### A core read back after its own change -/

/-- A core that is mapped, on a die, a cluster and a place that the device has. -/
structure Dev.HasCore (d : Dev) (c : CoreRef) (pc pk : Nat) : Prop where
  physical : d.physical c = some (pc, pk)
  die : c.die < d.dies.length
  cluster : pc < (d.die c.die).clusters.length
  core : pk < (d.cluster c.die pc).cores.length

theorem physical_eq_some_iff {d : Dev} {c : CoreRef} {pc pk : Nat} : d.physical c = some (pc, pk) ↔
    (pc < 9 ∧ pk < 9) ∧ (d.die c.die).map.getD c.cluster 0xF = pc ∧ (d.cluster c.die pc).map.getD c.core 0xF = pk := by
  simp only [Dev.physical, Option.ite_none_right_eq_some, Option.some.injEq, Prod.mk.injEq]
  constructor
  · rintro ⟨hlt, rfl, rfl⟩
    exact ⟨hlt, rfl, rfl⟩
  · rintro ⟨hlt, rfl, rfl⟩
    exact ⟨hlt, rfl, rfl⟩

theorem getD_modify_self {α : Type} {l : List α} {n : Nat} (h : n < l.length) (f : α → α) (dflt : α) :
    (l.modify n f).getD n dflt = f (l.getD n dflt) := by
  simp [List.getD_eq_getElem?_getD, h]

theorem getD_mem {α : Type} {l : List α} {n : Nat} (h : n < l.length) (dflt : α) : l.getD n dflt ∈ l := by
  rw [List.getD_eq_getElem?_getD, List.getElem?_eq_getElem h]
  exact List.getElem_mem h

theorem onCluster_cluster_self {d : Dev} {i k : Nat} (hi : i < d.dies.length) (hk : k < (d.die i).clusters.length) (f : Cluster → Cluster) :
    (d.onCluster i k f).cluster i k = f (d.cluster i k) := by
  rw [Dev.cluster, Dev.onCluster, Dev.onDie_die_self _ _ _ hi]
  exact getD_modify_self hk f _

namespace Dev.HasCore

variable {d : Dev} {c : CoreRef} {pc pk : Nat}

theorem core_eq (h : d.HasCore c pc pk) : d.core c = (d.cluster c.die pc).cores.getD pk {} := by
  simp only [Dev.core, h.physical]

theorem onCore_core (h : d.HasCore c pc pk) (f : Core → Core) : (d.onCore c f).core c = f (d.core c) := by
  have heq : d.onCore c f = d.onCluster c.die pc fun x => { x with cores := x.cores.modify pk f } := by
    simp only [Dev.onCore, h.physical]
  have hself := onCluster_cluster_self h.die h.cluster fun x => { x with cores := x.cores.modify pk f }
  have hmap : ((d.onCluster c.die pc fun x => { x with cores := x.cores.modify pk f }).die c.die).map = (d.die c.die).map :=
    Dev.onDie_die_view d c.die c.die _ Die.map fun _ => rfl
  obtain ⟨hlt, hpc, hpk⟩ := physical_eq_some_iff.1 h.physical
  have hphys : (d.onCluster c.die pc fun x => { x with cores := x.cores.modify pk f }).physical c = some (pc, pk) :=
    physical_eq_some_iff.2 ⟨hlt, by rw [hmap, hpc], by rw [hself]; exact hpk⟩
  rw [heq, Dev.core, hphys, h.core_eq]
  dsimp only
  rw [hself]
  exact getD_modify_self h.core f _

theorem of_coreParts {d' : Dev} (h : d.HasCore c pc pk) (he : d'.coreParts = d.coreParts) : d'.HasCore c pc pk where
  physical := (physical_of_coreParts he).trans h.physical
  die := (length_of_coreParts he).symm ▸ h.die
  cluster := (die_of_coreParts he _).2.symm ▸ h.cluster
  core := (cluster_of_coreParts he _ _).symm ▸ h.core

end Dev.HasCore

section Shape

variable {d : Dev} {c : CoreRef} (hs : d.Shaped) (hr : d.coreRuns c = true)
include hs hr

/-- A running core of a shaped device is there, and its scratch is sorted. -/
theorem hasCore_of_shaped : ∃ pc pk, d.HasCore c pc pk ∧ (d.core c).scratch.Pairwise fun a b => a.addr < b.addr := by
  obtain ⟨hlen, hdies⟩ := hs
  unfold Dev.coreRuns at hr
  split at hr
  next pc pk hp =>
    obtain ⟨⟨hpc, hpk⟩, -, -⟩ := physical_eq_some_iff.1 hp
    have hdie : c.die < d.dies.length := by
      simp only [Dev.dieUp, Bool.and_eq_true, decide_eq_true_eq] at hr
      omega
    obtain ⟨hclusters, hcores⟩ := hdies _ (getD_mem hdie {})
    have hcluster : pc < (d.die c.die).clusters.length := hclusters.symm ▸ hpc
    obtain ⟨hlength, hsorted⟩ := hcores _ (getD_mem hcluster {})
    have hcore : d.HasCore c pc pk := ⟨hp, hdie, hcluster, hlength.symm ▸ hpk⟩
    exact ⟨pc, pk, hcore, hcore.core_eq.symm ▸ hsorted _ (getD_mem hcore.core {})⟩
  · cases hr

end Shape

/-! ### LOAD and STORE (R376) -/

/-- The second core has the bits of the first, and the same watches, taken and waiting for a slot. -/
def Core.SameState (x y : Core) : Prop := (∀ a, (y.word a).full = (x.word a).full) ∧ y.watches = x.watches ∧ y.slotless = x.slotless

theorem setWord_sameState {x : Core} (hx : x.scratch.Pairwise fun p q => p.addr < q.addr) (a : Nat) (v : BitVec 64) :
    x.SameState (x.setWord a v (x.word a).full) := by
  refine ⟨fun b => ?_, rfl, rfl⟩
  by_cases hb : b = a
  · rw [hb, setWord_word_self hx]
  · rw [setWord_word_other hb]

section Device

variable {d : Dev} {c : CoreRef} {pc pk : Nat} (h : d.HasCore c pc pk) (i : Issuer) (a : Nat)
include h

/-- A read of a word changes no more of its core than what its issuer was given. -/
theorem deliverWord_sameState : (d.core c).SameState ((d.deliverWord c i a).core c) := by
  have hparts := sramRead_coreParts d c.die (d.macroOf c a) (a * 8 % 1048576) (d.scratchUnit c)
  unfold Dev.deliverWord
  dsimp only
  split
  · rw [(h.of_coreParts hparts).onCore_core, core_of_coreParts hparts]
    exact ⟨fun _ => rfl, rfl, rfl⟩
  · rw [(h.of_coreParts hparts).onCore_core, core_of_coreParts hparts]
    exact ⟨fun _ => rfl, rfl, rfl⟩

theorem store_core (v : BitVec 64) :
    ((d.wordWritten c a).onCore c fun x => x.setWord a v (x.word a).full).core c = (d.core c).setWord a v ((d.core c).word a).full := by
  have hparts : (d.wordWritten c a).coreParts = d.coreParts := sramWritten_coreParts d _ _ _
  rw [(h.of_coreParts hparts).onCore_core, core_of_coreParts hparts]

end Device

/-- An access that keeps the state of its core's words keeps it whoever the issuer is. -/
theorem scratchAccess_sameState {d : Dev} {c : CoreRef} {i : Issuer} {act : Dev → Dev}
    (h : d.coreRuns c = true → (d.core c).SameState ((act d).core c)) : (d.core c).SameState ((d.scratchAccess c i act).core c) := by
  unfold Dev.scratchAccess
  split
  · exact ⟨fun _ => rfl, rfl, rfl⟩
  next hr =>
    split
    · rw [core_of_coreParts (fenceDrop_coreParts d c.die)]
      exact ⟨fun _ => rfl, rfl, rfl⟩
    · exact h (by simpa using hr)

section Commands

variable {d : Dev} {c : CoreRef} (hs : d.Shaped) (i : Issuer) (addr : Nat) (m : Mem)
include hs

theorem loadEffect_sameState : (d.core c).SameState ((loadEffect c i addr m d).core c) :=
  scratchAccess_sameState fun hr => by
    obtain ⟨pc, pk, h, -⟩ := hasCore_of_shaped hs hr
    exact deliverWord_sameState h i _

theorem storeEffect_sameState (v : BitVec 64) : (d.core c).SameState ((storeEffect c i addr v m d).core c) :=
  scratchAccess_sameState fun hr => by
    obtain ⟨pc, pk, h, hsorted⟩ := hasCore_of_shaped hs hr
    dsimp only
    rw [store_core h]
    exact setWord_sameState hsorted _ _

/-- A store of an issuer in service writes its word. -/
theorem storeEffect_core (hr : d.coreRuns c = true) (hf : d.isFenced (d.engineUnit c (issuerSlot i)) = false) (v : BitVec 64) :
    (storeEffect c i addr v m d).core c =
      (d.core c).setWord (addr % scratchWords) v ((d.core c).word (addr % scratchWords)).full := by
  obtain ⟨pc, pk, h, -⟩ := hasCore_of_shaped hs hr
  rw [storeEffect, scratchAccess_done hr hf]
  exact store_core h _ v

end Commands

/-! ### The statement -/

/-- Settles O60: a load changes only what its issuer was given, a store only the data of its word in the sorted list. -/
theorem loadAndStoreNeverWait : Obligations.LoadAndStoreNeverWait := by
  unfold Obligations.LoadAndStoreNeverWait
  intro c i addr v s hs
  simp only [List.forall_mem_cons, List.not_mem_nil, false_implies, implies_true, and_true]
  refine ⟨⟨⟨_, rfl, loadEffect_sameState hs i addr s.mem⟩, ⟨_, rfl, storeEffect_sameState hs i addr s.mem v⟩⟩, fun hr hf => ?_⟩
  obtain ⟨_, _, -, hsorted⟩ := hasCore_of_shaped hs hr
  have hcore : (s.put (storeEffect c i addr v s.mem s.dev)).dev.core c =
      (s.dev.core c).setWord (addr % scratchWords) v ((s.dev.core c).word (addr % scratchWords)).full :=
    storeEffect_core hs i addr s.mem hr hf v
  refine ⟨_, rfl, ?_⟩
  rw [hcore, setWord_word_self hsorted]
  exact ⟨rfl, rfl, fun a ha => setWord_word_other ha⟩

end Sys2Proof.Machine
end

section
/-! PROOFS. The state after reset (R373, R545, R552, R553, R600, R602, R610, R612). -/

namespace Sys2Proof.Machine

open Sys2Proof

/-- A list of copies of its own default reads as that everywhere. -/
theorem getD_replicate_self {α : Type} (n i : Nat) (x : α) : (List.replicate n x).getD i x = x := by
  rw [List.getD_eq_getElem?_getD, List.getElem?_replicate]
  split <;> rfl

theorem reset_die (i : Nat) : State.reset.dev.die i = {} :=
  getD_replicate_self 8 i ({} : Die)

theorem reset_cluster (i k : Nat) : State.reset.dev.cluster i k = {} := by
  rw [Dev.cluster, reset_die]
  exact getD_replicate_self 9 k ({} : Cluster)

/-- Every core of the reset device is a reset core, mapped or not. -/
theorem reset_core (c : CoreRef) : State.reset.dev.core c = {} := by
  unfold Dev.core
  split
  · rw [reset_cluster]
    exact getD_replicate_self 9 _ ({} : Core)
  · rfl

theorem reset_sound : Sound State.reset := ⟨rfl, rfl⟩

/-- Settles O57: each value read off the reset state; the dies, clusters, cores and pigeonholes are copies of one. -/
theorem resetState : Obligations.ResetState := by
  unfold Obligations.ResetState
  intro d
  have hcores (c : CoreRef) (a : Nat) : ((d.core c).word a).full = false := by
    rw [reset_core]
    rfl
  have hholes : ∀ h ∈ d.pgh, h.busy = false ∧ h.done = false ∧ h.irqEn = false ∧ h.lastSeq = 0 := fun h hh => by
    rw [List.eq_of_mem_replicate hh]
    exact ⟨rfl, rfl, rfl, rfl⟩
  have hdies : ∀ x ∈ d.dies, x.safe = false ∧ x.fc.seqNext = 1 ∧ x.fc.first = none ∧ x.fc.ring = [] ∧ x.scb.sramEn = true ∧
      x.scb.dramEn = true ∧ x.scb.sramInterval = 256 ∧ x.scb.dramInterval = 8 ∧ x.flip.armed = false := fun x hx => by
    rw [List.eq_of_mem_replicate hx]
    exact ⟨rfl, rfl, rfl, rfl, rfl, rfl, rfl, rfl, rfl⟩
  exact ⟨reset_sound, rfl, rfl, rfl, rfl, rfl, rfl, rfl, rfl, rfl, hholes, rfl, rfl, rfl, rfl, rfl, rfl, rfl, rfl, hdies, rfl, rfl, rfl, rfl,
    rfl, hcores, fun _ => rfl⟩

end Sys2Proof.Machine
end

section
/-! PROOFS. Letterbox reads (R401, R404, R475, R477): GET, STAT and LIST of a fetched command whose partition serves. -/

namespace Sys2Proof.Machine

open Sys2Proof

/-! ### A command of a queue that is served -/

theorem Dev.onCmd_queuePort (d : Dev) (q tag : Nat) (f : Cmd → Cmd) : (d.onCmd q tag f).queuePort q = d.queuePort q := by
  have hfind : (d.onCmd q tag f).queue q =
      (d.queue q).map fun x => { x with cmds := updWhere x.cmds (fun c => c.sub.tag == tag) f } :=
    find_updWhere _ _ _ fun _ hx => hx
  rw [Dev.queuePort, hfind, Option.map_map]
  rfl

theorem gated_serve {d : Dev} {q tag p : Nat} {act : Dev → Dev} (h : d.gate p = .serve) :
    d.gated q tag p act = act (d.onCmd q tag fun c => { c with waitSince := none }) := by
  simp only [Dev.gated, h]

theorem cmdData_written {d : Dev} {q tag addr bufLen result : Nat} {b : Bytes}
    (h : d.hostRefused (d.queuePort q) addr b.length true = none) :
    d.cmdData q tag addr bufLen b result = (d.hostPut (d.queuePort q) addr b).lbxFinish q tag St.SUCCESS result := by
  simp only [Dev.cmdData, Dev.hostWrite, h, if_true]

/-! ### The commands reach their partition -/

section Reach

variable {q tag : Nat} {c : Cmd} {m : Mem} {d : Dev}

theorem getEffect_served (hc : d.fetchedCmd q tag 1 = some c) (hlen : 1 ≤ c.sub.len) (hlen' : c.sub.len ≤ 2 ^ 32)
    (hg : d.gate (partitionOf c.sub.id) = .serve) :
    getEffect q tag m d = Dev.lbxSettle m (Dev.getServe q tag c.sub (d.onCmd q tag fun c => { c with waitSince := none })) := by
  have hrange : ¬(c.sub.len < 1 ∨ 2 ^ 32 < c.sub.len) := by omega
  simp only [getEffect, hc, if_neg hrange, gated_serve hg]

theorem statEffect_served (hc : d.fetchedCmd q tag 5 = some c) (hlen : 64 ≤ c.sub.len)
    (hg : d.gate (partitionOf c.sub.id) = .serve) :
    statEffect q tag m d = Dev.lbxSettle m (Dev.statServe q tag c.sub (d.onCmd q tag fun c => { c with waitSince := none })) := by
  simp only [statEffect, hc, if_neg (Nat.not_lt.2 hlen), gated_serve hg]

theorem listEffect_served (hc : d.fetchedCmd q tag 6 = some c) (hlen : 16 ≤ c.sub.len) (hlen' : c.sub.len ≤ 2 ^ 20)
    (hmod : c.sub.len % 16 = 0) (hg : d.gate c.sub.control = .serve) :
    listEffect q tag m d = Dev.lbxSettle m (Dev.listServe q tag c.sub (d.onCmd q tag fun c => { c with waitSince := none })) := by
  have hrange : ¬(c.sub.len < 16 ∨ 2 ^ 20 < c.sub.len ∨ c.sub.len % 16 ≠ 0) := by omega
  simp only [listEffect, hc, if_neg hrange, gated_serve hg]

end Reach

/-! ### GET and STAT (R404, R475, R477) -/

section Read

variable {q tag : Nat} {s : Sub} {o : Obj} {d : Dev}

theorem readRefusal_held {stat : Bool} (hid : isSystemId s.id = false) (hsec : stat = false → d.store.securing s.id = false)
    (ho : d.object s.id = some o) : d.readRefusal s.id stat = .ok o := by
  have hopen : ¬(stat = false ∧ d.store.securing s.id = true) := fun ⟨hstat, hs⟩ => by simp [hsec hstat] at hs
  simp only [Dev.readRefusal, hid, if_neg hopen, ho, Bool.false_eq_true, false_and, if_false]

theorem getServe_absent (hid : isSystemId s.id = false) (hsec : d.store.securing s.id = false) (ho : d.object s.id = none) :
    Dev.getServe q tag s d = d.lbxFinish q tag St.STO_NO_OBJECT 0 := by
  simp only [Dev.getServe, Dev.readRefusal, hid, hsec, ho, Bool.false_eq_true, false_and, and_false, if_false]

/-- Without DECODE the stored bytes are read, and the pages rebuilt for them are counted. -/
theorem getBytes_stored {n : Nat} (hread : d.store.objReads o = some n) (hflag : bit s.flags 0 = false) :
    d.getBytes s o = (.ok o.stored, d.onCtrs (d.servingDie (partitionOf o.id)) fun k =>
      { k with degradedReads := k.degradedReads + n }) := by
  simp only [Dev.getBytes, Dev.readObj, hread, hflag, if_true]

theorem getServe_stored {n : Nat} (hid : isSystemId s.id = false) (hsec : d.store.securing s.id = false)
    (ho : d.object s.id = some o) (hread : d.store.objReads o = some n) (hflag : bit s.flags 0 = false)
    (hoff : s.offset < o.stored.length)
    (hw : d.hostRefused (d.queuePort q) s.addr (cut o.stored s.offset s.len).length true = none) :
    Dev.getServe q tag s d = ((d.onCtrs (d.servingDie (partitionOf o.id)) fun k =>
      { k with degradedReads := k.degradedReads + n }).hostPut (d.queuePort q) s.addr (cut o.stored s.offset s.len)).lbxFinish q tag
        St.SUCCESS (cut o.stored s.offset s.len).length := by
  simp only [Dev.getServe, readRefusal_held hid (fun _ => hsec) ho, getBytes_stored hread hflag, if_neg (Nat.not_le.2 hoff)]
  exact cmdData_written hw

theorem putAt_length {b x : Bytes} {off : Nat} (h : off + x.length ≤ b.length) : (putAt b off x).length = b.length := by
  simp only [putAt, List.length_append, List.length_take, List.length_drop]
  omega

/-- A structure has its size where every field lies within it. -/
theorem layout_length {size : Nat} {fields : List (Nat × Bytes)} (h : ∀ f ∈ fields, f.1 + f.2.length ≤ size) :
    (layout size fields).length = size :=
  List.foldlRecOn (motive := fun b : Bytes => b.length = size) fields _ (List.length_replicate ..)
    fun _ hb f hf => (putAt_length ((h f hf).trans_eq hb.symm)).trans hb

theorem statRecord_length (st : Store) (o : Obj) : (st.statRecord o).length = 64 :=
  layout_length (by simp)

theorem statServe_held (hid : isSystemId s.id = false) (ho : d.object s.id = some o)
    (hw : d.hostRefused (d.queuePort q) s.addr 64 true = none) :
    Dev.statServe q tag s d = (d.hostPut (d.queuePort q) s.addr (d.store.statRecord o)).lbxFinish q tag St.SUCCESS o.stored.length := by
  simp only [Dev.statServe, readRefusal_held (stat := true) hid (fun h => by cases h) ho]
  exact cmdData_written (by rw [statRecord_length, hw])

end Read

/-! ### LIST (R477) -/

/-- The mark of the last identifiers: the list was not longer than its part that the buffer holds. -/
theorem listed_all_mark (ids : List Nat) (n : Nat) :
    b2n (ids.length == (ids.take n).length) * 2 ^ 47 = if ids.length ≤ n then 2 ^ 47 else 0 := by
  by_cases h : ids.length ≤ n
  · rw [List.take_of_length_le h]
    simp [h, b2n]
  · have hne : ids.length ≠ min n ids.length := by omega
    simp [h, hne, b2n]

theorem listServe_found {q tag : Nat} {s : Sub} {d : Dev} {ids out : List Nat} (hids : d.store.idsFrom s.control s.id = ids)
    (hout : ids.take (s.len / 16) = out) (hne : out ≠ [])
    (hw : d.hostRefused (d.queuePort q) s.addr (16 * out.length) true = none) :
    Dev.listServe q tag s d = (d.hostPut (d.queuePort q) s.addr (out.flatMap (le 16))).lbxFinish q tag St.SUCCESS
      (out.length + if ids.length ≤ s.len / 16 then 2 ^ 47 else 0) := by
  have hbytes : (out.flatMap (le 16)).length = 16 * out.length := by simp [List.length_flatMap, Nat.mul_comm]
  simp only [Dev.listServe, hids, ← listed_all_mark, hout, if_neg hne]
  exact cmdData_written (by rw [hbytes, hw])

/-! ### The statement -/

/-- Settles O36: the partition serves each command, and what is read goes to the host buffer that the port takes. -/
theorem letterboxReads : Obligations.LetterboxReads := by
  unfold Obligations.LetterboxReads
  intro q tag c s e port
  have hport : e.queuePort q = port := s.dev.onCmd_queuePort q tag _
  refine ⟨fun hc hlen hlen' hg hid hsec => ⟨fun ho => ?_, fun o n ho hread hflag hoff hw => ?_⟩,
    fun o hc hlen hg hid ho hw => ?_, fun hc hlen hlen' hmod hg hne hw => ?_⟩
  · exact exec_of_effect rfl (by rw [getEffect_served hc hlen hlen' hg, getServe_absent (d := e) hid hsec ho])
  · exact exec_of_effect rfl (by
      rw [getEffect_served hc hlen hlen' hg, getServe_stored (d := e) hid hsec ho hread hflag hoff (hport.symm ▸ hw), hport])
  · exact exec_of_effect rfl (by
      rw [statEffect_served hc hlen hg, statServe_held (d := e) hid ho (hport.symm ▸ hw), hport]
      rfl)
  · exact exec_of_effect rfl (by
      rw [listEffect_served hc hlen hlen' hmod hg, listServe_found (d := e) rfl rfl hne (hport.symm ▸ hw), hport]
      rfl)

end Sys2Proof.Machine
end

section
/-! PROOFS. The journal and the media's events (R422, R424, R433, R449): journal pages, programs, erases and checkpoints. -/

namespace Sys2Proof.Machine

open Sys2Proof

/-! ### JOURNAL_PAGE_TIMER (R422) -/

theorem programSync_filled {d : Dev} {p : Nat} (h : (d.part p).sync ≠ []) :
    d.programSync p = (d.onStore fun st => { st with
      programs := st.programs ++ [{ number := st.nextOp, work := .journal p (d.part p).sync }]
      nextOp := st.nextOp + 1 }).onPart p fun x => { x with sync := [], syncSince := none } := by
  simp only [Dev.programSync, if_neg h]

theorem journalPageTimerEffect_due {p t : Nat} {m : Mem} {d : Dev} (ht : (d.part p).syncSince = some t)
    (hpower : d.seqs.powerFailAt = none) : journalPageTimerEffect p m d = (d.until (t + 20000)).programSync p := by
  simp only [journalPageTimerEffect, ht, hpower, Option.isSome_none, Bool.false_eq_true, if_false]

/-! ### NAND_PROGRAM_COMPLETE (R422, R449) -/

section Program

variable {n : Nat} {x : Program} {m : Mem} {d : Dev} (hx : d.store.programs.find? (fun x => x.number == n) = some x)

/-- The programs under way with one of them done. -/
def Dev.dropProgram (d : Dev) (n : Nat) : Dev := d.onStore fun st => { st with programs := st.programs.filter fun y => y.number != n }

include hx

theorem nandProgramCompleteEffect_journal {p : Nat} {recs : List JEntry} (hw : x.work = .journal p recs)
    (hb : d.store.journalBehind x = false) :
    nandProgramCompleteEffect n true m d = Dev.lbxSettle m ((d.dropProgram n).journalDone p recs) := by
  simp only [nandProgramCompleteEffect, hx, hb, hw, Bool.false_eq_true, if_false, Dev.dropProgram]

/-- A journal page that failed stays among the programs. -/
theorem nandProgramCompleteEffect_journal_failed {p : Nat} {recs : List JEntry} (hw : x.work = .journal p recs)
    (hb : d.store.journalBehind x = false) : nandProgramCompleteEffect n false m d = Dev.lbxSettle m (d.journalFailed p) := by
  simp only [nandProgramCompleteEffect, hx, hb, hw, Bool.false_eq_true, if_false]

theorem nandProgramCompleteEffect_page {q tag : Nat} (hw : x.work = .page q tag) :
    nandProgramCompleteEffect n true m d = Dev.lbxSettle m ((d.dropProgram n).pageDone q tag) := by
  have hb : d.store.journalBehind x = false := by simp only [Store.journalBehind, hw]
  simp only [nandProgramCompleteEffect, hx, hb, hw, Bool.false_eq_true, if_false, Dev.dropProgram]

end Program

/-! ### NAND_ERASE_COMPLETE (R433, R449) -/

section Erase

variable {block : Nat} {m : Mem} {d : Dev}

theorem nandEraseCompleteEffect_kept (ok : Bool) (h : d.erasable (blockKey block) = false) :
    nandEraseCompleteEffect block ok m d = d :=
  if_pos h

theorem nandEraseCompleteEffect_ended (ok : Bool) (h : d.erasable (blockKey block) = true) :
    nandEraseCompleteEffect block ok m d = Dev.lbxSettle m
      ((if ok then d.eraseBlock (blockKey block) else d.retireBlock (blockKey block)).secureBlock (blockKey block) ok) :=
  if_neg (by simp [h])

end Erase

/-! ### CHECKPOINT (R424) -/

section Checkpoint

variable {p : Nat} {m : Mem} {d : Dev} (hp : p < 8) (hr : (d.part p).ready = true)
include hp hr

/-- With 1 GiB written the record is pushed at once. -/
theorem checkpointEffect_full (hfull : 2 ^ 30 ≤ (d.part p).bytesSince) : checkpointEffect p m d = (d.pushSync p (.checkpoint 0)).2 := by
  have hserves : ¬((d.part p).ready = false ∨ 8 ≤ p) := by simp [hr, hp]
  simp only [checkpointEffect, if_neg hserves, if_pos hfull]

/-- With less, 60 s after the last checkpoint. -/
theorem checkpointEffect_timed (hless : (d.part p).bytesSince < 2 ^ 30) :
    checkpointEffect p m d = ((d.until ((d.part p).checkpointAt + 60 * second)).pushSync p (.checkpoint 0)).2 := by
  have hserves : ¬((d.part p).ready = false ∨ 8 ≤ p) := by simp [hr, hp]
  simp only [checkpointEffect, if_neg hserves, if_neg (Nat.not_le.2 hless)]

end Checkpoint

/-! ### The statement -/

/-- Settles O38: each event by the branch of its effect that the clause's conditions select. -/
theorem journalAndNand : Obligations.JournalAndNand := by
  unfold Obligations.JournalAndNand
  refine ⟨fun p t s _ ht hne hpower => ?_,
    fun n x s hx => ⟨fun p recs hw hb => ⟨?_, ?_⟩, fun q tag hw => ?_⟩,
    fun block s => ⟨fun h => ⟨?_, ?_⟩, fun h ok => ?_⟩,
    fun p s hp hr => ⟨fun hfull => ?_, fun hless => ?_⟩⟩
  · exact exec_of_effect rfl ((journalPageTimerEffect_due ht hpower).trans (programSync_filled (d := s.dev.until (t + 20000)) hne))
  · exact exec_of_effect rfl (nandProgramCompleteEffect_journal hx hw hb)
  · exact exec_of_effect rfl (nandProgramCompleteEffect_journal_failed hx hw hb)
  · exact exec_of_effect rfl (nandProgramCompleteEffect_page hx hw)
  · exact exec_of_effect rfl (nandEraseCompleteEffect_ended true h)
  · exact exec_of_effect rfl (nandEraseCompleteEffect_ended false h)
  · exact exec_of_effect rfl (nandEraseCompleteEffect_kept ok h)
  · exact exec_of_effect rfl (checkpointEffect_full hp hr hfull)
  · exact exec_of_effect rfl (checkpointEffect_timed hp hr hless)

end Sys2Proof.Machine
end

section
/-! PROOFS. The store's pigeonhole commands (R415, R443, R452, R455 to R457, R459, R460): formats, removals, admissions, stand-ins and
ECC strengths. -/

namespace Sys2Proof.Machine

open Sys2Proof

/-! ### STO_FORMAT (R415, R452) -/

theorem Lbx.map_no_queues {x : Lbx} (h : x.queues = []) (f : Queue → Queue) : { x with queues := x.queues.map f } = x := by
  rw [h, List.map_nil, ← h]

section Format

variable {p : Nat} {b : Bytes} {m : Mem} {d : Dev}

/-- The LUNs of the sleds in service that are not retired, sled by sled. -/
def Store.lunsInService (st : Store) : List (Nat × List Nat) :=
  ((List.range 16).filter fun i => (st.sled i).allocates).map fun i => (i, (st.lunsOf i).filter fun l => !st.retiredLuns.contains l)

/-- The groups that a body's K, M and S lay out over the sleds in service. -/
def formatGroups (b : Bytes) (st : Store) : List Group :=
  formGroups (fld b 0 1) (fld b 1 1) (fld b 2 1) ((List.range 16).filter fun i => (st.sled i).allocates)
    (st.lunsInService.map fun x => x.2.length).sum 0 st.lunsInService

variable (hdir : 1 ≤ fld b 4 1) (hdir' : fld b 4 1 ≤ 16)
include hdir hdir'

/-- The size of the directory cache is in range, and is taken as given. -/
theorem dirCache_given : orDefault b 4 1 4 = fld b 4 1 ∧ ¬(fld b 4 1 < 1 ∨ 16 < fld b 4 1) :=
  ⟨orDefault_given (Nat.lt_of_le_of_lt hdir' (by decide)), by omega⟩

theorem stoFormatRun_in_use (hd : d.datasets ≠ []) : stoFormatRun p b m d = d.answer p (fail St.PGH_DATASET_IN_USE) := by
  obtain ⟨hgiven, hrange⟩ := dirCache_given hdir hdir'
  simp only [stoFormatRun, hgiven, if_neg hrange, if_pos hd]

theorem stoFormatRun_bad_shape (hd : d.datasets = []) (hs : stripeShapeOk (fld b 0 1) (fld b 1 1) (fld b 2 1) = false) :
    stoFormatRun p b m d = d.answer p (fail St.MED_GROUP_LAYOUT) := by
  obtain ⟨hgiven, hrange⟩ := dirCache_given hdir hdir'
  simp only [stoFormatRun, hgiven, if_neg hrange, hd, hs, ne_eq, not_true, Bool.false_eq_true, if_false, if_true]

/-- With no command of a queue and no answer waiting, only the store is laid out anew. -/
theorem stoFormatRun_formatted (hd : d.datasets = []) (hs : stripeShapeOk (fld b 0 1) (fld b 1 1) (fld b 2 1) = true)
    (hg : formatGroups b d.store ≠ []) (hq : d.lbx.queues = []) (hw : d.store.waits = []) :
    stoFormatRun p b m d = (d.onStore fun st =>
      { (st.formatted (fld b 0 1) (fld b 1 1) (fld b 2 1) (fld b 4 1) (formatGroups b d.store)) with waits := [] }).answer p
        { body := le 4 (formatGroups b d.store).length } := by
  obtain ⟨hgiven, hrange⟩ := dirCache_given hdir hdir'
  have hnone : ¬d.datasets ≠ [] := not_not.2 hd
  unfold formatGroups Store.lunsInService at hg ⊢
  simp only [stoFormatRun, hgiven, if_neg hrange, if_neg hnone, hs, if_true, if_neg hg, Lbx.map_no_queues hq, hw, List.foldl_nil]

end Format

/-! ### STO_SLED_PREPARE_REMOVE (R459, R460) and STO_SLED_ADMIT (R457) -/

section Sleds

variable {p : Nat} {b : Bytes} {m : Mem} {d : Dev} (hslot : fld b 0 1 ≤ 15)
include hslot

theorem stoSledPrepareRemoveRun_busy (ha : fld b 1 1 < 4) (hb : (d.store.sled (fld b 0 1)).busy = true) :
    stoSledPrepareRemoveRun p b m d = d.answer p (fail St.MED_SLED_BUSY) := by
  have hrange : ¬(15 < fld b 0 1 ∨ 4 < fld b 1 1) := by omega
  simp only [stoSledPrepareRemoveRun, if_neg hrange, if_neg (Nat.ne_of_lt ha), hb, if_true]

theorem stoSledPrepareRemoveRun_locate (hb : (d.store.sled (fld b 0 1)).busy = false) (ha : fld b 1 1 = 2 ∨ fld b 1 1 = 3) :
    stoSledPrepareRemoveRun p b m d =
      (d.onSled (fld b 0 1) fun x => { x with ledLocate := decide (fld b 1 1 = 2) }).answer p {} := by
  rcases ha with ha | ha <;> simp [stoSledPrepareRemoveRun, Nat.not_lt.2 hslot, hb, ha]

theorem stoSledPrepareRemoveRun_park (ha : fld b 1 1 = 0) (hs : (d.store.sled (fld b 0 1)).state = .inService) :
    stoSledPrepareRemoveRun p b m d = d.prepareBegin (fld b 0 1) false (some p) := by
  have hb : (d.store.sled (fld b 0 1)).busy = false := by simp [Sled.busy, hs]
  simp [stoSledPrepareRemoveRun, Nat.not_lt.2 hslot, hb, ha, hs]

theorem stoSledPrepareRemoveRun_cancel {e : Bool} {t w : Nat} (ha : fld b 1 1 = 4)
    (hp : (d.store.sled (fld b 0 1)).prepare = some (e, t, some w)) :
    stoSledPrepareRemoveRun p b m d =
      ((d.onSled (fld b 0 1) fun x => { x with state := .inService, prepare := none, ledPower := 1 }).answer w
        (fail St.MED_SLED_BUSY)).answer p {} := by
  have hrange : ¬(15 < fld b 0 1 ∨ 4 < fld b 1 1) := by omega
  simp only [stoSledPrepareRemoveRun, if_neg hrange, if_pos ha, Dev.prepareCancel, hp, Dev.answerTo]

theorem stoSledAdmitRun_begun (hmode : fld b 1 1 ≤ 2) (hb : (d.store.sled (fld b 0 1)).busy = false) :
    stoSledAdmitRun p b m d = d.admitBegin (fld b 0 1) (fld b 1 1) (bit (fld b 2 1) 0) (some p) := by
  have hrange : ¬(15 < fld b 0 1 ∨ 2 < fld b 1 1) := by omega
  simp only [stoSledAdmitRun, if_neg hrange, hb, Bool.false_eq_true, if_false]

end Sleds

/-! ### STO_STANDIN (R455, R456) -/

section Standin

variable {p : Nat} {b : Bytes} {m : Mem} {d : Dev}

theorem stoStandinRun_timing (hop : fld b 0 1 = 0) (hdelay : fld b 12 4 ≤ 86400) (hshare : 5 ≤ fld b 16 1) (hshare' : fld b 16 1 ≤ 100) :
    stoStandinRun p b m d = (d.onStore fun st =>
      { st with standinDelay := fld b 12 4, rebuildShare := fld b 16 1 }).answer p {} := by
  have hgiven : orDefault b 12 4 600 = fld b 12 4 := orDefault_given (Nat.lt_of_le_of_lt hdelay (by decide))
  have hgiven' : orDefault b 16 1 25 = fld b 16 1 := orDefault_given (Nat.lt_of_le_of_lt hshare' (by decide))
  have hrange : ¬(86400 < fld b 12 4 ∨ fld b 16 1 < 5 ∨ 100 < fld b 16 1) := by omega
  simp only [stoStandinRun, hgiven, hgiven', if_pos hop, if_neg hrange]

/-- A group without a stand-in takes a free LUN whose sled may hold one more of its LUNs. -/
theorem stoStandinRun_named {g : Group} (hop : fld b 0 1 = 2)
    (hg : d.store.groups.find? (fun g => g.number == fld b 4 4) = some g) (hnone : g.standin = none)
    (hfree : fld b 8 4 ∈ d.store.freeLuns) (hm : g.onSled (slotSled (fld b 8 4)) + 1 ≤ d.store.m) :
    stoStandinRun p b m d = ((d.onStore fun st =>
      { st with freeLuns := st.freeLuns.filter (· != fld b 8 4) }).onGroup g.number fun x =>
        { x with standin := some (fld b 8 4) }).answer p {} := by
  simp [stoStandinRun, hop, hg, hnone, hfree, Nat.not_lt.2 hm]

end Standin

/-! ### STO_SET_ECC_STRENGTH (R440, R443) -/

/-- The elements changed at one index are those of the list changed there. -/
theorem zipIdx_map_ite_eq_modify {α : Type} (l : List α) (i : Nat) (f : α → α) :
    (l.zipIdx.map fun x => if x.2 = i then f x.1 else x.1) = l.modify i f := by
  refine List.ext_getElem? fun k => ?_
  simp only [List.getElem?_map, List.getElem?_zipIdx, List.getElem?_modify, Option.map_map, Nat.zero_add, Option.map_eq_map]
  cases l[k]? with
  | none => rfl
  | some x => simp [eq_comm]

theorem onStore_zipIdx_eq_onSled (d : Dev) (i : Nat) (f : Sled → Sled) :
    (d.onStore fun st => { st with sleds := st.sleds.zipIdx.map fun x => if x.2 = i then f x.1 else x.1 }) = d.onSled i f := by
  simp only [Dev.onSled, Store.onSled, zipIdx_map_ite_eq_modify]

theorem stoSetEccStrengthRun_set {p : Nat} {b : Bytes} {m : Mem} {d : Dev} (hsled : fld b 0 1 ≤ 15) (hslc : fld b 1 1 ≤ 8)
    (hnative : fld b 2 1 ≤ 8) (hdepth : 1 ≤ fld b 3 1) (hdepth' : fld b 3 1 ≤ 15)
    (hwords : ∀ x, d.store.sleds[fld b 0 1]? = some x → x.present = true →
      1 ≤ x.codewords (fld b 1 1) ∧ 1 ≤ x.codewords (fld b 2 1)) :
    stoSetEccStrengthRun p b m d = (d.onSled (fld b 0 1) fun x =>
      { x with slcFloor := fld b 1 1, nativeFloor := fld b 2 1, retryDepth := fld b 3 1 }).answer p {} := by
  have hgiven : orDefault b 1 1 0 = fld b 1 1 := orDefault_given (Nat.lt_of_le_of_lt hslc (by decide))
  have hgiven' : orDefault b 2 1 2 = fld b 2 1 := orDefault_given (Nat.lt_of_le_of_lt hnative (by decide))
  have hgiven'' : orDefault b 3 1 8 = fld b 3 1 := orDefault_given (Nat.lt_of_le_of_lt hdepth' (by decide))
  have hrange : ¬(15 < fld b 0 1 ∧ fld b 0 1 ≠ 0xFF ∨ fld b 3 1 < 1 ∨ 15 < fld b 3 1) := by omega
  have hnamed (i : Nat) : (fld b 0 1 == 0xFF || i == fld b 0 1) = decide (i = fld b 0 1) := by
    have hone : fld b 0 1 ≠ 0xFF := by omega
    rw [beq_false_of_ne hone, Bool.false_or, beq_eq_decide]
  have hfits : (d.store.sleds.zipIdx.any fun x => decide (x.2 = fld b 0 1) && x.1.present &&
      (x.1.codewords (fld b 1 1) == 0 || x.1.codewords (fld b 2 1) == 0)) = false := by
    simp only [List.any_eq_false, Bool.and_eq_true, Bool.or_eq_true, decide_eq_true_eq, beq_iff_eq]
    rintro ⟨x, i⟩ hx ⟨⟨rfl, hpresent⟩, hzero⟩
    obtain ⟨hslc', hnative'⟩ := hwords x (List.mem_zipIdx_iff_getElem?.1 hx) hpresent
    exact hzero.elim (Nat.ne_of_gt hslc') (Nat.ne_of_gt hnative')
  have hstrength : ¬(8 < fld b 1 1 ∨ 8 < fld b 2 1) := by omega
  simp only [stoSetEccStrengthRun, hgiven, hgiven', hgiven'', if_neg hrange, hnamed, hfits, Bool.false_eq_true, or_false, if_neg hstrength,
    decide_eq_true_eq, ← onStore_zipIdx_eq_onSled]

/-! ### The statement -/

/-- Settles O33: each command's run by the lemma of the branch the clause's conditions select. -/
theorem storeCommands : Obligations.StoreCommands := by
  unfold Obligations.StoreCommands
  refine ⟨fun p frame s h hdir hdir' => ⟨fun hd => ?_, fun hd hs => ?_, fun hd hs hg hq hw => ?_⟩,
    fun p frame s h hslot => ⟨fun ha hb => ?_, fun hb ha => ?_, fun ha hs => ?_, fun e t w ha hp => ?_⟩,
    fun p frame s h hslot hmode hb => ?_,
    fun p frame s h => ⟨fun hop hdelay hshare hshare' => ?_, fun g hop hg hnone hfree hm => ?_⟩,
    fun p frame s h hsled hslc hnative hdepth hdepth' hwords => ?_⟩
  · exact exec_accepted rfl h (stoFormatRun_in_use (m := s.mem) hdir hdir' hd)
  · exact exec_accepted rfl h (stoFormatRun_bad_shape (m := s.mem) hdir hdir' hd hs)
  · exact exec_accepted rfl h (stoFormatRun_formatted (m := s.mem) hdir hdir' hd hs hg hq hw)
  · exact exec_accepted rfl h (stoSledPrepareRemoveRun_busy (m := s.mem) hslot ha hb)
  · exact exec_accepted rfl h (stoSledPrepareRemoveRun_locate (m := s.mem) hslot hb ha)
  · exact exec_accepted rfl h (stoSledPrepareRemoveRun_park (m := s.mem) hslot ha hs)
  · exact exec_accepted rfl h (stoSledPrepareRemoveRun_cancel (m := s.mem) hslot ha hp)
  · exact exec_accepted rfl h (stoSledAdmitRun_begun (m := s.mem) hslot hmode hb)
  · exact exec_accepted rfl h (stoStandinRun_timing (m := s.mem) hop hdelay hshare hshare')
  · exact exec_accepted rfl h (stoStandinRun_named (m := s.mem) hop hg hnone hfree hm)
  · exact exec_accepted rfl h (stoSetEccStrengthRun_set (m := s.mem) hsled hslc hnative hdepth hdepth' hwords)

end Sys2Proof.Machine
end

section
/-! PROOFS. Care of the media (R410, R412, R420, R445, R446, R448, R450 to R453): reads and their ladder, patrol, refresh, wear levelling,
folds and garbage collection. -/

namespace Sys2Proof.Machine

open Sys2Proof

/-! ### The ladder of a read (R445, Table 15.4) -/

section Ladder

variable {n : Nat} {c : Cell} {r : ReadOutcome} {d : Dev} (hc : d.store.cell n = some c)
include hc

theorem ladder_first (h : r.step ≤ 1) : d.ladder n r = d := by
  simp only [Dev.ladder, hc, if_pos h]

theorem ladder_retry (h : r.step = 2) :
    d.ladder n r = d.onCtrs (slotSled c.slot / 2) fun k => { k with retryReads := k.retryReads + 1 } := by
  simp [Dev.ladder, hc, h]

/-- A read decoded softly: the cell is due for refresh in 60 s, and its block gets more parity at its next erase. -/
theorem ladder_soft (h : r.step = 3) :
    d.ladder n r = ((d.onCtrs (slotSled c.slot / 2) fun k => { k with softReads := k.softReads + 1 }).onStore fun st =>
      st.onCell n fun c => { c with refreshBy := some (d.now + 60 * second) }).onStore fun st =>
        st.onBlock (blockKey c.slot) fun b => { b with raise := true } := by
  simp only [Dev.ladder, hc, h]
  rfl

end Ladder

/-! ### NAND_READ_COMPLETE (R445) and PATROL_READ (R446) -/

/-- The store with a read dropped. -/
def Dev.dropRead (d : Dev) (n : Nat) : Dev := d.onStore fun st => { st with reads := st.reads.filter fun y => y.number != n }

/-- A read for no item has its step of the ladder and nothing else. -/
theorem nandReadCompleteEffect_no_item {n : Nat} {x : NandRead} {o : ReadOutcome} {m : Mem} {d : Dev}
    (hx : d.store.reads.find? (fun x => x.number == n) = some x) (hi : x.item = none) :
    nandReadCompleteEffect n o m d = (d.dropRead n).ladder x.cell o := by
  simp only [nandReadCompleteEffect, hx, hi, Dev.dropRead]

section Patrol

variable {n : Nat} {c : Cell} {o : ReadOutcome} {m : Mem} {d : Dev} (hc : d.store.cell n = some c)
  (hr : d.store.slotReads c.slot = true)
include hc hr

theorem patrolReadEffect_first (h : o.step ≤ 1) :
    patrolReadEffect n o m d = d.onStore fun st => st.onCell n fun c => { c with patrolledAt := d.now } := by
  have hshallow : ¬(o.step = 2 ∧ 4 ≤ o.depth) := by omega
  simp only [patrolReadEffect, hc, hr, Bool.true_eq_false, if_false, ladder_first hc h, if_neg hshallow]

theorem patrolReadEffect_deep (h : o.step = 2) (hdepth : 4 ≤ o.depth) :
    patrolReadEffect n o m d = (((d.onCtrs (slotSled c.slot / 2) fun k => { k with retryReads := k.retryReads + 1 }).onStore fun st =>
      st.onCell n fun c => { c with patrolledAt := d.now }).onStore fun st =>
        st.onCell n fun c => { c with refreshBy := some (c.refreshBy.getD (d.now + 60 * second)) }) := by
  have hdeep : o.step = 2 ∧ 4 ≤ o.depth := ⟨h, hdepth⟩
  simp only [patrolReadEffect, hc, hr, Bool.true_eq_false, if_false, ladder_retry hc h, if_pos hdeep]
  rfl

end Patrol

/-! ### CELL_REFRESH (R410, R445) and WEAR_LEVEL (R448) -/

theorem cellRefreshEffect_due {n t : Nat} {c : Cell} {m : Mem} {d : Dev} (hc : d.store.cell n = some c) (ht : c.refreshBy = some t) :
    cellRefreshEffect n m d = d.relocate n :=
  if_pos (by simp [hc, ht])

theorem cellRefreshEffect_not_due {n : Nat} {c : Cell} {m : Mem} {d : Dev} (hc : d.store.cell n = some c) (ht : c.refreshBy = none) :
    cellRefreshEffect n m d = d :=
  if_neg (by simp [hc, ht])

/-- Highest less lowest erase count of a LUN's blocks. -/
def Store.eraseSpread (st : Store) (lun : Nat) : Nat :=
  let hi := (st.lunErases lun).foldl (fun a e => max a e.2) 0
  hi - (st.lunErases lun).foldl (fun a e => min a e.2) hi

theorem wearLevelEffect_even {lun : Nat} {m : Mem} {d : Dev}
    (h : 20 * d.store.eraseSpread (lunKey lun) ≤ (d.store.sled (slotSled (lunKey lun))).endurance) : wearLevelEffect lun m d = d :=
  if_pos h

/-- With one full block on the LUN, that block's cells move. -/
theorem wearLevelEffect_one_full {lun : Nat} {e : Nat × Nat} {m : Mem} {d : Dev}
    (h : (d.store.sled (slotSled (lunKey lun))).endurance < 20 * d.store.eraseSpread (lunKey lun))
    (he : ((d.store.lunErases (lunKey lun)).filter fun e =>
      decide ((d.store.sled (slotSled (lunKey lun))).cellsPerBlock ≤ (d.store.block e.1).used)) = [e]) :
    wearLevelEffect lun m d =
      (d.store.cells.filter fun c => blockKey c.slot == e.1).foldl (fun d c => d.relocate c.number) d := by
  refine (if_neg (Nat.not_le.2 h)).trans ?_
  simp only [he, List.foldl_cons, List.foldl_nil]

/-! ### Versions in effect while records are pushed -/

theorem object_of_objs {d e : Dev} (h : e.store.objs = d.store.objs) (id : Nat) : e.object id = d.object id := by
  rw [Dev.object, h, Dev.object]

theorem foldl_objs {α : Type} {f : Dev → α → Dev} (hf : ∀ d x, (f d x).store.objs = d.store.objs) (l : List α) (d : Dev) :
    (l.foldl f d).store.objs = d.store.objs :=
  List.foldlRecOn (motive := fun e : Dev => e.store.objs = d.store.objs) l f rfl fun e he x _ => (hf e x).trans he

theorem programLazy_objs (d : Dev) (p : Nat) : (d.programLazy p).store.objs = d.store.objs := by
  unfold Dev.programLazy
  dsimp only
  split <;> rfl

theorem pushLazy_objs (d : Dev) (p : Nat) (r : JRec) : (d.pushLazy p r).store.objs = d.store.objs := by
  unfold Dev.pushLazy
  dsimp only
  split
  · exact programLazy_objs _ p
  · rfl

theorem staleHolds_objs (d : Dev) (id putSeq : Nat) : (d.staleHolds id putSeq).store.objs = d.store.objs :=
  foldl_objs (fun e x => pushLazy_objs e (partitionOf id) (.ledger putSeq x false)) _ _

theorem dirRewrite_objs (d : Dev) (handle o : Nat) : (d.dirRewrite handle o).store.objs = d.store.objs := by
  unfold Dev.dirRewrite
  dsimp only
  split
  · rfl
  · exact pushLazy_objs d _ _

theorem dirTouched_objs (d : Dev) (id : Nat) : (d.dirTouched id).store.objs = d.store.objs :=
  foldl_objs (fun e _ => by
    split
    · exact dirRewrite_objs e _ _
    · rfl) _ _

/-! ### FOLD (R412, R450 to R453) -/

/-- A folded version is in effect at its new place. -/
theorem folded_object {d : Dev} {o : Obj} {cell page : Nat} (ho : d.object o.id = some o) :
    (d.folded o cell page).object o.id = some { o with inSlc := false, firstCell := cell, firstPage := page } := by
  unfold Dev.folded
  rw [object_of_objs ((dirTouched_objs _ _).trans (pushLazy_objs _ _ _))]
  have hfind : (d.onObj o.id fun x => { x with inSlc := false, firstCell := cell, firstPage := page }).object o.id =
      (d.object o.id).map fun x => { x with inSlc := false, firstCell := cell, firstPage := page } :=
    find_updWhere _ _ _ fun _ hx => hx
  rw [hfind, ho]
  rfl

section Fold

/-- Data cells of new stripes, in the order their pages are filled. -/
def Store.dataCells (st : Store) (stripes : List (List Nat)) : List Nat := stripes.flatMap fun x => x.take st.k

theorem stripesWritten_object (d : Dev) (g : Nat) (stripes : List (List Nat)) (plan : List (Nat × Hold)) (id : Nat) :
    ((d.onStore fun s => s.writeStripes g stripes plan).onStore Store.recount).object id = d.object id := rfl

variable {die : Nat} {g : Group} {o : Obj} {stripes : List (List Nat)} {st : Store} {m : Mem} {d : Dev}
  (hg : d.store.foldGroup die = some g)
  (ho : (d.store.objs.filter fun o => o.inSlc && cellDie o.firstCell == die && (d.store.objReads o).isSome) = [o])
  (hk : 1 ≤ d.store.k) (hu : d.dieUp die = true)
  (hn : d.store.newStripes g d.now ((objPages o.stored.length + d.store.k * 256 - 1) / (d.store.k * 256)) = some (stripes, st))
include hg ho hk hu hn

/-- One object folded alone: its former pages stale, its version at the first data cell, the stripes written. -/
theorem foldEffect_one :
    foldEffect die m d = (((((d.onStore fun _ => st).staleHolds o.id o.putSeq).folded o ((st.dataCells stripes).getD 0 0) 0).onStore
      fun s => s.writeStripes g.number stripes (foldPlan (st.dataCells stripes) 0 [o]).1).onStore Store.recount) := by
  have hroom : ¬(d.store.k * 256 = 0 ∨ d.dieUp die = false) := by
    simp only [hu, Bool.true_eq_false, or_false]
    omega
  simp only [foldEffect, hg, ho, if_neg hroom, takeFitting, hn, foldPlan, List.foldl_cons, List.foldl_nil, Nat.zero_div, Nat.zero_mod]
  rfl

/-- The version folded alone is in effect, its bytes unchanged, at the first data cell. -/
theorem foldEffect_one_object (hobj : d.object o.id = some o) (hst : st.objs = d.store.objs) :
    (foldEffect die m d).object o.id =
      some { o with inSlc := false, firstCell := (st.dataCells stripes).getD 0 0, firstPage := 0 } := by
  have hkept : ((d.onStore fun _ => st).staleHolds o.id o.putSeq).object o.id = some o :=
    (object_of_objs ((staleHolds_objs _ _ _).trans hst) _).trans hobj
  rw [foldEffect_one hg ho hk hu hn, stripesWritten_object]
  exact folded_object hkept

end Fold

/-! ### GARBAGE_COLLECTION (R420, R432) -/

section Garbage

variable {die : Nat} {m : Mem} {d : Dev} (hu : d.dieUp die = true)
include hu

theorem garbageCollectionEffect_nothing (hg : d.garbageCells die = []) (hc : d.compactCell die = none) :
    garbageCollectionEffect die m d = d := by
  simp only [garbageCollectionEffect, hu, hg, hc, Bool.true_eq_false, if_false]

theorem garbageCollectionEffect_freed (hg : d.garbageCells die ≠ []) :
    garbageCollectionEffect die m d = (d.garbageCells die).foldl (fun d n => d.freeCell n) (d.onStore fun st => { st with
      stripes := st.stripes.filter fun x => !(x.cells.all fun n => (d.garbageCells die).contains n) }) := by
  obtain ⟨n, ns, hns⟩ := List.exists_cons_of_ne_nil hg
  simp only [garbageCollectionEffect, hu, hns, Bool.true_eq_false, if_false]

end Garbage

/-! ### The statement -/

/-- Settles O39: each event by the branch of its effect that the clause's conditions select; a fold keeps the versions in effect but for the
place of the one it moves. -/
theorem mediaCare : Obligations.MediaCare := by
  unfold Obligations.MediaCare
  refine ⟨fun n x c o s hx hi hc => ⟨fun h => ?_, fun h => ?_, fun h => ?_⟩,
    fun n c o s hc hr => ⟨fun h => ?_, fun h hdepth => ?_⟩,
    fun n t c s hc => ⟨fun ht => ?_, fun ht => ?_⟩,
    fun lun e s => ⟨fun h => ?_, fun h he => ?_⟩,
    fun die g o stripes st s hg ho hobj hk hu hn hst => ?_,
    fun die s hu => ⟨fun hg hc => ?_, fun hg => ?_⟩⟩
  · exact exec_of_effect rfl ((nandReadCompleteEffect_no_item hx hi).trans (ladder_first hc h))
  · exact exec_of_effect rfl ((nandReadCompleteEffect_no_item hx hi).trans (ladder_retry hc h))
  · exact exec_of_effect rfl ((nandReadCompleteEffect_no_item hx hi).trans (ladder_soft hc h))
  · exact exec_of_effect rfl (patrolReadEffect_first hc hr h)
  · exact exec_of_effect rfl (patrolReadEffect_deep hc hr h hdepth)
  · exact exec_of_effect rfl (cellRefreshEffect_due hc ht)
  · exact exec_of_effect rfl (cellRefreshEffect_not_due hc ht)
  · exact exec_of_effect rfl (wearLevelEffect_even h)
  · exact exec_of_effect rfl (wearLevelEffect_one_full h he)
  · exact ⟨_, _, rfl, foldEffect_one_object (m := s.mem) hg ho hk hu hn hobj hst, rfl, rfl, rfl, rfl, rfl, rfl⟩
  · exact exec_of_effect rfl (garbageCollectionEffect_nothing hu hg hc)
  · exact exec_of_effect rfl (garbageCollectionEffect_freed hu hg)

end Sys2Proof.Machine
end

section
/-! PROOFS. Losses of the store (R407, R408, R454 to R456): stand-ins, rebuilding, and partitions whose die does not run. -/

namespace Sys2Proof.Machine

open Sys2Proof

/-! ### STANDIN_TAKEOVER (R455, R456) -/

section StandinTakeover

variable {n place t : Nat} {g : Group} {x : Member} {m : Mem} {d : Dev} (hg : d.store.groups.find? (fun g => g.number == n) = some g)
  (hx : g.members[place]? = some x) (ht : d.memberLostAt x = some t)
include hg hx ht

theorem standinTakeoverEffect_standin {l : Nat} (hl : g.standin = some l) :
    standinTakeoverEffect n place m d = (d.until t).takePlace g place l := by
  simp only [standinTakeoverEffect, hg, hx, ht, hl]

/-- A member already declared lost stays as it is; only the time of its loss has come. -/
theorem standinTakeoverEffect_already_lost (hnone : g.standin = none) (hlost : x.lost = true) :
    standinTakeoverEffect n place m d = d.until t := by
  simp only [standinTakeoverEffect, hg, hx, ht, hnone, if_pos hlost]

theorem standinTakeoverEffect_declared_lost (hnone : g.standin = none) (hlost : x.lost = false) :
    standinTakeoverEffect n place m d =
      ((((d.until t).onGroup n fun y => { y with members := y.members.set place { x with lost := true } }).report
        St.MED_NO_STANDIN { kind := 0x08, die := n % 8 } (BitVec.ofNat 64 n)).reportGroups d.store.groups d.store) := by
  have hkept : ¬x.lost = true := Bool.eq_false_iff.1 hlost
  simp only [standinTakeoverEffect, hg, hx, ht, hnone, if_neg hkept, Dev.until_store]

end StandinTakeover

/-! ### REBUILD (R454, R455) -/

/-- A cell whose stripe reads, with a slot free on its member's LUN, moves there and leaves the list. -/
theorem rebuildEffect_moved {n place c f : Nat} {rest : List (Nat × Nat)} {g : Group} {x : Member} {cell : Cell} {str : Stripe}
    {st : Store} {m : Mem} {d : Dev} (hg : d.store.groups.find? (fun g => g.number == n) = some g)
    (hlist : g.toRebuild = (place, c) :: rest) (hc : d.store.cell c = some cell) (hx : g.members[place]? = some x)
    (hstr : d.store.stripeOf c = some str) (hreads : d.store.stripeReads str = true)
    (halloc : d.store.allocOn x.lun true d.now = some (f, st)) :
    let e := (d.onStore fun _ => st.takeSlot f c d.now).onGroup n fun y => { y with toRebuild := rest }
    rebuildEffect n m d = e.pushLazy (cellDie c) (.cellMove c (((e.store.cell c).map (·.slot)).getD 0)) := by
  simp only [rebuildEffect, hg, hlist, hc, hx, hstr, hreads, halloc, Bool.true_eq_false, if_false]

/-! ### PARTITION_TAKEOVER (R407, R408) -/

section PartitionTakeover

variable {p : Nat} {m : Mem} {d : Dev}

theorem partitionTakeoverEffect_served (hserved : (d.part p).unserved = false) (hu : d.dieUp (d.part p).die = true) :
    partitionTakeoverEffect p m d = d :=
  if_pos (.inr (.inr ⟨hserved, hu⟩))

section Unserved

variable (hp : p < 8) (hs : d.store.started = true) (hlost : (d.part p).unserved = true ∨ d.dieUp (d.part p).die = false)
include hp hs hlost

/-- A partition that no running die serves is looked after. -/
theorem partition_not_left : ¬(8 ≤ p ∨ d.store.started = false ∨ (d.part p).unserved = false ∧ d.dieUp (d.part p).die = true) := by
  rintro (h | h | ⟨hserved, hu⟩)
  · exact Nat.not_le.2 hp h
  · simp [hs] at h
  · simp [hserved, hu] at hlost

theorem partitionTakeoverEffect_home (hhome : d.dieUp p = true) :
    partitionTakeoverEffect p m d = d.onPart p fun x => { x with die := p, unserved := false } := by
  simp only [partitionTakeoverEffect, if_neg (partition_not_left hp hs hlost), if_pos hhome]

theorem partitionTakeoverEffect_chord (hhome : d.dieUp p = false) (hchord : d.dieUp ((p + 4) % 8) = true) :
    partitionTakeoverEffect p m d = d.onPart p fun x => { x with die := (p + 4) % 8, unserved := false } := by
  simp only [partitionTakeoverEffect, if_neg (partition_not_left hp hs hlost), if_neg (Bool.eq_false_iff.1 hhome), if_pos hchord]

theorem partitionTakeoverEffect_unserved (hhome : d.dieUp p = false) (hchord : d.dieUp ((p + 4) % 8) = false)
    (hserved : (d.part p).unserved = false) :
    partitionTakeoverEffect p m d =
      (d.onPart p fun x => { x with unserved := true }).report St.STO_PARTITION_UNSERVED (storeUnit 0) (BitVec.ofNat 64 p) := by
  simp only [partitionTakeoverEffect, if_neg (partition_not_left hp hs hlost), if_neg (Bool.eq_false_iff.1 hhome),
    if_neg (Bool.eq_false_iff.1 hchord), if_neg (Bool.eq_false_iff.1 hserved)]

end Unserved

end PartitionTakeover

/-! ### The statement -/

/-- Settles O40: each event by the branch of its effect that the clause's conditions select. -/
theorem standinsRebuildPartitions : Obligations.StandinsRebuildPartitions := by
  unfold Obligations.StandinsRebuildPartitions
  refine ⟨fun n place t g x s hg hx ht => ⟨fun l hl => ?_, fun hnone hlost => ?_, fun hnone hlost => ?_⟩,
    fun n place c f rest g x cell str st s hg hlist hc hx hstr hreads halloc => ?_,
    fun p s hp hs => ⟨fun hserved hu => ?_, fun hlost => ⟨fun hhome => ?_, fun hhome hchord => ?_, fun hhome hchord hserved => ?_⟩⟩⟩
  · exact exec_of_effect rfl (standinTakeoverEffect_standin hg hx ht hl)
  · exact exec_of_effect rfl (standinTakeoverEffect_already_lost hg hx ht hnone hlost)
  · exact exec_of_effect rfl (standinTakeoverEffect_declared_lost hg hx ht hnone hlost)
  · exact exec_of_effect rfl (rebuildEffect_moved hg hlist hc hx hstr hreads halloc)
  · exact exec_of_effect rfl (partitionTakeoverEffect_served hserved hu)
  · exact exec_of_effect rfl (partitionTakeoverEffect_home hp hs hlost hhome)
  · exact exec_of_effect rfl (partitionTakeoverEffect_chord hp hs hlost hhome hchord)
  · exact exec_of_effect rfl (partitionTakeoverEffect_unserved hp hs hlost hhome hchord hserved)

end Sys2Proof.Machine
end

section
/-! PROOFS. The checks of a pigeonhole request (R576, R578, R580, R581, R586), for every command of Tables 20.4 to 20.7. -/

namespace Sys2Proof.Machine

open Sys2Proof

/-! ### The doorbell (R576) -/

/-- A frame of the command's opcode in a free pigeonhole is taken and served. -/
theorem ring_free {op : PghOp} {p : Nat} {frame : Bytes} {m : Mem} {d : Dev} (hr : d.holeReachable p = true)
    (ho : fld frame 6 2 = op.opcode) (hb : (d.hole p).busy = false) : op.ring p frame m d = op.serve p m (d.rung p frame) := by
  have hgo : ¬(d.holeReachable p = false ∨ fld frame 6 2 ≠ op.opcode) := by simp [hr, ho]
  rw [PghOp.ring, if_neg hgo, if_neg (by rw [hb]; exact nofun)]
  rfl

/-- Every pigeonhole command rings its row's operation. -/
theorem exec_pghRow (p : Nat) (frame : Bytes) (s : State) :
    ∀ r ∈ pghRows p frame, exec r.1 s = .next (s.put (r.2.ring p frame s.mem s.dev)) := by
  rw [pghRows, List.forall_mem_append]
  constructor
  · simp only [List.forall_mem_cons]
    repeat refine ⟨rfl, ?_⟩
    exact nofun
  · split
    next hk => exact List.forall_mem_singleton.2 (exec_grammarUnload hk)
    next hk => exact List.forall_mem_singleton.2 (exec_vocabUnload hk)

/-! ### Framing and the sequence rule (R580 checks 1 and 2, R581) -/

theorem framed_iff (op : PghOp) (req : Bytes) : op.framed req = true ↔
    cut req 0 4 = ascii "PGRQ" ∧ fld req 4 2 = 1 ∧
      (32 + fld req 12 4 ≤ 4096 ∧ fld req 16 4 = crc32c (putAt (fit (32 + fld req 12 4) req) 16 (zeros 4))) ∧ fld req 12 4 = op.size := by
  simp only [PghOp.framed, requestFramed, requestCrcOk, Bool.and_eq_true, beq_iff_eq, decide_eq_true_eq, and_assoc]

theorem nextSeq_ne_self (n : Nat) : nextSeq n ≠ n := by
  unfold nextSeq
  split <;> omega

section Verdict

variable {h : Pgh} {seq crc : Nat}

theorem verdict_zero (hz : seq = 0) : h.verdict seq crc = .wrong := if_pos hz

variable (hz : seq ≠ 0)
include hz

theorem verdict_new (hn : seq = nextSeq h.lastSeq) : h.verdict seq crc = .new := by
  rw [Pgh.verdict, if_neg hz, if_pos hn]

theorem verdict_wrong (hn : seq ≠ nextSeq h.lastSeq) (hl : seq ≠ h.lastSeq) : h.verdict seq crc = .wrong := by
  rw [Pgh.verdict, if_neg hz, if_neg hn, if_neg hl]

theorem verdict_last (hl : seq = h.lastSeq) : h.verdict seq crc = if crc = h.crc then .duplicate else .mismatch := by
  rw [Pgh.verdict, if_neg hz, if_neg (hl ▸ (nextSeq_ne_self _).symm), if_pos hl]

end Verdict

/-! ### A request served (R580, R581) -/

section Serve

variable {op : PghOp} {p : Nat} {m : Mem} {d : Dev}

theorem serve_unframed (hf : ¬op.framed (d.hole p).request = true) : op.serve p m d = d.rejectFrame p St.PGH_FRAME := by
  rw [PghOp.serve, if_pos (Bool.eq_false_iff.2 hf)]

/-- The verdict of the sequence rule on the request. -/
def Dev.seqVerdict (d : Dev) (p : Nat) : SeqVerdict := (d.hole p).verdict (fld (d.hole p).request 8 4) (fld (d.hole p).request 16 4)

variable (hf : op.framed (d.hole p).request = true)
include hf

theorem serve_wrong (hv : d.seqVerdict p = .wrong) : op.serve p m d = d.rejectFrame p St.PGH_SEQ := by
  unfold Dev.seqVerdict at hv
  simp only [PghOp.serve, hf, hv, Bool.true_eq_false, if_false]

theorem serve_mismatch (hv : d.seqVerdict p = .mismatch) : op.serve p m d = d.rejectFrame p St.PGH_SEQ_MISMATCH := by
  unfold Dev.seqVerdict at hv
  simp only [PghOp.serve, hf, hv, Bool.true_eq_false, if_false]

theorem serve_duplicate (hv : d.seqVerdict p = .duplicate) : op.serve p m d = d.respond p (replayOf (d.hole p).stored) := by
  unfold Dev.seqVerdict at hv
  simp only [PghOp.serve, hf, hv, Bool.true_eq_false, if_false]

section New

variable (hv : d.seqVerdict p = .new)
include hv

theorem serve_refused {st : Status} (hr : op.refusal (d.hole p).request d = some st) : op.serve p m d = d.answer p (fail st) := by
  unfold Dev.seqVerdict at hv
  simp only [PghOp.serve, hf, hv, hr, Bool.true_eq_false, if_false]

theorem serve_run (hr : op.refusal (d.hole p).request d = none) :
    op.serve p m d = op.run p (cut (d.hole p).request 32 op.size) m d := by
  unfold Dev.seqVerdict at hv
  simp only [PghOp.serve, hf, hv, hr, Bool.true_eq_false, if_false]

end New

end Serve

/-! ### The statement -/

/-- Settles O58: the doorbell's three cases, then the checks in their order. -/
theorem pigeonholeRequests : Obligations.PigeonholeRequests := by
  unfold Obligations.PigeonholeRequests
  intro p frame s r hr ho
  have hexec := exec_pghRow p frame s r hr
  refine ⟨fun hn => exec_of_effect hexec (ring_unreachable hn), fun hreach hb => exec_of_effect hexec (ring_busy hreach ho hb),
    fun hreach hb => ?_⟩
  intro d h req crcOk framed next reject
  have hrung := ring_free (m := s.mem) hreach ho hb
  have hframed : r.2.framed req = true ↔ framed := framed_iff r.2 req
  refine ⟨fun hf => ?_, fun hf hz => ?_, fun hf hz => ⟨fun hnext hlast => ?_, fun hlast hcrc => ?_, fun hlast hcrc => ?_,
    fun hnext => ⟨fun st href => ?_, fun href => ?_⟩⟩⟩
  · exact exec_of_effect hexec (hrung.trans (serve_unframed (mt hframed.1 hf)))
  · exact exec_of_effect hexec (hrung.trans (serve_wrong (hframed.2 hf) (verdict_zero hz)))
  · exact exec_of_effect hexec (hrung.trans (serve_wrong (hframed.2 hf) (verdict_wrong hz hnext hlast)))
  · exact exec_of_effect hexec (hrung.trans (serve_mismatch (hframed.2 hf) ((verdict_last hz hlast).trans (if_neg hcrc))))
  · exact exec_of_effect hexec (hrung.trans (serve_duplicate (hframed.2 hf) ((verdict_last hz hlast).trans (if_pos hcrc))))
  · exact exec_of_effect hexec (hrung.trans (serve_refused (hframed.2 hf) (verdict_new hz hnext) href))
  · exact exec_of_effect hexec (hrung.trans (serve_run (hframed.2 hf) (verdict_new hz hnext) href))

end Sys2Proof.Machine
end

section
/-! PROOFS. Pigeonhole commands of the device, fault, power and firmware groups (R24, R29, R522, R527, R542, R551, R562, R563, R588, R591,
R592), each past its checks. -/

namespace Sys2Proof.Machine

open Sys2Proof

/-! ### The device group (R24, R29, R551, R588) -/

section Device

variable {p : Nat} {b : Bytes} {m : Mem} {d : Dev}

/-- The dies that a DIE field names: one, or with 0xFF all. -/
def namedDies (die : Nat) : List Nat := if die = 0xFF then List.range 8 else [die]

theorem devGetFiguresRun_written (hdie : fld b 0 1 < 8 ∨ fld b 0 1 = 0xFF)
    (hlen : (d.counterBlock (namedDies (fld b 0 1))).length ≤ fld b 16 8)
    (hw : d.hostRefused (p / 32) (fld b 8 8) (d.counterBlock (namedDies (fld b 0 1))).length true = none) :
    devGetFiguresRun p b m d = (d.hostPut (p / 32) (fld b 8 8) (d.counterBlock (namedDies (fld b 0 1)))).answer p
      { body := d.figures (namedDies (fld b 0 1)) (d.counterBlock (namedDies (fld b 0 1))).length } := by
  have hrange : ¬(7 < fld b 0 1 ∧ fld b 0 1 ≠ 0xFF) := by omega
  exact (if_neg hrange).trans (answerBuf_written (buf := hostBuf b 8) hlen hw)

theorem devSetTickRun_set (hperiod : 2000 ≤ fld b 0 4) (hperiod' : fld b 0 4 ≤ 100000000) (heff : d.clk.tick + 2 ≤ fld b 16 8)
    (hp1 : fld b 24 1 ≤ 15) (hp2 : fld b 25 1 ≤ 15 ∨ fld b 25 1 = 0xFF) (hne : fld b 24 1 ≠ fld b 25 1) :
    devSetTickRun p b m d = ({ d with
      clk := { d.clk with pending := some (fld b 16 8, fld b 0 4, fld b 8 8, fld b 24 1, fld b 25 1) }
      pins := { d.pins with tickOutLive := true } } : Dev).answer p { body := le 8 d.clk.tick } := by
  have hrange : ¬(fld b 0 4 < 2000 ∨ 100000000 < fld b 0 4 ∨ fld b 16 8 < d.clk.tick + 2 ∨ 15 < fld b 24 1 ∨
      (15 < fld b 25 1 ∧ fld b 25 1 ≠ 0xFF) ∨ fld b 24 1 = fld b 25 1) := by omega
  exact if_neg hrange

theorem devSetModeRun_set (hmhz : 800 ≤ fld b 0 2) (hmhz' : fld b 0 2 ≤ 1800) (hstep : fld b 0 2 % 25 = 0) (hfill : 128 ≤ fld b 2 2)
    (hfill' : fld b 2 2 ≤ 256) :
    devSetModeRun p b m d = ({ d with pwr := { d.pwr with
      profileMhz := fld b 0 2
      nextMhz := some (if d.sortNext < d.pwr.profileMhz then min d.sortNext (fld b 0 2) else fld b 0 2)
      admitFill := fld b 2 2 } } : Dev).answer p {} := by
  have hrange : ¬(fld b 0 2 < 800 ∨ 1800 < fld b 0 2 ∨ fld b 0 2 % 25 ≠ 0 ∨ fld b 2 2 < 128 ∨ 256 < fld b 2 2) := by omega
  exact if_neg hrange

theorem devStartCompleteRun_ready (hs : d.start = .ready) : devStartCompleteRun p b m d = d.beginService.answer p {} := by
  simp only [devStartCompleteRun, hs]

end Device

/-! ### The fault group (R522, R527, R542) -/

section Faults

variable {p : Nat} {b : Bytes} {m : Mem} {d : Dev}

/-- A log read as pairs of SEQ and bytes answers its records from a SEQ on. -/
theorem logAnswer_records (log : List FaultRec) (next from_ most : Nat) :
    logAnswer (log.map fun r => (r.seq, r.bytes)) next from_ most =
      { more := decide (most < (log.filter fun r => decide (from_ ≤ r.seq)).length)
        body := le 8 ((log.head?.map (·.seq)).getD next) ++ le 4 (min most (log.filter fun r => decide (from_ ≤ r.seq)).length) ++ zeros 4 ++
          ((log.filter fun r => decide (from_ ≤ r.seq)).take most).flatMap FaultRec.bytes } := by
  have hfilter : ((log.map fun r => (r.seq, r.bytes)).filter fun x => decide (from_ ≤ x.1)) =
      (log.filter fun r => decide (from_ ≤ r.seq)).map fun r => (r.seq, r.bytes) := List.filter_map
  simp only [logAnswer, hfilter, List.length_map, ← List.map_take, List.flatMap_map, List.length_take, List.head?_map, Option.map_map]
  rfl

theorem fltReadLogRun_ring (hdie : fld b 0 1 < 8) (hsource : fld b 1 1 = 0) (hserves : (d.die (fld b 0 1)).retired = false) :
    fltReadLogRun p b m d =
      d.answer p (logAnswer ((d.fc (fld b 0 1)).ring.map fun r => (r.seq, r.bytes)) (d.fc (fld b 0 1)).seqNext (fld b 8 8) 126) := by
  simp [fltReadLogRun, hsource, hserves, Nat.not_lt.2 (Nat.le_of_lt_succ hdie)]

theorem fltClearStickyRun_first (hwhat : fld b 0 1 = 0) (hdie : fld b 1 1 < 8) :
    fltClearStickyRun p b m d = (d.onFc (fld b 1 1) fun c => { c with first := none, next := 0 }).answer p {} := by
  have hrange : ¬(3 < fld b 0 1 ∨ (fld b 0 1 ≠ 3 ∧ 7 < fld b 1 1)) := by omega
  exact (if_neg hrange).trans (if_pos hwhat)

theorem fltSetSeverityRun_set (hdie : fld b 3 1 < 8) (hv : fld b 4 1 ≤ 7) (hst : BitVec.ofNat 16 (fld b 0 2) ∈ St.all)
    (hkind : kindDefined (fld b 2 1) = true) (hfixed : severityFixed (BitVec.ofNat 16 (fld b 0 2)) (fld b 2 1) = false)
    (hfloor : severityFloor (BitVec.ofNat 16 (fld b 0 2)) (fld b 2 1) ≤ fld b 4 1) :
    fltSetSeverityRun p b m d =
      (d.onFc (fld b 3 1) fun c => c.setSeverity (BitVec.ofNat 16 (fld b 0 2)) (fld b 2 1) (fld b 4 1)).answer p {} := by
  have hrange : ¬((7 < fld b 3 1 ∧ fld b 3 1 ≠ 0xFF) ∨ 7 < fld b 4 1) := by omega
  have hknown : ¬((!(St.all.contains (BitVec.ofNat 16 (fld b 0 2) : Status))) = true ∨ kindDefined (fld b 2 1) = false) := by
    simp [hst, hkind]
  have hfree : ¬(severityFixed (BitVec.ofNat 16 (fld b 0 2)) (fld b 2 1) = true ∨
      fld b 4 1 < severityFloor (BitVec.ofNat 16 (fld b 0 2)) (fld b 2 1)) := by
    simp [hfixed, hfloor]
  have hone : fld b 3 1 ≠ 0xFF := by omega
  simp only [fltSetSeverityRun, if_neg hrange, if_neg hknown, if_neg hfree, if_neg hone, List.foldl_cons, List.foldl_nil]

@[simp] theorem fit_length (n : Nat) (b : Bytes) : (fit n b).length = n := by
  simp only [fit, zeros, List.length_append, List.length_take, List.length_replicate]
  omega

theorem fltGetDumpRun_written {x : Bytes} (hx : d.nor.dump = some x) (hoff : fld b 0 4 % 4096 = 0) (hlen : fld b 0 4 < x.length)
    (hw : d.hostRefused (p / 32) (fld b 8 8) 4096 true = none) :
    fltGetDumpRun p b m d =
      (d.hostPut (p / 32) (fld b 8 8) (fit 4096 (cut x (fld b 0 4) 4096))).answer p { body := le 4 x.length } := by
  have hbuf : (fit 4096 (cut x (fld b 0 4) 4096)).length = 4096 := fit_length _ _
  simp only [fltGetDumpRun, hoff, hx, ne_eq, not_true, if_false, if_neg (Nat.not_le.2 hlen)]
  exact answerBuf_written (buf := (fld b 8 8, 4096)) (Nat.le_of_eq hbuf) (hbuf.symm ▸ hw)

end Faults

/-! ### The power group (R562, R563) -/

section Power

variable {p : Nat} {b : Bytes} {m : Mem} {d : Dev}

theorem pwrSetCapRun_written (hw : 900 ≤ fld b 0 2) (hw' : fld b 0 2 ≤ 1650)
    (hok : (d.cfgWrite fun c => { c with capW := fld b 0 2 }).2 = true) :
    let r := (d.cfgWrite fun c => { c with capW := fld b 0 2 }).1
    pwrSetCapRun p b m d = ({ r with pwr := { r.pwr with nextCap := some (fld b 0 2) } } : Dev).answer p {} := by
  have hrange : ¬(fld b 0 2 < 900 ∨ 1650 < fld b 0 2) := by omega
  exact (if_neg hrange).trans (if_pos hok)

theorem pwrDomainCtlRun_eth_on (hu : d.dieUp (fld b 0 1) = true) (hdom : fld b 1 1 = 13) (hon : fld b 2 1 = 1)
    (hidle : d.ethInUse (fld b 0 1) = false) : pwrDomainCtlRun p b m d = (d.setDomain (fld b 0 1) 13 true).answer p {} := by
  simp [pwrDomainCtlRun, hu, hdom, hon, hidle]

theorem pwrReadMarginsRun_read (hdie : fld b 0 1 < 8) :
    pwrReadMarginsRun p b m d = d.answer p { body := le 4 ((d.die (fld b 0 1)).margins.take 169).length ++ zeros 4 ++
      ((d.die (fld b 0 1)).margins.take 169).flatMap Margin.bytes } :=
  if_neg (by omega)

end Power

/-! ### The firmware group (R591, R592) -/

section Firmware

variable {p : Nat} {b x : Bytes} {m : Mem} {d : Dev}

section Stage

variable (hlen : fld b 8 8 ≤ 16777216) (hx : hostRead m d (p / 32) (fld b 0 8) (fld b 8 8) = some x)
include hlen hx

theorem fwStageImageRun_staged (hdigest : sha256 x = cut b 16 32) :
    let image : Image := { valid := true, digest := cut b 16 32, semantics := (Config.imageSemantics x).toNat, staged := true }
    fwStageImageRun p b m d = ({ d with nor := d.nor.setImage (1 - d.cfg.activeImage) image } : Dev).answer p
      { body := le 1 (1 - d.cfg.activeImage) ++ zeros 3 ++ le 4 image.semantics } := by
  have hread : pghRead m d p (hostBuf b 0) = some x := hx
  have hfits : ¬16777216 < (hostBuf b 0).2 := Nat.not_lt.2 hlen
  simp only [fwStageImageRun, if_neg hfits, hread, hdigest, ne_eq, not_true, if_false]

theorem fwStageImageRun_other_digest (hdigest : sha256 x ≠ cut b 16 32) :
    fwStageImageRun p b m d = ({ d with nor := d.nor.setImage (1 - d.cfg.activeImage) {} } : Dev).answer p (fail St.PGH_FW_IMAGE) := by
  have hread : pghRead m d p (hostBuf b 0) = some x := hx
  have hfits : ¬16777216 < (hostBuf b 0).2 := Nat.not_lt.2 hlen
  simp only [fwStageImageRun, if_neg hfits, hread, if_pos hdigest]

end Stage

section Activate

variable (hslot : fld b 0 1 ≤ 1)
include hslot

theorem fwActivateRun_jobs_active (hj : ∃ j ∈ d.jobs, j.state ≠ .sealed_ ∧ j.state ≠ .lost) :
    fwActivateRun p b m d = d.answer p (fail St.PGH_FW_JOBS_ACTIVE) := by
  have hactive : (d.jobs.any fun j => !(j.state == .sealed_ || j.state == .lost)) = true := by simpa using hj
  exact (if_neg (Nat.not_lt.2 hslot)).trans (if_pos hactive)

theorem fwActivateRun_written (hj : ∀ j ∈ d.jobs, j.state = .sealed_ ∨ j.state = .lost) (hv : (d.nor.image (fld b 0 1)).valid = true)
    (hs : (d.nor.image (fld b 0 1)).staged = true) (hok : (d.cfgWrite fun c => { c with activeImage := fld b 0 1 }).2 = true) :
    let r := (d.cfgWrite fun c => { c with activeImage := fld b 0 1 }).1
    fwActivateRun p b m d = ({ r with
      nor := r.nor.setImage (fld b 0 1) { d.nor.image (fld b 0 1) with staged := false }
      bkp := { r.bkp with failedStarts := 0 }
      seqs := { r.seqs with softDue := some (2, r.now + 100000000) } } : Dev).answer p {} := by
  intro r
  have hidle : ¬(d.jobs.any fun j => !(j.state == .sealed_ || j.state == .lost)) = true := by
    simp only [List.any_eq_true, Bool.not_eq_true', Bool.or_eq_false_iff, beq_eq_false_iff_ne]
    rintro ⟨j, hmem, hsealed, hlost⟩
    exact (hj j hmem).elim hsealed hlost
  simp only [fwActivateRun, if_neg (Nat.not_lt.2 hslot), if_neg hidle, hv, hs, hok, Bool.true_eq_false, or_self, if_false]
  rfl

end Activate

end Firmware

/-! ### The statements -/

/-- Settles O1: each command's run by the lemma of the branch the clause's conditions select. -/
theorem deviceCommandsComplete : Obligations.DeviceCommandsComplete := by
  unfold Obligations.DeviceCommandsComplete
  refine ⟨fun p frame s h => ?_, fun p frame s h => ?_, fun p frame s h => ?_, fun p frame s h => ?_, fun p frame s h hs => ?_⟩
  · exact exec_accepted rfl h rfl
  · exact fun hdie hlen hw => exec_accepted rfl h (devGetFiguresRun_written (m := s.mem) hdie hlen hw)
  · exact fun hperiod hperiod' heff hp1 hp2 hne => exec_accepted rfl h (devSetTickRun_set (m := s.mem) hperiod hperiod' heff hp1 hp2 hne)
  · exact fun hmhz hmhz' hstep hfill hfill' => exec_accepted rfl h (devSetModeRun_set (m := s.mem) hmhz hmhz' hstep hfill hfill')
  · have hrun := devStartCompleteRun_ready (p := p) (b := devStartCompleteOp.bodyOf p frame s.dev) (m := s.mem) (d := s.dev.rung p frame) hs
    exact ⟨exec_accepted rfl h hrun, rfl, rfl⟩

/-- Settles O2: each command's run by the lemma of the branch the clause's conditions select. -/
theorem faultAndPowerCommandsComplete : Obligations.FaultAndPowerCommandsComplete := by
  unfold Obligations.FaultAndPowerCommandsComplete
  refine ⟨fun p frame s h => ?_, fun p frame s h => ?_, fun p frame s h => ?_, fun p frame x s h => ?_, fun p frame s h => ?_,
    fun p frame s h => ?_, fun p frame s h => ?_⟩
  · intro d b log from_ hdie hsource hserves
    exact exec_accepted rfl h ((fltReadLogRun_ring (m := s.mem) hdie hsource hserves).trans (congrArg (d.answer p) (logAnswer_records ..)))
  · exact fun hwhat hdie => exec_accepted rfl h (fltClearStickyRun_first (m := s.mem) hwhat hdie)
  · exact fun hdie hv hst hkind hfixed hfloor => exec_accepted rfl h (fltSetSeverityRun_set (m := s.mem) hdie hv hst hkind hfixed hfloor)
  · exact fun hx hoff hlen hw => exec_accepted rfl h (fltGetDumpRun_written (m := s.mem) hx hoff hlen hw)
  · exact fun hw hw' hok => exec_accepted rfl h (pwrSetCapRun_written (m := s.mem) hw hw' hok)
  · exact fun hu hdom hon hidle => exec_accepted rfl h (pwrDomainCtlRun_eth_on (m := s.mem) hu hdom hon hidle)
  · exact fun hdie => exec_accepted rfl h (pwrReadMarginsRun_read (m := s.mem) hdie)

/-- Settles O3: each command's run by the lemma of the branch the clause's conditions select. -/
theorem firmwareCommandsComplete : Obligations.FirmwareCommandsComplete := by
  unfold Obligations.FirmwareCommandsComplete
  refine ⟨fun p frame x s h hlen hx => ⟨fun hdigest => ?_, fun hdigest => ?_⟩,
    fun p frame s h hslot => ⟨fun hj => ?_, fun hj hv hs hok => ?_⟩⟩
  · exact exec_accepted rfl h (fwStageImageRun_staged hlen hx hdigest)
  · exact exec_accepted rfl h (fwStageImageRun_other_digest hlen hx hdigest)
  · exact exec_accepted rfl h (fwActivateRun_jobs_active (m := s.mem) hslot hj)
  · exact exec_accepted rfl h (fwActivateRun_written (m := s.mem) hslot hj hv hs hok)

end Sys2Proof.Machine
end

section
/-! PROOFS. Writes of the always-on registers and of the checkers' registers (R511, R530, R595, R601, R602, R606, R613, R614). -/

namespace Sys2Proof.Machine

open Sys2Proof

/-! ### RST_CTL, BKP and FC_ALERT_ACK (R601, R602, R606) -/

section AlwaysOn

variable {port die : Nat} {m : Mem} {d : Dev} (hport : d.portUp port = true) (hdie : die < 8)
include hport hdie

theorem port_serves : ¬(d.portUp port = false ∨ 8 ≤ die) := by simp [hport, hdie]

section RstCtl

variable {value : BitVec 32} (hreset : bit value.toNat 0 = true) (hpower : d.seqs.powerFailAt = none)
include hreset hpower

theorem rstCtl_acts : ¬(d.portUp port = false ∨ 8 ≤ die ∨ bit value.toNat 0 = false ∨ d.seqs.powerFailAt.isSome = true) := by
  simp [hport, hdie, hreset, hpower]

theorem pkgResetEffect_key (hkey : bits value.toNat 15 8 = 0x5A) (hnone : d.seqs.softDue = none) :
    pkgResetEffect port die value m d = { d with seqs := { d.seqs with softDue := some (1, d.now + 10000) } } := by
  rw [pkgResetEffect, Dev.rstCtl, if_neg (rstCtl_acts hport hdie hreset hpower), if_neg (not_not.2 hkey),
    if_neg (by rw [hnone]; exact nofun)]

theorem pkgResetEffect_wrong_key (hkey : bits value.toNat 15 8 ≠ 0x5A) : pkgResetEffect port die value m d = d.badWrite die := by
  rw [pkgResetEffect, Dev.rstCtl, if_neg (rstCtl_acts hport hdie hreset hpower), if_pos hkey]

end RstCtl

theorem fcAlertAckEffect_acknowledged (value : BitVec 64) :
    fcAlertAckEffect port die value m d = (d.onFc die fun c => c.acknowledge value.toNat).drivePins :=
  if_neg (port_serves hport hdie)

end AlwaysOn

section Backup

variable {port : Nat} {value : BitVec 32} {m : Mem} {d : Dev} (hport : d.portUp port = true)
include hport

theorem bkpClearEffect_cleared (hclear : bit value.toNat 8 = true) :
    bkpClearEffect port 0 value m d = { d with bkp := { d.bkp with failedStarts := 0 } } := by
  rw [bkpClearEffect, if_pos hclear, Dev.bkpFailedStarts, if_neg (port_serves hport (by decide)), if_neg (not_not.2 rfl), if_pos hclear]

theorem recoveryReqEffect_set (hreq : bit value.toNat 0 = true) :
    recoveryReqEffect port 0 value m d = { d with bkp := { d.bkp with
      recoveryReq := true
      powerFail := d.bkp.powerFail && !bit value.toNat 1
      backupLost := d.bkp.backupLost && !bit value.toNat 3 } } := by
  simp only [recoveryReqEffect, hreq, if_true, Dev.bkpFlags, if_neg (port_serves hport (by decide : 0 < 8)), ne_eq, not_true, if_false,
    Bool.or_true]

end Backup

/-! ### KICK (R530) -/

theorem kickEffect_roist {port die : Nat} {value : BitVec 32} {m : Mem} {d : Dev} (hu : d.dieUp die = true)
    (hkick : bit value.toNat 0 = true) : kickEffect port die value true m d = d.onFc die fun c => { c with lastKick := d.now } := by
  have hdie : die < 8 := by
    simp only [Dev.dieUp, Bool.and_eq_true, decide_eq_true_eq] at hu
    omega
  simp only [kickEffect, Dev.watchdogWrite, if_pos hkick, if_neg (Nat.not_le.2 hdie), if_true, if_pos hu]

/-! ### ARM and DISARM (R511, R613) -/

section Flip

theorem flip_arm_armed {f : Flip} {open_ : Bool} {value : Nat} (harm : bit value 0 = true) (hnot : bit value 1 = false)
    (hin : f.inTarget = true) (hpage : open_ = true ∨ f.inPage = true) :
    f.arm open_ value = { f with armed := true, remaining := f.count, status := 0 } := by
  simp only [Flip.arm, hnot, harm, hin, hpage, Bool.false_eq_true, Bool.true_eq_false, if_false, and_self, if_true]

theorem flip_arm_refused {f : Flip} {open_ : Bool} {value : Nat} (harm : bit value 0 = true) (hnot : bit value 1 = false)
    (hout : ¬(f.inTarget = true ∧ (open_ = true ∨ f.inPage = true))) : f.arm open_ value = { f with status := St.INT_FLIP_REFUSED } := by
  simp only [Flip.arm, hnot, harm, hout, Bool.false_eq_true, Bool.true_eq_false, if_false]

theorem flip_arm_disarmed {f : Flip} {open_ : Bool} {value : Nat} (hdisarm : bit value 1 = true) :
    f.arm open_ value = { f with armed := false, remaining := 0 } := if_pos hdisarm

theorem Dev.openRegs_iff (d : Dev) : d.openRegs = true ↔ d.start = .recovery := beq_iff_eq

variable {port die : Nat} {value : BitVec 32} {m : Mem} {d : Dev} (hport : d.portUp port = true) (hopen : d.uncOpen die = true)
include hport hopen

theorem armWrite_served : d.armWrite port die value = d.onDie die fun x => { x with flip := x.flip.arm d.openRegs value.toNat } :=
  if_neg (by simp [hport, hopen])

/-- What a write of FLIP_ARM leaves, from what it makes of the die's mask. -/
theorem armEffect_flip {f : Flip} (harm : bit value.toNat 0 = true) (hf : (d.die die).flip.arm d.openRegs value.toNat = f) :
    armEffect port die value m d = d.onDie die fun x => { x with flip := f } := by
  rw [armEffect, if_pos harm, armWrite_served hport hopen]
  exact onDie_congr (congrArg (fun f => { d.die die with flip := f }) hf)

theorem disarmEffect_disarmed (hdisarm : bit value.toNat 1 = true) :
    disarmEffect port die value m d = d.onDie die fun x => { x with flip := { x.flip with armed := false, remaining := 0 } } := by
  rw [disarmEffect, if_pos hdisarm, armWrite_served hport hopen]
  exact congrArg (d.onDie die) (funext fun x => congrArg (fun f => { x with flip := f }) (flip_arm_disarmed hdisarm))

end Flip

/-! ### FRK_START and FRK_ABORT (R614) -/

theorem onFrk_congr {d : Dev} {die u : Nat} {f g : Frk → Frk} (h : f (d.frk die u) = g (d.frk die u)) : d.onFrk die u f = d.onFrk die u g :=
  onCluster_congr (congrArg (fun l => { d.cluster die (u / 2) with frk := l }) (modify_congr h))

section Frk

theorem frk_ctl_started {f : Frk} {value : Nat} {undefined : BitVec 32} (hstart : bit value 0 = true) (habort : bit value 2 = false)
    (hidle : f.state ≠ 1) : f.ctl value undefined = { f with
      compare := bit value 1
      state := 1
      matched := false
      saved := false
      error := 0
      work := some (f.list, if bit value 1 then some f.expect else none) } := by
  simp only [Frk.ctl, habort, Bool.false_eq_true, if_false, hstart, hidle, ne_eq, not_false_iff, and_self, if_true]

theorem frk_ctl_aborted {f : Frk} {value : Nat} {undefined : BitVec 32} (habort : bit value 2 = true) (hruns : f.state = 1) :
    f.ctl value undefined = { f with compare := bit value 1, state := 0, result := undefined, work := none } := by
  simp [Frk.ctl, habort, hruns]

variable {port die u : Nat} {value : BitVec 32} {m : Mem} {d : Dev} {f : Frk} (hu : u < 18) (hopen : d.uncOpen die = true)
include hu hopen

/-- What Roist's write of FRK_CTL leaves, from what it makes of the unit. -/
theorem frkCtl_roist (hf : (d.frk die u).ctl value.toNat (Config.freeWord d.free) = f) :
    d.frkCtl port die u value true = ({ d with free := d.free + 1 } : Dev).onFrk die u fun _ => f := by
  have hopen' : ({ d with free := d.free + 1 } : Dev).uncOpen die = true := hopen
  have hacts : ¬(18 ≤ u ∨ ({ d with free := d.free + 1 } : Dev).uncOpen die = false ∨
      (true = false ∧ ({ d with free := d.free + 1 } : Dev).portUp port = false)) := by simp [hu, hopen']
  rw [Dev.frkCtl, Dev.frkWrite, if_neg hacts, if_pos (Or.inl rfl)]
  exact onFrk_congr hf

theorem frkStartEffect_roist (hstart : bit value.toNat 0 = true) (hf : (d.frk die u).ctl value.toNat (Config.freeWord d.free) = f) :
    frkStartEffect port die u value true m d = ({ d with free := d.free + 1 } : Dev).onFrk die u fun _ => f :=
  (if_pos hstart).trans (frkCtl_roist hu hopen hf)

theorem frkAbortEffect_roist (habort : bit value.toNat 2 = true) (hf : (d.frk die u).ctl value.toNat (Config.freeWord d.free) = f) :
    frkAbortEffect port die u value true m d = ({ d with free := d.free + 1 } : Dev).onFrk die u fun _ => f :=
  (if_pos habort).trans (frkCtl_roist hu hopen hf)

end Frk

/-! ### The statements -/

/-- Settles O4: each write by the branch of its effect that the clause's conditions select. -/
theorem alwaysOnRegisterWrites : Obligations.AlwaysOnRegisterWrites := by
  unfold Obligations.AlwaysOnRegisterWrites
  refine ⟨fun port die value s hport hdie hreset hpower => ⟨fun hkey hnone => ?_, fun hkey => ?_⟩,
    fun port value s hport hclear => ?_, fun port value s hport hreq => ?_, fun port die value s hport hdie => ?_⟩
  · exact exec_of_effect rfl (pkgResetEffect_key hport hdie hreset hpower hkey hnone)
  · exact exec_of_effect rfl (pkgResetEffect_wrong_key hport hdie hreset hpower hkey)
  · exact exec_of_effect rfl (bkpClearEffect_cleared hport hclear)
  · exact exec_of_effect rfl (recoveryReqEffect_set hport hreq)
  · exact exec_of_effect rfl (fcAlertAckEffect_acknowledged hport hdie value)

/-- Settles O5: each write by what it makes of the mask or of the unit. -/
theorem checkerRegisterWrites : Obligations.CheckerRegisterWrites := by
  unfold Obligations.CheckerRegisterWrites
  refine ⟨fun port die value s hu hkick => ?_,
    fun port die value s hport hopen harm hnot => ⟨fun hin hpage => ?_, fun hout => ?_⟩,
    fun port die value s hport hopen hdisarm => ?_,
    fun port die u value s hu hopen hstart habort hidle => ?_,
    fun port die u value s hu hopen habort hruns => ?_⟩
  · exact exec_of_effect rfl (kickEffect_roist hu hkick)
  · exact exec_of_effect rfl (armEffect_flip hport hopen harm (flip_arm_armed harm hnot hin (hpage.imp_left s.dev.openRegs_iff.2)))
  · refine exec_of_effect rfl (armEffect_flip hport hopen harm (flip_arm_refused harm hnot ?_))
    rintro ⟨hin, hpage⟩
    rcases hout with hout | ⟨hstart, hout⟩
    · exact absurd (hin.symm.trans hout) nofun
    · exact hpage.elim (fun h => hstart (s.dev.openRegs_iff.1 h)) fun h => absurd (h.symm.trans hout) nofun
  · exact exec_of_effect rfl (disarmEffect_disarmed hport hopen hdisarm)
  · exact exec_of_effect rfl (frkStartEffect_roist hu hopen hstart (frk_ctl_started hstart habort hidle))
  · exact exec_of_effect rfl (frkAbortEffect_roist hu hopen habort (frk_ctl_aborted habort hruns))

end Sys2Proof.Machine
end

section
/-! PROOFS. Management buses cleared and isolated (R608, R609, R627, R628). -/

namespace Sys2Proof.Machine

open Sys2Proof

/-! ### A bus of a die -/

theorem onBus_congr {d : Dev} {die b : Nat} {f g : Mbus → Mbus} (h : f (d.bus die b) = g (d.bus die b)) : d.onBus die b f = d.onBus die b g :=
  onDie_congr (congrArg (fun l => { d.die die with mbus := l }) (modify_congr h))

theorem onBus_bus {d : Dev} {die b : Nat} (hdie : die < d.dies.length) (hb : b < (d.die die).mbus.length) (f : Mbus → Mbus) :
    (d.onBus die b f).bus die b = f (d.bus die b) := by
  rw [Dev.bus, Dev.onBus, Dev.onDie_die_self _ _ _ hdie]
  exact getD_modify_self hb f {}

/-! ### What a clear leaves (R609) -/

section Cleared

variable {x : Mbus} {good : Nat} {sda scl : Bool} {now : Nat}

theorem mbus_cleared_good (h : x.clears_ good = true) : x.cleared good sda scl now =
    { x with attempts := BitVec.ofNat 3 good, clears := x.clears + 1, clearDue := false, sda := true, scl := true } := if_pos h

theorem mbus_cleared_failed (h : x.clears_ good = false) : (x.cleared good sda scl now).stuck = true ∧
    (x.cleared good sda scl now).autoIsolated = (x.autoIsolated || x.autoIsolate) := by
  rw [Mbus.cleared, if_neg (Bool.eq_false_iff.1 h)]
  exact ⟨rfl, rfl⟩

theorem mbus_clears_iff : x.clears_ good = true ↔ 1 ≤ good ∧ good ≤ x.tries := decide_eq_true_iff

end Cleared

section BusClear

variable {d : Dev} {die b good : Nat} {sda scl : Bool}

theorem busClear_good (h : (d.bus die b).clears_ good = true) :
    d.busClear die b good sda scl = d.onBus die b fun x => x.cleared good sda scl d.now := if_pos h

theorem busClear_failed (h : (d.bus die b).clears_ good = false) :
    d.busClear die b good sda scl = (d.onBus die b fun x => x.cleared good sda scl d.now).report St.FLT_MBUS_STUCK
      { kind := 0x10, die := die } (busDetail b sda scl) := if_neg (Bool.eq_false_iff.1 h)

end BusClear

/-! ### ISOLATE and MBUS_CLEAR (R608, R609) -/

section Write

variable {port die b : Nat} {value : BitVec 32} {m : Mem} {d : Dev} (hb : b < 4) (hopen : d.uncOpen die = true)
include hb hopen

theorem busWrite_roist (f : Dev → Dev) : d.busWrite port die b true f = f d := by
  rw [Dev.busWrite, if_neg (by simp [hb, hopen]), if_pos (Or.inl rfl)]

theorem isolateEffect_roist (hclear : bit value.toNat 8 = false) :
    isolateEffect port die b value true m d = d.onBus die b fun x => x.control b value.toNat :=
  (if_neg (Bool.eq_false_iff.1 hclear)).trans (busWrite_roist hb hopen _)

/-- MBUS_CTL with ENABLE and CLEAR set: the fields, then a clear of the bus they leave. -/
theorem mbusClearEffect_roist {good : Nat} {sda scl : Bool} (hdie : die < d.dies.length) (hbus : b < (d.die die).mbus.length)
    (hclear : bit value.toNat 8 = true) (henable : bit value.toNat 0 = true) :
    mbusClearEffect port die b value true good sda scl m d =
      (d.onBus die b fun _ => (d.bus die b).control b value.toNat).busClear die b good sda scl := by
  have hset : d.onBus die b (fun x => x.control b value.toNat) = d.onBus die b fun _ => (d.bus die b).control b value.toNat :=
    onBus_congr rfl
  have hactive : ((d.onBus die b fun _ => (d.bus die b).control b value.toNat).bus die b).enable = true := by
    rw [onBus_bus hdie hbus]
    exact henable
  rw [mbusClearEffect, if_neg (Bool.not_eq_false _ ▸ hclear), busWrite_roist hb hopen]
  dsimp only
  rw [hset, if_pos hactive]

end Write

/-! ### SCL_LOW_TIMEOUT and ISOLATE_RETRY (R609, R628) -/

section Retry

variable {die b good : Nat} {sda scl : Bool} {m : Mem} {d : Dev} (hruns : d.busRuns die b = true)
include hruns

theorem sclLowTimeoutEffect_clears (hopen : d.busIsolated die b = false) :
    sclLowTimeoutEffect die b good sda scl m d = (d.until (d.now + 35000000)).busClear die b good sda scl :=
  if_neg (by simp [hruns, hopen])

theorem isolateRetryEffect_recovers (hauto : (d.bus die b).autoIsolated = true) (htries : (d.bus die b).isolateTries < 10)
    (hgood : (d.bus die b).clears_ good = true) :
    let t := d.until ((d.bus die b).isolatedAt + 60 * second)
    isolateRetryEffect die b good sda scl m d = (t.onBus die b fun x =>
      { x.cleared good sda scl t.now with autoIsolated := false, isolateTries := 0 }).report St.FLT_MBUS_RECOVERED
        { kind := 0x10, die := die } (busDetail b true true) := by
  have hgo : ¬(d.busRuns die b = false ∨ (d.bus die b).autoIsolated = false ∨ 10 ≤ (d.bus die b).isolateTries) := by
    simp [hruns, hauto, htries]
  exact (if_neg hgo).trans (if_pos hgood)

end Retry

/-! ### The statement -/

/-- Settles O6: each event by the clear it runs, and whether that succeeds. -/
theorem managementBusClears : Obligations.ManagementBusClears := by
  unfold Obligations.ManagementBusClears
  refine ⟨fun port die b value s hb hopen hclear => ?_,
    fun port die b good sda scl value s hb hdie hopen hbuses hdies hclear henable => ?_,
    fun die b good sda scl s hruns hopen => ?_, fun die b good sda scl s hruns hauto htries hgood => ?_⟩
  · exact exec_of_effect rfl (isolateEffect_roist hb hopen hclear)
  · intro x d
    have hdie' : die < s.dev.dies.length := hdies.symm ▸ hdie
    have hbus' : b < (s.dev.die die).mbus.length := hbuses.symm ▸ hb
    have hbus : d.bus die b = x := onBus_bus hdie' hbus' _
    have hrun := mbusClearEffect_roist (port := port) (good := good) (sda := sda) (scl := scl) (m := s.mem) hb hopen hdie' hbus' hclear henable
    have hcleared : d.onBus die b (fun y => y.cleared good sda scl d.now) = d.onBus die b fun _ => x.cleared good sda scl s.dev.now :=
      onBus_congr (by rw [hbus]; rfl)
    refine ⟨fun h1 htries => ?_, fun hfail => ?_⟩
    · have hgood : x.clears_ good = true := mbus_clears_iff.2 ⟨h1, htries⟩
      refine exec_of_effect rfl (hrun.trans ((busClear_good (hbus.symm ▸ hgood)).trans (hcleared.trans ?_)))
      rw [mbus_cleared_good hgood]
    · have hbad : x.clears_ good = false := by
        rw [Bool.eq_false_iff, ne_eq, mbus_clears_iff]
        omega
      refine ⟨exec_of_effect rfl (hrun.trans ((busClear_failed (hbus.symm ▸ hbad)).trans ?_)), mbus_cleared_failed hbad⟩
      exact congrArg (fun e : Dev => e.report _ _ _) hcleared
  · exact exec_of_effect rfl (sclLowTimeoutEffect_clears hruns hopen)
  · exact exec_of_effect rfl (isolateRetryEffect_recovers hruns hauto htries hgood)

end Sys2Proof.Machine
end

section
/-! PROOFS. Host accesses to BAR0 (R595 to R598, R607, R610): proper writes by block, improper ones, and the low-half latch. -/

namespace Sys2Proof.Machine

open Sys2Proof

/-! ### A write of every pigeonhole of a port (R610) -/

@[simp] theorem put_dev_hole (s : State) (d : Dev) (p : Nat) : (s.put d).dev.hole p = d.hole p := rfl

section Holes

variable {d : Dev} {base : Nat} {f : Nat → Pgh → Pgh}

/-- The pigeonholes from a base changed one after the other. -/
def Dev.onHoles (d : Dev) (base n : Nat) (f : Nat → Pgh → Pgh) : Dev := (List.range n).foldl (fun (d : Dev) i => d.onHole (base + i) (f i)) d

theorem onHoles_succ (n : Nat) : d.onHoles base (n + 1) f = (d.onHoles base n f).onHole (base + n) (f n) := by
  rw [Dev.onHoles, List.range_succ, List.foldl_append]
  rfl

theorem onHoles_length (n : Nat) : (d.onHoles base n f).pgh.length = d.pgh.length := by
  induction n with
  | zero => rfl
  | succ n ih => rw [onHoles_succ, Dev.onHole_length, ih]

theorem onHoles_other (n : Nat) {q : Nat} (hq : ∀ i < n, q ≠ base + i) : (d.onHoles base n f).hole q = d.hole q := by
  induction n with
  | zero => rfl
  | succ n ih => rw [onHoles_succ, Dev.onHole_other _ _ _ _ (hq n (Nat.lt_succ_self n)), ih fun i hi => hq i (Nat.lt_succ_of_lt hi)]

theorem onHoles_each {n i : Nat} (hi : i < n) (hlen : base + n ≤ d.pgh.length) :
    (d.onHoles base n f).hole (base + i) = f i (d.hole (base + i)) := by
  induction n with
  | zero => exact absurd hi (Nat.not_lt_zero i)
  | succ n ih =>
    rw [onHoles_succ]
    rcases Nat.lt_succ_iff_lt_or_eq.1 hi with hlt | rfl
    · rw [Dev.onHole_other _ _ _ _ (by omega), ih hlt (by omega)]
    · rw [Dev.onHole_self _ _ _ (by rw [onHoles_length]; omega), onHoles_other _ fun j hj => by omega]

/-- Bit n of a write concerns pigeonhole 32k + n; those of other ports stay. -/
theorem onHoles_port {k : Nat} (hk : k < 4) (hlen : d.pgh.length = 128) :
    (∀ n < 32, (d.onHoles (32 * k) 32 f).hole (32 * k + n) = f n (d.hole (32 * k + n))) ∧
      ∀ p < 128, p / 32 ≠ k → (d.onHoles (32 * k) 32 f).hole p = d.hole p :=
  ⟨fun n hn => onHoles_each hn (by omega), fun p _ hp => onHoles_other 32 fun i hi => by omega⟩

end Holes

/-! ### The access (R595 to R598) -/

/-- A bit of the low half of a 64-bit value. -/
theorem bit_setWidth {v : BitVec 64} {n : Nat} (hn : n < 32) : bit (v.setWidth 32).toNat n = bit v.toNat n := by
  rw [bit, bit, BitVec.toNat_setWidth, Nat.testBit_mod_two_pow, decide_eq_true hn, Bool.true_and]

/-- The host's access reaches a window. -/
theorem access_reaches {d : Dev} {port offset : Nat} (hport : d.portUp port = true) (hoff : offset < 2 ^ 28) :
    ¬(d.portUp port = false ∨ 2 ^ 28 ≤ offset) := by
  rw [hport, not_or]
  exact ⟨nofun, Nat.not_le.2 hoff⟩

/-- A 4 B write of a block that answers, where no 64-bit register stands. -/
theorem registerWriteEffect_word {port die off : Nat} {value : BitVec 64} {m : Mem} {d : Dev} (hport : d.portUp port = true)
    (hdie : die < 8) (hoff : off < 2 ^ 25) (halign : off % 4 = 0) (hopen : off / 2 ^ 16 < 5 ∨ d.uncOpen die = true)
    (hnarrow : d.reg64 die (off / 2 ^ 16) (off % 2 ^ 16 / 8 * 8) = none) :
    registerWriteEffect port (die * 2 ^ 25 + off) 4 value m d =
      d.write32 port die (off / 2 ^ 16) (off % 2 ^ 16) (value.setWidth 32) m := by
  have hwindow : (die * 2 ^ 25 + off) / 2 ^ 25 = die := by omega
  have hblock : (die * 2 ^ 25 + off) % 2 ^ 25 / 2 ^ 16 = off / 2 ^ 16 := by omega
  have hplace : (die * 2 ^ 25 + off) % 2 ^ 16 = off % 2 ^ 16 := by omega
  have hproper : improper (die * 2 ^ 25 + off) 4 = false := by
    have hword : (die * 2 ^ 25 + off) % 4 = 0 := by omega
    simp only [improper, hword, beq_self_eq_true, Bool.true_or, Bool.and_self, Bool.not_true]
  have hanswers : ¬(5 ≤ off / 2 ^ 16 ∧ off / 2 ^ 16 ≤ 10 ∧ d.uncOpen die = false) := by
    rcases hopen with hlow | hu
    · omega
    · simp [hu]
  simp only [registerWriteEffect, hwindow, hblock, hplace, if_neg (access_reaches (offset := die * 2 ^ 25 + off) hport (by omega)), hproper,
    Bool.false_eq_true, if_false, if_neg hanswers, Dev.blockWrite, if_true, hnarrow, Option.isSome_none]

/-- RST_BAD_ACCESS after an improper access: captured unless VALID is set, counted always. -/
theorem badRegs_note (x : BadRegs) (port offset : Nat) (write : Bool) : x.note port offset write =
    if x.valid then { x with count := satSucc x.count }
    else { x with count := satSucc x.count, offset := BitVec.ofNat 25 offset, write := write, port := BitVec.ofNat 2 port, valid := true } :=
  rfl

section Improper

variable {port offset size : Nat} {m : Mem} {d : Dev} (hport : d.portUp port = true) (hoff : offset < 2 ^ 28)
  (himproper : improper offset size = true)
include hport hoff himproper

theorem badAccessEffect_improper (write : Bool) : badAccessEffect port offset size write m d = d.improperAccess port offset write :=
  if_neg (by
    rw [himproper, ← or_assoc, not_or]
    exact ⟨access_reaches hport hoff, nofun⟩)

theorem registerWriteEffect_improper (value : BitVec 64) :
    registerWriteEffect port offset size value m d = d.improperAccess port offset true :=
  (if_neg (access_reaches hport hoff)).trans (if_pos himproper)

end Improper

theorem lowHalfReadEffect_latched {port offset : Nat} {v : BitVec 64} {m : Mem} {d : Dev} (hport : d.portUp port = true)
    (hoff : offset < 2 ^ 28) (hv : d.reg64 (offset / 2 ^ 25) (offset % 2 ^ 25 / 2 ^ 16) (offset % 2 ^ 16) = some v)
    (hon : d.blockOn (offset / 2 ^ 25) (offset % 2 ^ 25 / 2 ^ 16) = true) :
    lowHalfReadEffect port offset m d = { d with
      pghPorts := d.pghPorts.modify port fun x => { x with latch := some (offset, (v >>> 32).setWidth 32) } } := by
  simp only [lowHalfReadEffect, if_neg (access_reaches hport hoff), hv, hon, if_true]

/-! ### The TICK and PGH blocks (R607, R610) -/

theorem writeTick_ctl {value : BitVec 32} {d : Dev} : d.writeTick 0 0x30 value =
    { d with clk := { d.clk with nextCtl := some (bit value.toNat 0, bit value.toNat 1) } } := if_pos ⟨rfl, rfl⟩

section PghBlock

variable {k : Nat} {value : BitVec 32} {m : Mem} {d : Dev}

/-- The PGH block stands in the windows of the even dies. -/
theorem pgh_block_even (k : Nat) : ¬2 * k % 2 = 1 ∧ 2 * k / 2 = k := by omega

theorem writePgh_irqEn :
    d.writePgh (2 * k) 0x18 value m = d.onHoles (32 * k) 32 fun n h => { h with irqEn := bit value.toNat n } := by
  obtain ⟨heven, hhalf⟩ := pgh_block_even k
  simp only [Dev.writePgh, if_neg heven, hhalf, Dev.onHoles]

theorem writePgh_done :
    d.writePgh (2 * k) 0x10 value m = d.onHoles (32 * k) 32 fun n h => { h with done := h.done && !bit value.toNat n } := by
  obtain ⟨heven, hhalf⟩ := pgh_block_even k
  simp only [Dev.writePgh, if_neg heven, hhalf, Dev.onHoles]

theorem writePgh_vector : d.writePgh (2 * k) 0x20 value m =
    { d with pghPorts := d.pghPorts.modify k fun x => { x with vector := value.setWidth 11 } } := by
  obtain ⟨heven, hhalf⟩ := pgh_block_even k
  simp only [Dev.writePgh, if_neg heven, hhalf]

end PghBlock

/-! ### The statement -/

/-- Settles O7: a proper write by the register it names, an improper access by its capture, a low-half read by the latch. -/
theorem hostRegisterAccesses : Obligations.HostRegisterAccesses := by
  unfold Obligations.HostRegisterAccesses
  refine ⟨fun port k value s hport hk hopen hlen => ?_, fun port die value s hport hdie => ?_, fun port value s hport hopen => ?_,
    fun port offset size write value s hport hoff himproper => ?_, fun port offset v s hport hoff hv hon => ?_⟩
  · have hword (off : Nat) := registerWriteEffect_word (die := 2 * k) (off := off) (value := value) (m := s.mem) hport (by omega)
    refine ⟨⟨_, exec_of_effect rfl ((hword 0x70018 (by decide) rfl (Or.inr hopen) rfl).trans (writePgh_irqEn (m := s.mem))), ?_⟩,
      ⟨_, exec_of_effect rfl ((hword 0x70010 (by decide) rfl (Or.inr hopen) rfl).trans (writePgh_done (m := s.mem))), ?_⟩,
      exec_of_effect rfl ((hword 0x70020 (by decide) rfl (Or.inr hopen) rfl).trans ?_)⟩
    · obtain ⟨heach, hother⟩ := onHoles_port (d := s.dev) (f := fun n h => { h with irqEn := bit (value.setWidth 32).toNat n }) hk hlen
      exact ⟨fun n hn => by rw [put_dev_hole, heach n hn, bit_setWidth hn], fun p hp hne => by rw [put_dev_hole, hother p hp hne]⟩
    · obtain ⟨heach, hother⟩ := onHoles_port (d := s.dev) (f := fun n h => { h with done := h.done && !bit (value.setWidth 32).toNat n }) hk hlen
      exact ⟨fun n hn => by rw [put_dev_hole, heach n hn, bit_setWidth hn], fun p hp hne => by rw [put_dev_hole, hother p hp hne]⟩
    · refine (writePgh_vector (m := s.mem)).trans ?_
      rw [BitVec.setWidth_setWidth_of_le _ (by decide)]
  · exact exec_of_effect rfl (registerWriteEffect_word (off := 0x20) hport hdie (by decide) rfl (Or.inl (by decide)) rfl)
  · have hword := registerWriteEffect_word (die := 0) (off := 0x50030) (value := value) (m := s.mem) hport (by decide) (by decide) rfl
      (Or.inr hopen) rfl
    rw [Nat.zero_mul, Nat.zero_add] at hword
    have hctl := hword.trans writeTick_ctl
    rw [bit_setWidth (by decide), bit_setWidth (by decide)] at hctl
    exact exec_of_effect rfl hctl
  · refine ⟨exec_of_effect rfl (badAccessEffect_improper hport hoff himproper write), ?_⟩
    rintro rfl
    refine exec_of_effect rfl ((registerWriteEffect_improper hport hoff himproper value).trans ?_)
    exact (badAccessEffect_improper hport hoff himproper true).symm
  · exact exec_of_effect rfl (lowHalfReadEffect_latched hport hoff hv hon)

end Sys2Proof.Machine
end

section
/-! PROOFS. The watchdog of a die (R530): which unit its expiry names. -/

namespace Sys2Proof.Machine

open Sys2Proof

/-! ### WATCHDOG_EXPIRY (R530) -/

/-- A device of one die past start-up step 6, whose own Postmaster core serves. -/
def watchdogState : State := { dev := { ({} : Dev) with dies := [{}], seqs := { ({} : Seqs) with step := 6 } } }

/-- Its device once 100 ms have passed without a KICK and the expiry is counted. -/
def watchdogCounted : Dev :=
  (watchdogState.dev.until ((watchdogState.dev.fc 0).lastKick + 100000000)).onFc 0 fun c => { c with
    lastKick := max watchdogState.dev.now ((watchdogState.dev.fc 0).lastKick + 100000000)
    ctrs := { c.ctrs with watchdogExpiries := c.ctrs.watchdogExpiries + 1 } }

/-- PHYSICAL of the records in the ring of die 0 (Table 18.1). -/
def State.ringUnits (s : State) : List (BitVec 16) := (s.dev.fc 0).ring.map (·.physical)

/-- The expiry names the Postmaster core by its slot, 0. -/
theorem watchdogExpiry_ringUnits :
    (watchdogState.put (watchdogExpiryEffect 0 watchdogState.mem watchdogState.dev)).ringUnits = [packUnit 0 0xF 0xF 0] := rfl

/-- A report against a unit of kind 0x0D without a slot leaves all ones in its place. -/
theorem slotless_report_ringUnits :
    (watchdogState.put (watchdogCounted.report St.FLT_WATCHDOG { kind := 0x0D, die := 0 })).ringUnits = [packUnit 0 0xF 0xF 0xF] := rfl

/-! ### The statement -/

/-- Refutes O51: its clause for a watchdog whose Postmaster core 0 still serves reports a unit without a slot (0xF), and the expiry names
that core by slot 0, so the records it leaves differ in PHYSICAL. -/
theorem not_faultReports : ¬ Obligations.FaultReports := by
  unfold Obligations.FaultReports
  rintro ⟨-, -, -, hwatchdog, -⟩
  obtain ⟨hfirst, -⟩ := hwatchdog 0 watchdogState (by decide) (by decide)
  have hput : watchdogState.put (watchdogExpiryEffect 0 watchdogState.mem watchdogState.dev) =
      watchdogState.put (watchdogCounted.report St.FLT_WATCHDOG { kind := 0x0D, die := 0 }) := Host.Outcome.next.inj (hfirst rfl)
  have hunits := watchdogExpiry_ringUnits.symm.trans ((congrArg State.ringUnits hput).trans slotless_report_ringUnits)
  exact absurd hunits (by decide)

end Sys2Proof.Machine
end

section
/-! PROOFS. Margins, junction sensors, the power cap and the fatal dump (R540, R541, R564, R625, R638). -/

namespace Sys2Proof.Machine

open Sys2Proof

/-! ### JUNCTION_SENSOR_READ (R625) -/

section Junction

variable {die sensor : Nat} {celsius : Int} {m : Mem} {d : Dev} (hdie : die < 8) (hsensor : sensor < 24)

/-- The latest reading of a sensor kept. -/
def Dev.junctionRead (d : Dev) (die sensor : Nat) (celsius : Int) : Dev := { d with pwr := { d.pwr with
  junctions := (d.pwr.junctions.filter fun x => x.1 != 24 * die + sensor) ++ [(24 * die + sensor, celsius)] } }

/-- THERMTRIP_N fallen. -/
def Dev.thermtripped (d : Dev) : Dev := { d with pins := { d.pins with thermtripN := true } }

include hdie hsensor

theorem sensor_there : ¬(8 ≤ die ∨ 24 ≤ sensor) := by omega

theorem junctionSensorReadEffect_cool (hcool : celsius < 118) :
    junctionSensorReadEffect die sensor celsius m d = d.junctionRead die sensor celsius :=
  (if_neg (sensor_there hdie hsensor)).trans (if_pos hcool)

variable (hhot : 118 ≤ celsius)
include hhot

theorem junctionSensorReadEffect_hot (hpower : d.seqs.powerFailAt = none) :
    junctionSensorReadEffect die sensor celsius m d =
      (d.junctionRead die sensor celsius).thermtripped.report St.FLT_THERMTRIP { kind := 0x10, die := die } (BitVec.ofInt 64 celsius) :=
  (if_neg (sensor_there hdie hsensor)).trans ((if_neg (Int.not_lt.2 hhot)).trans (if_neg (by
    change ¬d.seqs.powerFailAt.isSome = true
    simp [hpower])))

theorem junctionSensorReadEffect_power_failing (hpower : d.seqs.powerFailAt ≠ none) :
    junctionSensorReadEffect die sensor celsius m d = (d.junctionRead die sensor celsius).thermtripped :=
  (if_neg (sensor_there hdie hsensor)).trans ((if_neg (Int.not_lt.2 hhot)).trans (if_pos (Option.isSome_iff_ne_none.2 hpower)))

end Junction

/-! ### MARGIN_MEASUREMENT (R540, Table 18.7) -/

/-- A level met for the first time is reported when the measurement lies beyond it. -/
theorem levelStep_first (beyond : Bool) (now : Nat) :
    levelStep beyond false none now = (beyond, beyond, if beyond then none else some now) := by
  cases beyond <;> rfl

/-- The entry that a first measurement of a margin makes, with the levels of Table 18.7. -/
def firstMargin (row unit : Nat) (value baseline : Int) (now : Nat) : Margin :=
  let b := marginBeyond row value baseline
  { row := row, unit := unit, value := value, warn := (marginLevels row baseline).1, action := (marginLevels row baseline).2
    warned := b.1, acted := b.2, warnClear := if b.1 then none else some now, actClear := if b.2 then none else some now, at_ := now }

theorem measured_first (row unit : Nat) (value baseline : Int) (now : Nat) :
    ({ row := row, unit := unit, value := 0, warn := 0, action := 0 } : Margin).measured value baseline now =
      (firstMargin row unit value baseline now, marginBeyond row value baseline) := by
  simp only [Margin.measured, levelStep_first]
  rfl

section Margin

variable {die row unit : Nat} {value baseline : Int} {m : Mem} {d : Dev}

theorem marginMeasurementEffect_unmeasurable (h : d.measurable die row = false) :
    marginMeasurementEffect die row unit value baseline m d = d := if_pos h

/-- The device with the entry of a first measurement. -/
def Dev.marginKept (d : Dev) (die row unit : Nat) (value baseline : Int) : Dev :=
  d.onDie die fun y => { y with margins := y.margins ++ [firstMargin row unit value baseline d.now] }

/-- A die without an entry of a margin gets one at the end of its list. -/
theorem onDie_margins_new {same : Margin → Bool} (hnone : ∀ x ∈ (d.die die).margins, ¬same x = true) (x : Margin) :
    (d.onDie die fun y => { y with margins := if y.margins.any same then updWhere y.margins same fun _ => x else y.margins ++ [x] }) =
      d.onDie die fun y => { y with margins := y.margins ++ [x] } := by
  have hany : ¬(d.die die).margins.any same = true := by
    rw [List.any_eq_true]
    exact fun ⟨x, hx, he⟩ => hnone x hx he
  exact onDie_congr (congrArg (fun l => { d.die die with margins := l }) (if_neg hany))

/-- A margin other than a regulator's measured for the first time: kept, and each level it lies beyond reported. -/
theorem marginMeasurementEffect_first (h : d.measurable die row = true) (hrow : row ≠ 0)
    (hnew : ∀ x ∈ (d.die die).margins, x.row ≠ row ∨ x.unit ≠ unit) :
    let b := marginBeyond row value baseline
    let u : UnitRef := { kind := marginKind row, die := die }
    let d1 := d.marginKept die row unit value baseline
    let d2 := if b.1 then d1.reportAt 1 (marginStatus row) u (BitVec.ofNat 64 unit) false else d1
    marginMeasurementEffect die row unit value baseline m d =
      if b.2 then (d2.marginAction die row unit).report (marginStatus row) u (BitVec.ofNat 64 unit) else d2 := by
  have hnone : ∀ x ∈ (d.die die).margins, ¬(x.row == row && x.unit == unit) = true := by
    intro x hx he
    rw [Bool.and_eq_true, beq_iff_eq, beq_iff_eq] at he
    exact (hnew x hx).elim (fun h => h he.1) fun h => h he.2
  have hfind : (d.die die).margins.find? (fun x => x.row == row && x.unit == unit) = none := List.find?_eq_none.2 hnone
  simp only [marginMeasurementEffect, h, Bool.true_eq_false, if_false, hfind, Option.getD_none, measured_first, onDie_margins_new hnone, hrow]
  rfl

end Margin

/-! ### CAP_UNMET (R564) -/

section Cap

variable {m : Mem} {d : Dev}

theorem capUnmetEffect_reported (hmhz : d.pwr.sortMhz = 800) (hfirst : d.pwr.unmetReported = false) :
    capUnmetEffect m d = ({ d with pwr := { d.pwr with unmetReported := true } } : Dev).report St.RSTP_CAP_UNMET { kind := 0x12, die := 0 } :=
  if_pos ⟨hmhz, hfirst⟩

theorem capUnmetEffect_not_reported (h : d.pwr.sortMhz ≠ 800 ∨ d.pwr.unmetReported = true) : capUnmetEffect m d = d :=
  if_neg fun hgo => h.elim (fun hmhz => hmhz hgo.1) fun hdone => Bool.eq_false_iff.1 hgo.2 hdone

end Cap

/-! ### DUMP_COMPLETE (R541, R638) -/

section Dump

variable {m : Mem} {d : Dev}

theorem dumpCompleteEffect_not_due (h : d.seqs.fatalAt = none ∨ d.seqs.dumpAt ≠ none ∨ d.seqs.powerFailAt ≠ none) :
    dumpCompleteEffect m d = d :=
  if_pos (h.imp Option.isNone_iff_eq_none.2 (Or.imp Option.isSome_iff_ne_none.2 Option.isSome_iff_ne_none.2))

variable (hfatal : d.seqs.fatalAt ≠ none) (hnone : d.seqs.dumpAt = none) (hpower : d.seqs.powerFailAt = none)
include hfatal hnone hpower

theorem dump_due : ¬(d.seqs.fatalAt.isNone = true ∨ d.seqs.dumpAt.isSome = true ∨ d.seqs.powerFailAt.isSome = true) := by
  simp [hfatal, hnone, hpower]

theorem dumpCompleteEffect_second (hnewer : d.nor.newerDump = some 0) : dumpCompleteEffect m d = { d with
    nor := { d.nor with dump1 := some d.dumpBytes, dumpSeq := d.nor.dumpSeq + 1 }
    seqs := { d.seqs with dumpAt := some d.now } } := by
  simp only [dumpCompleteEffect, if_neg (dump_due hfatal hnone hpower), if_pos hnewer]

theorem dumpCompleteEffect_first (hnewer : d.nor.newerDump ≠ some 0) : dumpCompleteEffect m d = { d with
    nor := { d.nor with dump0 := some d.dumpBytes, dumpSeq := d.nor.dumpSeq + 1 }
    seqs := { d.seqs with dumpAt := some d.now } } := by
  simp only [dumpCompleteEffect, if_neg (dump_due hfatal hnone hpower), if_neg hnewer]

end Dump

/-! ### The statement -/

/-- Settles O53: each event by the branch of its effect that the clause's conditions select. -/
theorem marginsAndDumps : Obligations.MarginsAndDumps := by
  unfold Obligations.MarginsAndDumps
  refine ⟨fun die sensor celsius s hdie hsensor => ⟨fun hcool => ?_, fun hhot => ⟨fun hpower => ?_, fun hpower => ?_⟩⟩,
    fun die row unit value baseline s => ⟨fun h => ?_, fun h hrow hnew => ⟨fun hwarn hact => ?_, fun hwarn hact => ?_, fun hwarn hact => ?_⟩⟩,
    fun s => ⟨fun hmhz hfirst => ?_, fun h => ?_⟩,
    fun s => ⟨fun h => ?_, fun hfatal hnone hpower => ⟨fun hnewer => ?_, fun hnewer => ?_⟩⟩⟩
  · exact exec_of_effect rfl (junctionSensorReadEffect_cool hdie hsensor hcool)
  · exact exec_of_effect rfl (junctionSensorReadEffect_hot hdie hsensor hhot hpower)
  · exact exec_of_effect rfl (junctionSensorReadEffect_power_failing hdie hsensor hhot hpower)
  · exact exec_of_effect rfl (marginMeasurementEffect_unmeasurable h)
  · exact exec_of_effect rfl ((marginMeasurementEffect_first h hrow hnew).trans
      ((if_neg (Bool.eq_false_iff.1 hact)).trans (if_neg (Bool.eq_false_iff.1 hwarn))))
  · exact exec_of_effect rfl ((marginMeasurementEffect_first h hrow hnew).trans
      ((if_neg (Bool.eq_false_iff.1 hact)).trans (if_pos hwarn)))
  · exact exec_of_effect rfl ((marginMeasurementEffect_first h hrow hnew).trans
      ((if_pos hact).trans (congrArg (fun e : Dev => (e.marginAction die row unit).report _ _ _) (if_pos hwarn))))
  · exact exec_of_effect rfl (capUnmetEffect_reported hmhz hfirst)
  · exact exec_of_effect rfl (capUnmetEffect_not_reported h)
  · exact exec_of_effect rfl (dumpCompleteEffect_not_due h)
  · exact exec_of_effect rfl (dumpCompleteEffect_second hfatal hnone hpower hnewer)
  · exact exec_of_effect rfl (dumpCompleteEffect_first hfatal hnone hpower hnewer)

end Sys2Proof.Machine
end

section
/-! PROOFS. Dies in service after a change of a die that leaves its safe state and its retirement (R530, R531). -/

namespace Sys2Proof.Machine

open Sys2Proof

section Up

variable {d : Dev} {i : Nat} {f : Die → Die} (hf : ∀ x, (f x).safe = x.safe ∧ (f x).retired = x.retired)
include hf

theorem onDie_dieUp (j : Nat) : (d.onDie i f).dieUp j = d.dieUp j := by
  simp only [Dev.dieUp, Dev.onDie_die_view d i j f Die.safe fun x => (hf x).1, Dev.onDie_die_view d i j f Die.retired fun x => (hf x).2]

theorem onDie_lbxRuns (k : Nat) : (d.onDie i f).lbxRuns k = d.lbxRuns k := by
  rw [Dev.lbxRuns, onDie_dieUp hf]
  rfl

end Up

@[simp] theorem setDomain_dieUp (d : Dev) (die dom : Nat) (on : Bool) (j : Nat) : (d.setDomain die dom on).dieUp j = d.dieUp j := by
  rw [Dev.setDomain, onDie_dieUp]
  exact fun _ => ⟨rfl, rfl⟩

end Sys2Proof.Machine
end

section
/-! PROOFS. Letterbox doorbells and the interrupt delay (R467, R468, R470, R471, R473, R482). -/

namespace Sys2Proof.Machine

open Sys2Proof

/-! ### A queue read back -/

theorem onQueue_queue_self {d : Dev} {q : Nat} {x : Queue} {f : Queue → Queue} (hx : d.queue q = some x) (hf : ∀ x, (f x).number = x.number) :
    (d.onQueue q f).queue q = some (f x) := by
  have hfind : (d.onQueue q f).queue q = (d.queue q).map f := find_updWhere _ _ _ fun y hy => by simpa only [hf] using hy
  rw [hfind, hx, Option.map_some]

/-- What no change of the others turns into what is looked for is found as before. -/
theorem find_updWhere_other {α : Type} (l : List α) {k k' : α → Bool} {f : α → α}
    (h : ∀ x, k x = true → k' x = false ∧ k' (f x) = false) : (updWhere l k f).find? k' = l.find? k' := by
  induction l with
  | nil => rfl
  | cons x xs ih =>
    have hcons : updWhere (x :: xs) k f = (if k x then f x else x) :: updWhere xs k f := rfl
    rw [hcons]
    split
    next hk =>
      obtain ⟨hx, hfx⟩ := h x hk
      rw [List.find?_cons_of_neg (Bool.eq_false_iff.1 hx), List.find?_cons_of_neg (Bool.eq_false_iff.1 hfx), ih]
    · rw [List.find?_cons, List.find?_cons, ih]

theorem onQueue_queue_other {d : Dev} {q r : Nat} {f : Queue → Queue} (hne : r ≠ q) (hf : ∀ x, (f x).number = x.number) :
    (d.onQueue r f).queue q = d.queue q :=
  find_updWhere_other _ fun x hx => by
    have hr : x.number = r := beq_iff_eq.1 hx
    simp only [hf, hr, beq_eq_false_iff_ne]
    exact ⟨hne, hne⟩

/-! ### Changes outside the letterbox -/

/-- A change that leaves the queues and the pins, and every letterbox unit serving as it did. -/
structure Dev.LbxKept (d e : Dev) : Prop where
  lbx : e.lbx = d.lbx
  pins : e.pins = d.pins
  runs : ∀ k, e.lbxRuns k = d.lbxRuns k

namespace Dev.LbxKept

theorem refl (d : Dev) : d.LbxKept d := ⟨rfl, rfl, fun _ => rfl⟩

theorem queue {d e : Dev} (h : d.LbxKept e) (q : Nat) : e.queue q = d.queue q := by rw [Dev.queue, h.lbx, Dev.queue]

theorem onDie (d : Dev) (i : Nat) {f : Die → Die} (hf : ∀ x, (f x).safe = x.safe ∧ (f x).retired = x.retired) : d.LbxKept (d.onDie i f) :=
  ⟨rfl, rfl, onDie_lbxRuns hf⟩

theorem lbxCount (d : Dev) (x : Queue) (f : DieCtrs → DieCtrs) : d.LbxKept (d.lbxCount x f) := onDie d _ fun _ => ⟨rfl, rfl⟩

theorem hostPut (d : Dev) (port a : Nat) (b : Bytes) : d.LbxKept (d.hostPut port a b) := ⟨rfl, rfl, fun _ => rfl⟩

theorem dramPlant (x : Die) (off len : Nat) : (x.dramPlant off len).safe = x.safe ∧ (x.dramPlant off len).retired = x.retired := by
  unfold Die.dramPlant
  split <;> exact ⟨rfl, rfl⟩

theorem dramWrite (d : Dev) (a : Nat) (b : Bytes) : d.LbxKept (d.dramWrite a b) := by
  unfold Dev.dramWrite
  split
  · exact refl d
  · exact ⟨rfl, rfl, onDie_lbxRuns fun x => dramPlant x _ _⟩

end Dev.LbxKept

/-! ### Write-backs and the entry cache (R467, R468) -/

/-- A write-back changes of the queues only whether its own queue owes one. -/
theorem lbxWriteback_cases (d : Dev) (q : Nat) :
    d.lbxWriteback q = d ∨ ∃ e b, d.LbxKept e ∧ d.lbxWriteback q = e.onQueue q fun x => { x with stale := b } := by
  unfold Dev.lbxWriteback
  split
  · exact .inl rfl
  · split
    · exact .inl rfl
    · split
      · exact .inr ⟨d, true, .refl d, rfl⟩
      · split
        · exact .inr ⟨_, true, .lbxCount d _ _, rfl⟩
        · exact .inr ⟨_, false, .hostPut d _ _ _, rfl⟩

section Writeback

variable {d : Dev} {q : Nat}

theorem lbxWriteback_pins : (d.lbxWriteback q).pins = d.pins := by
  obtain h | ⟨e, b, hkept, h⟩ := lbxWriteback_cases d q
  · rw [h]
  · rw [h]
    exact hkept.pins

theorem lbxWriteback_lbxRuns (k : Nat) : (d.lbxWriteback q).lbxRuns k = d.lbxRuns k := by
  obtain h | ⟨e, b, hkept, h⟩ := lbxWriteback_cases d q
  · rw [h]
  · rw [h]
    exact hkept.runs k

theorem lbxWriteback_queue_self {x : Queue} (hx : d.queue q = some x) : ∃ b, (d.lbxWriteback q).queue q = some { x with stale := b } := by
  obtain h | ⟨e, b, hkept, h⟩ := lbxWriteback_cases d q
  · exact ⟨x.stale, h.symm ▸ hx⟩
  · exact ⟨b, h.symm ▸ onQueue_queue_self ((hkept.queue q).trans hx) fun _ => rfl⟩

theorem lbxWriteback_queue_other {r : Nat} (hne : r ≠ q) : (d.lbxWriteback r).queue q = d.queue q := by
  obtain h | ⟨e, b, hkept, h⟩ := lbxWriteback_cases d r
  · rw [h]
  · rw [h]
    refine (onQueue_queue_other hne ?_).trans (hkept.queue q)
    exact fun _ => rfl

end Writeback

section Touch

variable (d : Dev) (x : Queue)

/-- The device with another order of its entry cache. -/
def Dev.withCache (d : Dev) (c : List Nat) : Dev := { d with lbx := { d.lbx with cache := c } }

/-- A doorbell or completion reorders the cache; a miss counts, and evicts at most the entry of another queue that was in it. -/
theorem lbxTouch_cases : ∃ e c, d.LbxKept e ∧
    (d.lbxTouch x = e ∨ d.lbxTouch x = e.withCache c ∨ ∃ old ≠ x.number, d.lbxTouch x = (e.withCache c).lbxWriteback old) := by
  unfold Dev.lbxTouch
  dsimp only
  split
  · exact ⟨d, _, .refl d, .inr (.inl rfl)⟩
  next hmiss =>
    split
    · exact ⟨_, _, .lbxCount d x _, .inr (.inl rfl)⟩
    · split
      next old hold =>
        have hcached : old ∈ d.lbx.cache := List.mem_reverse.1 (List.mem_of_find?_eq_some hold)
        exact ⟨_, _, .lbxCount d x _, .inr (.inr ⟨old, fun h => hmiss (List.contains_iff_mem.2 (h ▸ hcached)), rfl⟩)⟩
      · exact ⟨_, [], .lbxCount d x _, .inl rfl⟩

theorem lbxTouch_lbxRuns (k : Nat) : (d.lbxTouch x).lbxRuns k = d.lbxRuns k := by
  obtain ⟨e, c, hkept, h | h | ⟨old, -, h⟩⟩ := lbxTouch_cases d x
  · rw [h, hkept.runs]
  · rw [h]
    exact hkept.runs k
  · rw [h, lbxWriteback_lbxRuns]
    exact hkept.runs k

theorem lbxTouch_queue : (d.lbxTouch x).queue x.number = d.queue x.number := by
  obtain ⟨e, c, hkept, h | h | ⟨old, hne, h⟩⟩ := lbxTouch_cases d x
  · rw [h, hkept.queue]
  · rw [h]
    exact hkept.queue _
  · rw [h, lbxWriteback_queue_other hne]
    exact hkept.queue _

end Touch

/-! ### DOORBELL_WRITE (R470, R471, R482) -/

theorem lbxFetch_stopped {d : Dev} {q : Nat} {x : Queue} {m : Mem} (hx : d.queue q = some x) (hstop : x.fetches = false) (n : Nat) :
    Dev.lbxFetch m q n d = d := by
  cases n with
  | zero => rfl
  | succ n => simp only [Dev.lbxFetch, hx, hstop, Bool.false_and, Bool.false_eq_true, if_false]

section Apply

variable {d : Dev} {q : Nat} {x : Queue} {m : Mem} (hstate : x.state = .running) (hruns : d.lbxRuns x.port = true)
include hstate hruns

theorem queue_serves : ¬(x.state ≠ .running ∨ d.lbxRuns x.port = false) := by simp [hstate, hruns]

variable (hx : d.queue q = some x)
include hx

/-- A doorbell that moves neither head fetches nothing and releases nothing. -/
theorem lbxApply_unmoved (hsq : x.sqTail = x.sqHead) (hcq : x.newCqHead = x.cqHead) (hsize : x.sqHead < x.sqSize)
    (hsize' : x.cqHead < x.cqSize) : Dev.lbxApply m d q = d.onQueue q fun y => { y with cqHead := y.newCqHead } := by
  have hadv : (x.newCqHead + x.cqSize - x.cqHead) % x.cqSize = 0 := by rw [hcq, Nat.add_sub_cancel_left, Nat.mod_self]
  have hvalid : ¬(x.sqSize ≤ x.sqTail ∨ x.cqSize ≤ x.newCqHead ∨ x.unreleased < 0) := by omega
  have hqueue : (d.onQueue q fun y => { y with cqHead := y.newCqHead }).queue q = some { x with cqHead := x.newCqHead } :=
    onQueue_queue_self hx fun _ => rfl
  have hstop : ({ x with cqHead := x.newCqHead } : Queue).fetches = false := by
    have hempty : (x.sqHead != ({ x with cqHead := x.newCqHead } : Queue).sqTail) = false := bne_eq_false_iff_eq.2 hsq.symm
    simp only [Queue.fetches, hempty, Bool.and_false, Bool.false_and]
  simp only [Dev.lbxApply, hx, if_neg (queue_serves hstate hruns), hadv, if_neg hvalid, Nat.sub_zero]
  exact lbxFetch_stopped hqueue hstop _

theorem lbxApply_freezes (hsq : x.sqSize ≤ x.sqTail) : Dev.lbxApply m d q = d.lbxFreeze q { status := St.LBX_DOORBELL, index := 0xFFFF } := by
  simp only [Dev.lbxApply, hx, if_neg (queue_serves hstate hruns), if_pos (Or.inl hsq : x.sqSize ≤ x.sqTail ∨ _)]

end Apply

section Doorbell

variable {port k : Nat} {value : BitVec 64} {m : Mem} {d : Dev} (htrained : d.pins.trained.getD port false = true)
include htrained

/-- A doorbell word of a queue of a port that serves: the queue acts on its new value. -/
theorem doorbellWriteEffect_queue {q : Nat} {x : Queue} (hx : d.queue q = some x) (hport : x.port = k) (hruns : d.lbxRuns k = true)
    (hblock : doorbellPort (Config.doorbellBase k + 8 * q) = some k) :
    doorbellWriteEffect port (Config.doorbellBase k + 8 * q) 8 value m d = Dev.lbxApply m
      (((d.dramWrite (Config.doorbellBase k + 8 * q) (le 8 value.toNat)).onQueue q fun x => { x with doorbell := value }).lbxTouch x) q := by
  have hqueue : (d.dramWrite (Config.doorbellBase k + 8 * q) (le 8 value.toNat)).queue q = some x :=
    ((Dev.LbxKept.dramWrite d _ _).queue q).trans hx
  have haligned : ¬(8 ≠ 8 ∨ (Config.doorbellBase k + 8 * q - Config.doorbellBase k) % 8 ≠ 0) := by omega
  have hnumber : (Config.doorbellBase k + 8 * q - Config.doorbellBase k) / 8 = q := by omega
  have hserves : ¬(x.port ≠ k ∨ (d.dramWrite (Config.doorbellBase k + 8 * q) (le 8 value.toNat)).lbxRuns k = false) := by
    rw [(Dev.LbxKept.dramWrite d _ _).runs]
    simp [hport, hruns]
  simp only [doorbellWriteEffect, hblock, htrained, Bool.true_eq_false, if_neg haligned, hnumber, hqueue, if_neg hserves, if_false]

theorem doorbellWriteEffect_ignored {size : Nat} (hsize : size ≠ 8) (hblock : doorbellPort (Config.doorbellBase k) = some k) :
    doorbellWriteEffect port (Config.doorbellBase k) size value m d =
      (d.dramWrite (Config.doorbellBase k) (le size value.toNat)).onCtrs (2 * k) fun c =>
        { c with lbxDoorbellIgnored := c.lbxDoorbellIgnored + 1 } := by
  simp only [doorbellWriteEffect, hblock, htrained, Bool.true_eq_false, if_false, if_pos (Or.inl hsize : size ≠ 8 ∨ _)]

end Doorbell

/-! ### INT_DELAY_EXPIRY (R473) -/

section Interrupt

variable {q : Nat} {x : Queue} {m : Mem} {d : Dev} (hx : d.queue q = some x) (henabled : x.intEnabled = true)
include hx henabled

theorem intDelayExpiryEffect_due (hcount : 1 ≤ x.unsignalled) :
    intDelayExpiryEffect q m d = (d.until (x.unsignalledAt + x.intDelay * 1000)).lbxInterrupt q := by
  have hdue : ¬(x.unsignalled = 0 ∨ x.intEnabled = false) := by simp [henabled, Nat.one_le_iff_ne_zero.1 hcount]
  simp only [intDelayExpiryEffect, hx, if_neg hdue]

variable (hruns : d.lbxRuns x.port = true)
include hruns

theorem lbxInterrupt_sent :
    d.lbxInterrupt q = ((d.onQueue q fun x => { x with unsignalled := 0 }).lbxWriteback q).msix x.port x.vector := by
  have hsends : x.intEnabled = true ∧ (d.onQueue q fun x => { x with unsignalled := 0 }).lbxRuns x.port = true := ⟨henabled, hruns⟩
  simp only [Dev.lbxInterrupt, hx, if_pos hsends]

theorem lbxInterrupt_msix : (d.lbxInterrupt q).pins.msix = d.pins.msix ++ [(x.port, x.vector)] := by
  rw [lbxInterrupt_sent hx henabled hruns, Dev.msix]
  dsimp only
  rw [lbxWriteback_pins]
  rfl

theorem lbxInterrupt_queue : ∃ b, (d.lbxInterrupt q).queue q = some { x with unsignalled := 0, stale := b } := by
  have hcleared : (d.onQueue q fun x => { x with unsignalled := 0 }).queue q = some { x with unsignalled := 0 } :=
    onQueue_queue_self hx fun _ => rfl
  rw [lbxInterrupt_sent hx henabled hruns]
  exact lbxWriteback_queue_self hcleared

end Interrupt

/-! ### The statement -/

/-- Settles O35: a doorbell by what its queue makes of the new value, an expiry by the message it sends. -/
theorem doorbellsAndInterrupts : Obligations.DoorbellsAndInterrupts := by
  unfold Obligations.DoorbellsAndInterrupts
  refine ⟨fun port k q value x s hk hq hx hport htrained hruns hstate hblock => ?_,
    fun port k size value s hk htrained hsize hblock => ?_, fun q x s hx hcount henabled => ⟨?_, fun hruns => ?_⟩⟩
  · intro at_ d
    have hnumber : x.number = q := by simpa using List.find?_some hx
    have hqueue : d.queue q = some { x with doorbell := value } := by
      have htouched := lbxTouch_queue ((s.dev.dramWrite at_ (le 8 value.toNat)).onQueue q fun x => { x with doorbell := value }) x
      rw [hnumber] at htouched
      exact htouched.trans (onQueue_queue_self (((Dev.LbxKept.dramWrite s.dev _ _).queue q).trans hx) fun _ => rfl)
    have hserves : d.lbxRuns ({ x with doorbell := value } : Queue).port = true := by
      rw [lbxTouch_lbxRuns]
      exact ((Dev.LbxKept.dramWrite s.dev _ _).runs _).trans (hport.symm ▸ hruns)
    have hrun := doorbellWriteEffect_queue (value := value) (m := s.mem) htrained hx hport hruns hblock
    refine ⟨fun hsq hcq hsize hsize' => exec_of_effect rfl (hrun.trans ?_), fun hsq => exec_of_effect rfl (hrun.trans ?_)⟩
    · exact lbxApply_unmoved (x := { x with doorbell := value }) hstate hserves hqueue hsq hcq hsize hsize'
    · exact lbxApply_freezes (x := { x with doorbell := value }) hstate hserves hqueue hsq
  · exact exec_of_effect rfl (doorbellWriteEffect_ignored htrained hsize hblock)
  · exact exec_of_effect rfl (intDelayExpiryEffect_due hx henabled hcount)
  · have hqueue : (s.dev.until (x.unsignalledAt + x.intDelay * 1000)).queue q = some x := hx
    obtain ⟨b, hleft⟩ := lbxInterrupt_queue hqueue henabled hruns
    exact ⟨_, exec_of_effect rfl (intDelayExpiryEffect_due hx henabled hcount), lbxInterrupt_msix hqueue henabled hruns,
      { x with unsignalled := 0, stale := b }, hleft, rfl, rfl, rfl⟩

end Sys2Proof.Machine
end

section
/-! PROOFS. Package-wide resets: what brings one about (R545, R549, R553, R554, R571, R618) and what it leaves (R55, R521, R522, R602). -/

namespace Sys2Proof.Machine

open Sys2Proof

/-! ### Reset sources (Table 19.1) -/

section Source

variable {m : Mem} {d : Dev}

theorem brownoutEffect_resets {rail : Nat} (h : rail = 0 ∨ (rail < 8 ∧ d.seqs.powerFailAt = none)) :
    brownoutEffect rail m d = d.packageReset 1 0 0 := by
  have hacts : ¬(8 ≤ rail ∨ (rail ≠ 0 ∧ d.seqs.powerFailAt.isSome)) := by
    obtain rfl | ⟨hrail, hnone⟩ := h
    · simp
    · simp [hnone, hrail]
  exact if_neg hacts

theorem softResetEffect_due {kind t : Nat} (hdue : d.seqs.softDue = some (kind, t)) (hnone : d.seqs.powerFailAt = none) :
    softResetEffect m d = (d.until t).flushStore.packageReset 3 kind 0 := by
  simp [softResetEffect, hdue, hnone]

theorem startTimeoutEffect_limit {t : Nat} (h : d.seqs.startEnds = some t) : startTimeoutEffect m d = (d.until t).packageReset 4 0 0x08 := by
  simp only [startTimeoutEffect, h]

theorem glitchRestartEffect_ended {t : Nat} (h : d.seqs.powerFailAt = some t) :
    glitchRestartEffect m d = (d.until (t + 10000000)).packageReset 4 0 0x0A := by
  simp only [glitchRestartEffect, h]

section Fatal

variable {t : Nat} (hfatal : d.seqs.fatalAt = some t) (hsafe : d.seqs.pkgSafe = true) (hauto : d.rst.autoRestart = true)
include hsafe hauto

theorem fatalRestart_acts : ¬(d.rst.autoRestart = false ∨ d.seqs.pkgSafe = false) := by simp [hsafe, hauto]

include hfatal

theorem fatalRestartEffect_undumped (hdump : d.seqs.dumpAt = none) :
    fatalRestartEffect m d = (d.until (t + 5000000000)).packageReset 4 0 0 := by
  simp only [fatalRestartEffect, hfatal, hdump, if_neg (fatalRestart_acts hsafe hauto), second]

theorem fatalRestartEffect_dumped {x : Nat} (hdump : d.seqs.dumpAt = some x) :
    fatalRestartEffect m d = (d.until (min (x + 1000000000) (t + 5000000000))).packageReset 4 0 0 := by
  simp only [fatalRestartEffect, hfatal, hdump, if_neg (fatalRestart_acts hsafe hauto), second]

end Fatal

end Source

/-- Settles O8: each source by the cause its effect hands to the package-wide reset. -/
theorem resetSources : Obligations.ResetSources := by
  unfold Obligations.ResetSources
  refine ⟨fun _ => rfl, fun rail s h => exec_of_effect rfl (brownoutEffect_resets h), fun s => ⟨fun h => ?_, fun h => ?_⟩,
    fun kind t s hdue hnone => exec_of_effect rfl (softResetEffect_due hdue hnone),
    fun t s h => exec_of_effect rfl (startTimeoutEffect_limit h),
    fun t x s hfatal hsafe hauto => ⟨fun hdump => exec_of_effect rfl (fatalRestartEffect_undumped hfatal hsafe hauto hdump),
      fun hdump => exec_of_effect rfl (fatalRestartEffect_dumped hfatal hsafe hauto hdump)⟩,
    fun t s h => exec_of_effect rfl (glitchRestartEffect_ended h)⟩
  · exact exec_of_effect rfl (if_neg (by simp [h]))
  · exact exec_of_effect rfl (if_pos h)

/-! ### What stands after one -/

section Memory

variable {m : Mem}

theorem memWf_dram (h : memWf m = true) : cellsWf m.dram = true := by
  simp only [memWf, Bool.and_eq_true] at h
  exact h.1.1

/-- DRAM after a part of it is cleared, whatever part of the sorting frames is cleared with it. -/
theorem cellsGet_dram_cleared (h : memWf m = true) (a n b k x : Nat) :
    cellsGet ([⟨.dram, a, [], n⟩, ⟨.frame, b, [], k⟩].foldl memApply m).dram x = if a ≤ x ∧ x < a + n then 0 else cellsGet m.dram x :=
  cellsGet_clear a n x (memWf_dram h)

end Memory

section Jobs

variable (j : Job)

theorem afterReset_handle : j.afterReset.handle = j.handle := by
  unfold Job.afterReset
  split <;> rfl

theorem afterReset_ranks : j.afterReset.ranks = [] := by
  unfold Job.afterReset
  split <;> rfl

theorem afterReset_state : j.afterReset.state = if j.state = .sealed_ then .sealed_ else .lost := by
  unfold Job.afterReset
  split
  next h => exact h
  · rfl

theorem afterReset_sealed_iff : j.afterReset.state = .sealed_ ↔ j.state = .sealed_ := by
  rw [afterReset_state]
  split <;> simp [*]

end Jobs

section Collectors

variable {d : Dev} {source kind status i : Nat}

theorem packageReset_fc (hi : i < d.dies.length) : (d.packageReset source kind status).fc i = (d.fc i).afterReset (source == 1) := by
  have hdies : (d.packageReset source kind status).dies = d.dies.map fun x => x.afterReset (source == 1) := rfl
  have hdie : (d.packageReset source kind status).die i = (d.die i).afterReset (source == 1) := by
    simp only [Dev.die, hdies, List.getD_eq_getElem?_getD, List.getElem?_map, List.getElem?_eq_getElem hi, Option.map_some, Option.getD_some]
  rw [Dev.fc, hdie]
  rfl

theorem collector_afterReset_warm (c : Collector) : (c.afterReset false).seqNext = c.seqNext ∧ (c.afterReset false).alertAcked = c.alertAcked ∧
    (c.afterReset false).first = c.first ∧ (c.afterReset false).severities = c.severities := ⟨rfl, rfl, rfl, rfl⟩

theorem collector_afterReset_cold (c : Collector) : c.afterReset true = {} := rfl

end Collectors

/-- Settles O9: jobs and collectors by what a reset leaves of each, DRAM by the one write that clears it, the rest by its field. -/
theorem packageResetLeaves : Obligations.PackageResetLeaves := by
  unfold Obligations.PackageResetLeaves
  intro source kind status s ⟨hwf, hdma⟩ t
  have hjobs : t.dev.jobs = s.dev.jobs.map Job.afterReset := rfl
  have hwrites : t.mem = [⟨.dram, 0, [], 2 ^ 39⟩, ⟨.frame, 0, [], 72 * 2 ^ 25⟩].foldl memApply s.mem := by
    have hall : (s.dev.packageReset source kind status).dma = s.dev.dma ++ [⟨.dram, 0, [], 2 ^ 39⟩, ⟨.frame, 0, [], 72 * 2 ^ 25⟩] := rfl
    have hmem : t.mem = (s.dev.packageReset source kind status).dma.foldl memApply s.mem := rfl
    rw [hmem, hall, hdma, List.nil_append]
  refine ⟨rfl, rfl, rfl, fun a ha => ?_, fun j hj => ?_, ?_, fun i hi => ?_, rfl, rfl, rfl, rfl, rfl, fun hsource i hi => ?_,
    fun hsource i hi => ?_⟩
  · rw [hwrites, cellsGet_dram_cleared hwf, if_pos (by omega)]
  · rw [hjobs] at hj
    obtain ⟨k, -, rfl⟩ := List.mem_map.1 hj
    refine ⟨?_, afterReset_ranks k⟩
    rw [afterReset_state]
    split
    · exact .inl rfl
    · exact .inr rfl
  · rw [hjobs, List.map_map]
    exact List.map_congr_left fun j _ => afterReset_handle j
  · simp only [hjobs, List.getElem?_map, List.getElem?_eq_getElem hi, Option.map_some, Option.some_inj, afterReset_sealed_iff]
  · have hfc : t.dev.fc i = (s.dev.fc i).afterReset false := by
      rw [← beq_eq_false_iff_ne.2 hsource]
      exact packageReset_fc (kind := kind) (status := status) hi
    rw [hfc]
    exact collector_afterReset_warm _
  · have hfc : t.dev.fc i = {} := by
      subst hsource
      exact packageReset_fc (kind := kind) (status := status) hi
    rw [hfc]
    exact ⟨rfl, rfl, rfl, rfl⟩

end Sys2Proof.Machine
end

section
/-! PROOFS. Start-up from step 1 to normal service, and the power-fail sequence's begin (R434, R550, R551, R552, R570, R602). -/

namespace Sys2Proof.Machine

open Sys2Proof

/-! ### What the steps of a start leave alone -/

/-- The start state and both images stand. -/
structure Dev.InStart (d e : Dev) : Prop where
  start : e.start = d.start
  imageA : e.nor.imageA = d.nor.imageA
  imageB : e.nor.imageB = d.nor.imageB

namespace Dev.InStart

theorem refl (d : Dev) : d.InStart d := ⟨rfl, rfl, rfl⟩

theorem trans {a b c : Dev} (h : a.InStart b) (k : b.InStart c) : a.InStart c :=
  ⟨k.start.trans h.start, k.imageA.trans h.imageA, k.imageB.trans h.imageB⟩

theorem noImage {d e : Dev} (h : d.InStart e) : e.noImage = d.noImage := by rw [Dev.noImage, h.imageA, h.imageB, Dev.noImage]

theorem ite {d a b : Dev} {c : Prop} [Decidable c] (ha : d.InStart a) (hb : d.InStart b) : d.InStart (if c then a else b) := by
  split
  · exact ha
  · exact hb

theorem foldl {α : Type} {f : Dev → α → Dev} (hf : ∀ d x, Dev.InStart d (f d x)) (l : List α) (d : Dev) : d.InStart (l.foldl f d) := by
  induction l generalizing d with
  | nil => exact .refl d
  | cons x xs ih => exact (hf d x).trans (ih _)

theorem reportedTo {d e : Dev} (h : d.ReportedTo e) : d.InStart e := by
  obtain ⟨_, _, _, _, rfl⟩ := h
  exact ⟨rfl, rfl, rfl⟩

theorem report (d : Dev) (st : Status) (u : UnitRef) (x : BitVec 64) (i : Bool) : d.InStart (d.report st u x i) :=
  .reportedTo (.report d st u x i)

theorem reportReset (d : Dev) (st : Status) : d.InStart (d.reportReset st) := by
  unfold Dev.reportReset
  split
  · exact ⟨rfl, rfl, rfl⟩
  · exact report _ _ _ _ _

theorem setDomain (d : Dev) (i dom : Nat) (on : Bool) : d.InStart (d.setDomain i dom on) := ⟨rfl, rfl, rfl⟩

theorem setBank (d : Dev) (i : Nat) (b : Bank) (env : Env) : d.InStart { d with nor := d.nor.setBank i b, env := env } := by
  unfold Nor.setBank
  split <;> exact ⟨rfl, rfl, rfl⟩

theorem programBank (d : Dev) (i : Nat) (seq : BitVec 32) (c : Cfg) : d.InStart (d.programBank i seq c).1 := by
  unfold Dev.programBank
  split <;> exact setBank _ _ _ _

theorem cfgMirror (d : Dev) : d.InStart d.cfgMirror := by
  have hbank := programBank d (1 - d.nor.inUse) ((d.nor.bank d.nor.inUse).sequence - 1) (d.nor.bank d.nor.inUse).cfg
  unfold Dev.cfgMirror
  exact ite (refl d) (ite hbank (hbank.trans (reportReset _ _)))

theorem withoutUnit (d : Dev) (u : UnitRef) : d.InStart (d.withoutUnit u) := by
  unfold Dev.withoutUnit
  split_ifs <;> exact ⟨rfl, rfl, rfl⟩

end Dev.InStart

/-! ### Steps 1 to 6 (Table 19.2) -/

section Six

variable (d : Dev)

/-- Step 1 with the backup supply kept only sets when the start must have ended. -/
theorem startBackup_kept (h : d.env.backupLost = false) :
    d.startBackup = { d with seqs := { d.seqs with startEnds := some (d.now + d.bkp.startLimit.toNat * second) } } := by
  simp only [Dev.startBackup, h, Bool.false_eq_true, if_false]

theorem startCount_inStart (recovery : Bool) : d.InStart (d.startCount recovery) := by
  unfold Dev.startCount
  dsimp only
  split
  · exact .trans (.reportReset d St.RSTP_CFG_NONE) ⟨rfl, rfl, rfl⟩
  · exact ⟨rfl, rfl, rfl⟩

theorem startLinks_inStart (recovery : Bool) : d.InStart (d.startLinks recovery) := by
  unfold Dev.startLinks
  dsimp only
  generalize hup : List.foldl _ d _ = up
  have hdomains : d.InStart up := by
    rw [← hup]
    refine .foldl (fun e i => ?_) _ d
    split <;> exact ⟨rfl, rfl, rfl⟩
  exact ⟨hdomains.start, hdomains.imageA, hdomains.imageB⟩

theorem startImage_inStart : d.InStart d.startImage := by
  unfold Dev.startImage
  dsimp only
  split
  · exact ⟨rfl, rfl, rfl⟩
  · refine .trans ?_ (.cfgMirror _)
    split
    · exact ⟨rfl, rfl, rfl⟩
    · refine .trans (.trans ?_ (.reportReset _ St.RSTP_IMAGE_FALLBACK)) ⟨rfl, rfl, rfl⟩
      exact ⟨rfl, rfl, rfl⟩

theorem startRepairs_inStart : d.InStart d.startRepairs := by
  unfold Dev.startRepairs
  refine .trans ?_ (.foldl Dev.InStart.withoutUnit _ _)
  exact ⟨rfl, rfl, rfl⟩

theorem reportDeferred_inStart : d.InStart d.reportDeferred := by
  unfold Dev.reportDeferred
  refine .trans ?_ (.foldl (fun _ _ => .report _ _ _ _ _) _ _)
  exact ⟨rfl, rfl, rfl⟩

theorem startOpen_inStart : d.InStart d.startOpen := by
  unfold Dev.startOpen
  dsimp only
  refine .trans ?_ (.reportedTo (.drivePins _))
  split
  · exact ⟨rfl, rfl, rfl⟩
  · refine .trans ?_ (reportDeferred_inStart _)
    exact ⟨rfl, rfl, rfl⟩

/-- A start kept out of recovery leaves the state as it was at its step 6. -/
theorem startSix_start (hkept : d.env.backupLost = false) (hasked : d.startBackup.toRecovery = false) (himage : d.noImage = false) :
    d.startSix.start = d.start := by
  have hone : d.InStart d.startBackup := by
    rw [startBackup_kept d hkept]
    exact ⟨rfl, rfl, rfl⟩
  have hfour := hone.trans
    (((startCount_inStart _ false).trans (startLinks_inStart _ false)).trans (startImage_inStart _))
  have hopen (e : Dev) (t : Nat) : e.InStart (e.until t).startRepairs.startOpen :=
    .trans (b := e.until t) ⟨rfl, rfl, rfl⟩ ((startRepairs_inStart _).trans (startOpen_inStart _))
  simp only [Dev.startSix, hasked, hfour.noImage, himage, Bool.or_false, Bool.false_eq_true, if_false]
  exact (hfour.trans (hopen _ _)).start

theorem startSix_recovery (hasked : d.startBackup.toRecovery = true) :
    d.startSix.start = .recovery ∧ d.startSix.rst.recovery = true ∧ d.startSix.seqs.startEnds = none ∧
      ∃ up, d.startSix.pins.trained = [up, false, false, false] := by
  simp only [Dev.startSix, hasked, Bool.true_or, if_true, true_and]
  exact ⟨_, rfl⟩

end Six

section Asked

variable {d : Dev} (hkept : d.env.backupLost = false)
include hkept

theorem toRecovery_startBackup : d.startBackup.toRecovery = d.toRecovery := by
  rw [startBackup_kept d hkept]
  rfl

theorem startBackup_asked (h : d.bkp.recoveryReq = true ∨ d.bkp.recoveryAt ≤ d.bkp.failedStarts) : d.startBackup.toRecovery = true := by
  rw [toRecovery_startBackup hkept, Dev.toRecovery]
  obtain hreq | hcount := h
  · simp [hreq]
  · simp [hcount]

theorem startBackup_unasked (hreq : d.bkp.recoveryReq = false) (hcount : d.bkp.failedStarts < d.bkp.recoveryAt)
    (hbank : d.nor.selected.isSome = true) : d.startBackup.toRecovery = false := by
  rw [toRecovery_startBackup hkept, Dev.toRecovery, hreq, Option.isNone_eq_false_iff.2 hbank, decide_eq_false (BitVec.not_le.2 hcount)]
  rfl

end Asked

/-! ### Steps 7 to 9 -/

section Nine

variable (d : Dev)

theorem startClusters_inStart : d.InStart d.startClusters := by
  refine .foldl (fun e i => ?_) _ d
  split
  · exact .refl e
  · refine .trans (.foldl (fun x c => .setDomain x i (2 + c) true) _ e) (.setDomain _ i 13 true)

theorem startSleds_inStart : d.InStart d.startSleds := by
  refine .foldl (fun e k => ?_) _ d
  dsimp only
  split_ifs <;> exact ⟨rfl, rfl, rfl⟩

/-- Step 9 starts the store and then only reports. -/
theorem startStore_cases : ∃ e : Dev, e.start = d.start ∧ e.store.started = true ∧ e.ReportedTo d.startStore := by
  unfold Dev.startStore
  dsimp only
  generalize hopened : d.onStore _ = e
  refine ⟨e, by rw [← hopened]; rfl, by rw [← hopened]; rfl, ?_⟩
  split
  · exact .trans (.foldl (fun x _ => .report x _ _ _ _) _ e) (.report _ _ _ _ _)
  · exact .foldl (fun x _ => .report x _ _ _ _) _ e

theorem startStore_start : d.startStore.start = d.start := by
  obtain ⟨e, hstart, -, _, _, _, _, h⟩ := startStore_cases d
  rw [h]
  exact hstart

theorem startStore_started : d.startStore.store.started = true := by
  obtain ⟨e, -, hstarted, _, _, _, _, h⟩ := startStore_cases d
  rw [h]
  exact hstarted

/-- Steps 7 to 9, from the device of step 6 of a start begun at t0. -/
def Dev.startNine (t0 : Nat) : Dev := ((d.startTicks.startClusters.until (t0 + 2 * second)).startSleds).startStore

theorem startNine_start (t0 : Nat) : (d.startNine t0).start = d.start := by
  rw [Dev.startNine, startStore_start, (startSleds_inStart _).start, Dev.until_start, (startClusters_inStart _).start]
  rfl

theorem startNine_started (t0 : Nat) : (d.startNine t0).store.started = true := by rw [Dev.startNine, startStore_started]

end Nine

section Begun

variable {m : Mem} {d : Dev} (hstart : d.start = .starting) (hstep : d.seqs.step = 0) (hpower : d.seqs.powerFailAt = none)
include hstart hstep hpower

theorem startUp_begins : ¬(d.start ≠ .starting ∨ d.seqs.step ≠ 0 ∨ d.seqs.powerFailAt.isSome) := by simp [hstart, hstep, hpower]

theorem startUpEffect_recovery (h : d.startSix.start = .recovery) : startUpEffect m d = d.startSix := by
  simp only [startUpEffect, if_neg (startUp_begins hstart hstep hpower), if_pos h]

theorem startUpEffect_open (h : d.startSix.start ≠ .recovery) :
    startUpEffect m d = { d.startSix.startNine d.now with seqs := { (d.startSix.startNine d.now).seqs with step := 9 } } := by
  simp only [startUpEffect, if_neg (startUp_begins hstart hstep hpower), if_neg h, Dev.startNine]

end Begun

/-! ### PARTITION_READY, START_READY and POWER_FAIL -/

section Ready

variable {m : Mem} {d : Dev} (hstarted : d.store.started = true)
include hstarted

theorem partitionReadyEffect_whole {p : Nat} (hp : p < 8) (hready : (d.part p).ready = false) (hserved : (d.part p).unserved = false)
    (hup : d.dieUp (d.part p).die = true) (hbroken : (d.part p).broken = false) (hsec : ∀ y ∈ d.store.secures, partitionOf y.id ≠ p) :
    partitionReadyEffect p m d = d.onPart p fun y => { y with ready := true, broken := false, checkpointAt := d.now } := by
  have hacts : ¬(8 ≤ p ∨ d.store.started = false ∨ (d.part p).ready ∨ (d.part p).unserved ∨ d.dieUp (d.part p).die = false) := by
    simp [hp, hstarted, hready, hserved, hup]
  have hnone : (d.store.secures.filter fun y => partitionOf y.id == p) = [] :=
    List.filter_eq_nil_iff.2 fun y hy => by simpa using hsec y hy
  simp [partitionReadyEffect, if_neg hacts, hnone, hbroken]

variable (hstart : d.start = .starting) (hparts : ∀ x ∈ d.store.parts, x.ready = true ∨ x.unserved = true)
include hstart hparts

theorem start_reaches_ready : ¬(d.start ≠ .starting ∨ d.store.started = false ∨ (d.store.parts.any fun x => !x.ready && !x.unserved)) := by
  have hall : (d.store.parts.any fun x => !x.ready && !x.unserved) = false :=
    List.any_eq_false.2 fun x hx => by obtain h | h := hparts x hx <;> simp [h]
  simp [hstart, hstarted, hall]

variable {e : Dev} (he : e = ({ d with start := .ready, seqs := { d.seqs with step := 10 } } : Dev).journalCopies)
include he

theorem startReadyEffect_alone (hwait : e.seqs.startWaiters = []) : startReadyEffect m d = e := by
  simp only [startReadyEffect, if_neg (start_reaches_ready hstarted hstart hparts), ← he, if_pos hwait]

theorem startReadyEffect_waited {p : Nat} (hwait : e.seqs.startWaiters = [p]) :
    startReadyEffect m d = (({ e with seqs := { e.seqs with startWaiters := [] } } : Dev).beginService).answer p {} := by
  simp only [startReadyEffect, if_neg (start_reaches_ready hstarted hstart hparts), ← he, hwait, List.cons_ne_nil, if_false]
  rfl

end Ready

theorem powerFailEffect_begins {m : Mem} {d : Dev} (h : d.seqs.powerFailAt = none) : powerFailEffect m d =
    { d.flushStore.lostVolatile false with
      bkp := { d.bkp with powerFail := true, pfTime := d.bkpClock }
      seqs := { (d.flushStore.lostVolatile false).seqs with powerFailAt := some d.now } } :=
  if_neg (by simp [h])

/-! ### The statement -/

/-- Settles O10: a start by its six steps, which end in recovery mode or leave the state to the three that start the store. -/
theorem startSequence : Obligations.StartSequence := by
  unfold Obligations.StartSequence
  refine ⟨fun s hstart hstep hpower hkept hasked => ?_, fun s hstart hstep hpower hkept hreq hcount hbank himage => ?_,
    fun p s hp hstarted hready hserved hup hbroken hsec =>
      exec_of_effect rfl (partitionReadyEffect_whole hstarted hp hready hserved hup hbroken hsec),
    fun s hstart hstarted hparts => ?_,
    fun s hpower => ⟨_, exec_of_effect rfl (powerFailEffect_begins hpower), rfl, rfl, rfl⟩⟩
  · obtain ⟨hrecovery, hcause, hends, up, htrained⟩ := startSix_recovery s.dev (startBackup_asked hkept hasked)
    refine ⟨_, exec_of_effect rfl (startUpEffect_recovery hstart hstep hpower hrecovery), hrecovery, hcause, hends, fun k hk => ?_⟩
    rw [State.put, htrained]
    match k, hk with
    | 1, _ | 2, _ | 3, _ | _ + 4, _ => rfl
  · have hsix : s.dev.startSix.start = .starting :=
      (startSix_start s.dev hkept (startBackup_unasked hkept hreq hcount hbank) himage).trans hstart
    have hrun := startUpEffect_open (m := s.mem) hstart hstep hpower (by simp [hsix])
    have hnine := startNine_start s.dev.startSix s.dev.now
    have hstarted := startNine_started s.dev.startSix s.dev.now
    generalize s.dev.startSix.startNine s.dev.now = e at hrun hnine hstarted
    exact ⟨_, exec_of_effect rfl hrun, hnine.trans hsix, rfl, hstarted⟩
  · intro d
    exact ⟨fun hwait => exec_of_effect rfl (startReadyEffect_alone (e := d) hstarted hstart hparts rfl hwait),
      fun p hwait => exec_of_effect rfl (startReadyEffect_waited (e := d) hstarted hstart hparts rfl hwait)⟩

end Sys2Proof.Machine
end

section
/-! PROOFS. DIE reset, PORT reset and PERST_N's release (R545, R547, R548, R549, R611). -/

namespace Sys2Proof.Machine

open Sys2Proof

/-! ### DIE_RESET (R545, R547) -/

section DieReset

variable {m : Mem} {d : Dev} {die : Nat} (hdie : die < 8) (hsafe : (d.die die).safe = true) (hback : (d.die die).noRestart = false)
  (hused : (d.die die).retired = false) (hrestart : d.rst.dieRestart = true) (hpkg : d.seqs.pkgSafe = false) (hstep : 6 ≤ d.seqs.step)
include hdie hsafe hback hused hrestart hpkg hstep

/-- A DIE reset changes of the dies its own, and clears its stack and its sorting frames. -/
theorem dieResetEffect_restarts : (dieResetEffect die m d).dies = (d.onDie die fun x => x.restarted die d.now).dies ∧
    (dieResetEffect die m d).dma =
      d.dma ++ [⟨.dram, die * 2 ^ 36, [], 2 ^ 36⟩, ⟨.frame, frameKey die 0 0, [], 9 * 2 ^ 25⟩] := by
  have hacts : ¬(8 ≤ die ∨ (d.die die).safe = false ∨ (d.die die).noRestart ∨ (d.die die).retired ∨ d.rst.dieRestart = false ∨
      d.seqs.pkgSafe ∨ d.seqs.step < 6) := by
    simp [hdie, hsafe, hback, hused, hrestart, hpkg, hstep]
  simp only [dieResetEffect, if_neg hacts, Dev.drivePins]
  split_ifs <;> exact ⟨rfl, rfl⟩

end DieReset

/-! ### PORT_RESET (R548) -/

section PortReset

variable {d : Dev} {port : Nat} {m : Mem}

/-- The device with PERST_N of a port asserted: its dies' PCI domains are off, its pigeonholes reset, and it is not trained. -/
def Dev.perstLow (d : Dev) (port : Nat) : Dev :=
  (({ d with
      pins := { d.pins with perst := d.pins.perst.set port true, trained := d.pins.trained.set port false }
      pgh := d.pgh.zipIdx.map fun (p : Pgh × Nat) => if p.2 / 32 = port then p.1.portReset else p.1 } : Dev).setDomain
    (2 * port) 14 false).setDomain (2 * port + 1) 14 false

theorem lbxSettle_no_queues (h : d.lbx.queues = []) : Dev.lbxSettle m d = d := by
  rw [Dev.lbxSettle, h]
  rfl

theorem portResetEffect_no_queues (hport : port < 4) (h : d.lbx.queues = []) : portResetEffect port m d = d.perstLow port := by
  have hqueues : (d.perstLow port).lbx.queues = [] := h
  have hrun : portResetEffect port m d = Dev.lbxSettle m ((((d.perstLow port).lbx.queues.filter fun (q : Queue) => q.port == port).map
      fun (q : Queue) => q.number).foldl (fun (d : Dev) q => d.lbxResetBegin q 1 none) (d.perstLow port)) := if_neg (Nat.not_le.2 hport)
  rw [hrun, hqueues]
  exact lbxSettle_no_queues hqueues

theorem perstLow_portUp : (d.perstLow port).portUp port = false := by
  have hpins : (d.perstLow port).pins.trained = d.pins.trained.set port false := rfl
  rw [Dev.portUp, hpins, List.getD_eq_getElem?_getD, List.getElem?_set_self']
  cases d.pins.trained[port]? <;> simp

theorem perstLow_hole {p : Nat} (hp : p < d.pgh.length) :
    (d.perstLow port).hole p = if p / 32 = port then (d.hole p).portReset else d.hole p := by
  have hpgh : (d.perstLow port).pgh = d.pgh.zipIdx.map fun (p : Pgh × Nat) => if p.2 / 32 = port then p.1.portReset else p.1 := rfl
  simp only [Dev.hole, hpgh, List.getD_eq_getElem?_getD, List.getElem?_map, List.getElem?_zipIdx, List.getElem?_eq_getElem hp,
    Option.map_some, Option.getD_some, Nat.zero_add]

end PortReset

/-! ### PERST_N_HIGH (R549) -/

section Perst

variable {d : Dev} {port : Nat} {m : Mem}

/-- Switching domains moves no pin, and takes no die into or out of service. -/
theorem foldl_setDomain_kept (l : List Nat) (d : Dev) (dom : Nat) :
    (l.foldl (fun (d : Dev) i => d.setDomain i dom true) d).pins = d.pins ∧
      ∀ j, (l.foldl (fun (d : Dev) i => d.setDomain i dom true) d).dieUp j = d.dieUp j := by
  induction l generalizing d with
  | nil => exact ⟨rfl, fun _ => rfl⟩
  | cons i l ih =>
    obtain ⟨hpins, hup⟩ := ih (d.setDomain i dom true)
    exact ⟨hpins, fun j => (hup j).trans (setDomain_dieUp d i dom true j)⟩

theorem perstNHighEffect_trains (hport : port < 4) (hstep : 3 ≤ d.seqs.step) (hstart : d.start ≠ .recovery) (hup : d.dieUp (2 * port) = true) :
    (perstNHighEffect port m d).pins = { d.pins with perst := d.pins.perst.set port false, trained := d.pins.trained.set port true } := by
  have hacts : ¬(d.seqs.step < 3 ∨ (d.start = .recovery ∧ port ≠ 0)) := by simp [hstep, hstart]
  unfold perstNHighEffect
  rw [if_neg (Nat.not_le.2 hport)]
  dsimp only
  rw [if_neg hacts]
  generalize hon : List.foldl _ _ _ = e
  obtain ⟨hpins, hdies⟩ : e.pins = { d.pins with perst := d.pins.perst.set port false } ∧ ∀ j, e.dieUp j = d.dieUp j :=
    hon ▸ foldl_setDomain_kept _ _ 14
  simp only [hpins, hdies, hup]

theorem trained_portUp {e : Dev} (hport : port < 4) (hlen : d.pins.trained.length = 4)
    (htrained : e.pins.trained = d.pins.trained.set port true) : e.portUp port = true := by
  simp [Dev.portUp, htrained, hlen, hport]

end Perst

/-! ### The statement -/

/-- Settles O11: a DIE reset by the one die and the two writes it makes, the others by the pins and pigeonholes of their port. -/
theorem dieAndPortResets : Obligations.DieAndPortResets := by
  unfold Obligations.DieAndPortResets
  refine ⟨fun die s ⟨hwf, hdma⟩ hlen hdie hsafe hback hused hrestart hpkg hstep => ?_, fun port s hport hqueues hholes htrained => ?_,
    fun port s hport hstep hstart hup hlen => ?_⟩
  · obtain ⟨hdies, hwrites⟩ := dieResetEffect_restarts (m := s.mem) hdie hsafe hback hused hrestart hpkg hstep
    generalize hrun : dieResetEffect die s.mem s.dev = d at hdies hwrites
    have hself : d.die die = (s.dev.die die).restarted die s.dev.now := by
      rw [Dev.die, hdies]
      exact Dev.onDie_die_self _ _ _ (hlen.symm ▸ hdie)
    have hmem : (s.put d).mem =
        [⟨.dram, die * 2 ^ 36, [], 2 ^ 36⟩, ⟨.frame, frameKey die 0 0, [], 9 * 2 ^ 25⟩].foldl memApply s.mem := by
      rw [State.put, hwrites, hdma, List.nil_append]
    have hfc : (s.put d).dev.fc die = ((s.dev.die die).restarted die s.dev.now).fc := congrArg Die.fc hself
    refine ⟨_, exec_of_effect rfl hrun, (congrArg Die.safe hself).trans rfl, (congrArg Die.idle hself).trans rfl, ?_, ?_,
      fun i hi => ?_, fun a ha => ?_, fun a ha => ?_, ?_⟩
    · rw [hfc]
      rfl
    · rw [hfc]
      rfl
    · have hother : d.die i = (s.dev.onDie die fun x => x.restarted die s.dev.now).die i := by rw [Dev.die, hdies, Dev.die]
      exact hother.trans (Dev.onDie_die_other _ _ _ _ (Ne.symm hi))
    · rw [hmem, cellsGet_dram_cleared hwf, if_pos (by omega)]
    · rw [hmem, cellsGet_dram_cleared hwf, if_neg (by omega)]
    · rw [hmem]
      rfl
  · refine ⟨_, exec_of_effect rfl (portResetEffect_no_queues hport hqueues), perstLow_portUp, fun p hp hown => ?_,
      fun p hp hother => ?_, rfl, rfl⟩
    · exact (perstLow_hole (hholes.symm ▸ hp)).trans (if_pos hown)
    · exact (perstLow_hole (hholes.symm ▸ hp)).trans (if_neg hother)
  · have hpins := perstNHighEffect_trains (m := s.mem) hport hstep hstart hup
    exact ⟨_, rfl, trained_portUp hport hlen (congrArg Pins.trained hpins), congrArg Pins.perst hpins⟩

end Sys2Proof.Machine
end
